-- ==== Sys2Proof/Word.lean ====
section
/-! DEFINITION. The word types of the ZV-2460: the byte, the little-endian 32-bit register and command word of R11,
and the 64-bit register pair. Everything that is computed from them stands in Machine/Bits.lean. -/

namespace Sys2Proof

/-- One byte of a memory (R11). -/
abbrev Byte := BitVec 8

/-- One 32-bit word: a register word of R12, a command word of R160, a handle of R289. -/
abbrev W32 := BitVec 32

/-- A 64-bit value: a context bitmap, a seed, device time in the registers that show it. -/
abbrev W64 := BitVec 64

end Sys2Proof
end

