-- ==== Sys2Proof/Syntax.lean ====
section
/-! DEFINITION. The commands the device takes, one constructor of `Instr` per row of the table of operations and events
(opcode_table.json), with the operands its rule names. A command of an engine (NOP to HBUMP) is the execution of the
oldest such command the engine has issued; what a register, a frame or an event carries is an operand. -/

namespace Sys2Proof

/-- The five engines of a core, by their ENG codes (R160). -/
inductive Eng where
  | me | ve | se0 | se1 | seq
  deriving DecidableEq, Repr

/-- The eight words of an engine command (R160). -/
structure Cmd where
  w0 : W32
  w1 : W32
  w2 : W32
  w3 : W32
  w4 : W32
  w5 : W32
  w6 : W32
  w7 : W32
  deriving DecidableEq, Repr

/-- A hub unit register with no behaviour of its own, by the name its chapter gives it. -/
inductive HubReg where
  /-- VIEWn word w of a core (R162). -/
  | view (core : Fin 24) (n : Fin 64) (w : Fin 4)
  /-- GEOn word w of a core (R166). -/
  | geo (core : Fin 24) (n : Fin 16) (w : Fin 8)
  /-- SDESCn word w of a core (R278). -/
  | sdesc (core : Fin 24) (n : Fin 64) (w : Fin 10)
  /-- ENGx.SLOTb_n of a core (R137). -/
  | slot (core : Fin 24) (eng : Eng) (bank : Fin 2) (n : Fin 16)
  /-- CORE.FRAME.PERIOD of a core (R137). -/
  | framePeriod (core : Fin 24)
  /-- CORE.CTXCLASS word w of a core (R129). -/
  | ctxClass (core : Fin 24) (w : Fin 2)
  /-- CORE.CTXEN word w of a core (R323). -/
  | ctxEn (core : Fin 24) (w : Fin 2)
  /-- CORE.CTXRST word w of a core (R554). -/
  | ctxRst (core : Fin 24) (w : Fin 2)
  /-- CORE.RTHOLDb_n of a core (R326). -/
  | rtHold (core : Fin 24) (bank : Fin 2) (n : Fin 8)
  /-- CORE.RNGSEEDn word w of a core (R246). -/
  | rngSeed (core : Fin 24) (n : Fin 64) (w : Fin 2)
  /-- SCALEb_n word w of a core (R227). -/
  | scale (core : Fin 24) (bank : Fin 2) (ch : Fin 2048) (w : Fin 4)
  /-- CTXTABn (R323). -/
  | ctxTab (n : Fin 64)
  /-- CLTILEk word w of a cluster (R337). -/
  | tile (cluster : Fin 6) (k : Fin 4) (w : Fin 3)
  /-- SCRUB.CFG (R276). -/
  | scrubCfg
  deriving DecidableEq, Repr

/-- Why a received frame is discarded before its type is served. -/
inductive BadFrame where
  /-- The CRC fails, or the frame is broken off (R445, R448, R469). -/
  | crc
  /-- A reserved or unlisted type, a nonzero reserved field, or a LEN outside its range (R447, R469). -/
  | header
  /-- It lies in an uncorrectable codeword of a peer lane (R469). -/
  | codeword
  deriving DecidableEq, Repr

/-- A dictionary request without its OP: the header fields of R485 as sent, and the data. `rsv` is the reserved field. -/
structure DictMsg where
  typ : Fin 16
  last : Bool
  rsv : Fin 8
  tid : BitVec 8
  sub : BitVec 8
  index : BitVec 16
  dlen : BitVec 16
  offset : BitVec 32
  total : BitVec 32
  data : List Byte
  deriving DecidableEq, Repr

/-- One segment of a transfer of a DOMAIN object: its transfer number, OFFSET, TOTAL and bytes; LAST as R488 has it. -/
structure Segment where
  tid : BitVec 8
  last : Bool
  offset : BitVec 32
  total : BitVec 32
  data : List Byte
  deriving DecidableEq, Repr

/-- What a request meets that no rule decides: a flash write that fails (R500), the fuse rows or slots that do not read back
(R543, R544), and a vocabulary whose trie does not fit the memory reserved for it (R393). -/
structure Env where
  flashFails : Bool
  fuseFails : Fin 3
  trieFits : Bool
  deriving DecidableEq, Repr

/-- A frame received at the management port (R477, R478): addresses, EtherType, the two header words, what follows them
without its padding, and whether the frame check sequence holds. -/
structure MgmtFrame where
  dst : BitVec 48
  src : BitVec 48
  etherType : BitVec 16
  w0 : W32
  w1 : W32
  body : List Byte
  fcsOk : Bool
  deriving DecidableEq, Repr
/-- One command or event: a row of the table. -/
inductive Instr where
  /-- NOP (R153): Sequencer command that does nothing for 4 cycles. -/
  | nop (core : Fin 24)
  /-- SETC (R153): Loads a 32-bit value into a sequencer counter of the command's predicate bank. -/
  | setc (core : Fin 24)
  /-- ADDC (R153): Adds a signed 32-bit value modulo 2^32 to a sequencer counter. -/
  | addc (core : Fin 24)
  /-- CMP (R154): Sets a comparator's counter, relation and limit; the comparator then drives its predicate bit. -/
  | cmp (core : Fin 24)
  /-- SETP (R153): Sets, clears or inverts predicate bits P5-P8 of the command's bank. -/
  | setp (core : Fin 24)
  /-- MARK (R331): Marks a cheap point with its live-region bitmap; retires as a NOP in a real-time context. -/
  | mark (core : Fin 24)
  /-- MMA (R100): Matrix multiply-accumulate in the regular arrangement, with passes, drain and conversion of each tile.
  -/
  | mma (core : Fin 24)
  /-- MMA_CHIVE (R111): Thin matrix product in Chive mode after copying A into the A-buffer. -/
  | mmaChive (core : Fin 24)
  /-- CONV_TAPS (R211): Convolution as a sum of per-tap products through the convolution address generator, drained by
  column. -/
  | convTaps (core : Fin 24)
  /-- LOAD_SCALES (R177): Loads scale records into channels of the inactive scale-file bank. -/
  | loadScales (core : Fin 24)
  /-- SCALE_SWAP (R178): Exchanges the two scale-file banks, or is refused with SCALE_BUSY during a SCALE_UPDATE. -/
  | scaleSwap (core : Fin 24)
  /-- ELEM (R193): Applies an elementwise function to every element of the source rows. -/
  | elem (core : Fin 24)
  /-- REDUCE (R196): Reduces each row to one value in the fixed summation order, optionally writing a predicate bit. -/
  | reduce (core : Fin 24)
  /-- SOFTMAX (R199): Computes a row softmax in three sweeps. -/
  | softmax (core : Fin 24)
  /-- NORM (R201): Computes layer or RMS norm of each row, with optional affine gain and bias. -/
  | norm (core : Fin 24)
  /-- LUT (R195): Maps each element through a 256-entry FP32 table with linear interpolation. -/
  | lut (core : Fin 24)
  /-- CAST (R204): Converts each element to the destination format with one rounding. -/
  | cast (core : Fin 24)
  /-- QUANT (R234): Quantises a real-valued tensor with each channel's float scale and zero point. -/
  | quant (core : Fin 24)
  /-- RESCALE (R235): Applies the drain's per-channel conversion to a stored tensor. -/
  | rescale (core : Fin 24)
  /-- SCALE_UPDATE (R238): Adapts channel exponents from drain statistics into the inactive bank and clears the
  statistics. -/
  | scaleUpdate (core : Fin 24)
  /-- RNG_FILL (R248): Fills a tensor with uniform or normal random values from the counter-based generator. -/
  | rngFill (core : Fin 24)
  /-- DROPOUT (R252): Drops elements by random draw, scales kept ones and optionally writes the mask. -/
  | dropout (core : Fin 24)
  /-- SAMPLE (R254): Draws one token from a row of logits, or writes a TOP256 or FULL record for the host. -/
  | sample (core : Fin 24)
  /-- POOL (R217): Window pooling over planar maps through the convolution address generator. -/
  | pool (core : Fin 24)
  /-- GATHER (R205): Writes rows of the destination from indexed rows of the source. -/
  | gather (core : Fin 24)
  /-- SCATTER (R205): Writes or accumulates source rows into indexed rows of the destination. -/
  | scatter (core : Fin 24)
  /-- STREAM_IN (R288): Moves data from a far space into the core's scratchpad. -/
  | streamIn (core : Fin 24) (se : Fin 2)
  /-- STREAM_OUT (R288): Moves data from the core's scratchpad to a far space. -/
  | streamOut (core : Fin 24) (se : Fin 2)
  /-- ACCUMULATOR_SPILL (R185): STREAM_OUT with ACC = 1 writes the context's held accumulator bank with its header. -/
  | accumulatorSpill (core : Fin 24) (se : Fin 2)
  /-- ACCUMULATOR_RESTORE (R185): STREAM_IN with ACC = 1 loads a spilled image into the idle bank and makes it held. -/
  | accumulatorRestore (core : Fin 24) (se : Fin 2)
  /-- FILL (R186): Writes a 32-bit pattern into every granule of a range. -/
  | fill (core : Fin 24) (se : Fin 2)
  /-- COPY (R186): Copies granules in ascending order within one memory space. -/
  | copy (core : Fin 24) (se : Fin 2)
  /-- WIN_WRITE (R187): Writes granules into a window of this or another device, optionally announcing the arrival. -/
  | winWrite (core : Fin 24) (se : Fin 2)
  /-- HINIT (R188): Creates and pushes a run of new handles into a queue. -/
  | hinit (core : Fin 24) (se : Fin 2)
  /-- HMARK (R188): Passes handles on with LAST set. -/
  | hmark (core : Fin 24) (se : Fin 2)
  /-- HBUMP (R188): Passes handles on with their generation raised by one. -/
  | hbump (core : Fin 24) (se : Fin 2)
  /-- QUEUE_APPEND (R128): A cluster control core appends a command to an engine queue, refused if full or malformed. -/
  | queueAppend (core : Fin 24) (eng : Eng) (c : Cmd)
  /-- COMMAND_ISSUE (R131): A considered command whose issue time, gate, engine and class allow it issues, pops its
  handles and is checked. -/
  | commandIssue (core : Fin 24) (eng : Eng) (rt : Bool)
  /-- COMMAND_RETIRE (R136): A command retires and pushes its output and returned handles. -/
  | commandRetire (core : Fin 24) (eng : Eng)
  /-- STREAM_FAULT_END (R170): A running stream command meeting a far-side fault stops and retires with INVALID outputs
  once outstanding accesses are answered. -/
  | streamFaultEnd (core : Fin 24) (se : Fin 2)
  /-- WATCHDOG_EXPIRY (R149): A command not retired by issue plus B plus B/8 is stopped and a hang event raised. -/
  | watchdogExpiry (core : Fin 24) (eng : Eng)
  /-- SLOT_MISS (R143): A real-time slot ends without a SLOT_END command having issued; the engine stops real-time issue.
  -/
  | slotMiss (core : Fin 24) (eng : Eng)
  /-- HANDLE_FORWARD_ARRIVAL (R295): A forwarded handle arrives at its target queue and is pushed as an arrival. -/
  | handleForwardArrival (u : Fin 8) (q : Fin 32)
  /-- CREDIT_ARRIVAL (R295): A credit arrives back at a forwarding source and decrements its occupancy. -/
  | creditArrival (u : Fin 8) (q : Fin 32)
  /-- CORE_FRAME_TICK (R137): The frame tick reaches a core, performs a pending slot-table swap and resets SLOT_IDX. -/
  | coreFrameTick (core : Fin 24)
  /-- FRAME_SWAP_WRITE (R137): Write of CORE.FRAME.SWAP requests a bank swap of slot tables and hold windows at the next
  tick, refused if a bank is invalid. -/
  | frameSwapWrite (core : Fin 24)
  /-- ME_CFG_WRITE (R118): Write of ME.CFG bypass slots, fill mode or RETIRED, refused on an unfenced core. -/
  | meCfgWrite (core : Fin 24) (v : W32)
  /-- HANDLE_QUEUE_CONFIG (R296): Write of a handle queue's configuration, refused if it would complete a pair with too
  deep a source. -/
  | handleQueueConfig (u : Fin 8) (q : Fin 32) (w : Fin 2) (v : W32)
  /-- OWNER_MAP_WRITE (R264): Security core writes an owner-map entry, starting a clear when ownership changes. -/
  | ownerMapWrite (m : Fin 30) (n : Fin 64) (v : W32)
  /-- OWNER_MAP_CLEAR_DONE (R266): A sweep of region clears completes and sets HOLDER to OWN. -/
  | ownerMapClearDone (m : Fin 30)
  /-- REGION_ENTRY_WRITE (R411): Security core writes a region-table entry, refused on overlap or bad coverage. -/
  | regionEntryWrite (e : Fin 64) (w0 w1 : W32)
  /-- REGION_CLOSE_COMPLETE (R32): Accesses admitted under a closing entry have drained and the entry changes. -/
  | regionCloseComplete (e : Fin 64)
  /-- HUB_GRANULE_CLEAR (R413): A hub SRAM or DRAM granule entering a new owner's entry is cleared and its holder updated.
  -/
  | hubGranuleClear (dram : Bool) (g : Fin 4096)
  /-- RSTCMD_SUBMIT (R555): Firmware submits an HINIT through ENGx.RSTCMD during a context reset; it issues ahead of the
  queue. -/
  | rstcmdSubmit (core : Fin 24) (se : Fin 2) (c : Cmd)
  /-- TILE_CLAIM (R337): A read of CLTILE CLAIM returns NEXT and increments it if below LIMIT. -/
  | tileClaim (k : Fin 6) (t : Fin 4)
  /-- REGISTER_WRITE (R14): Write of a hub unit register that has no behaviour of its own. -/
  | registerWrite (r : HubReg) (v : W32)
  /-- REMOTE_WINDOW_WRITE (R269): A window write packet arrives and lands only if the window admits it. -/
  | remoteWindowWrite (dev own : Fin 4) (n : Fin 64) (woff first : Fin 0x100000) (notify last : Bool) (d : List Byte)
  /-- ECC_WRITE_BACK (R273): A corrected SRAM word is written back in the bank's next free cycle unless a write came
  first. -/
  | eccWriteBack (m : Fin 31) (word : Fin 524288)
  /-- SCRUB_ATOM (R275): The Sorrel scrubber reads one granule in an otherwise unused bank cycle. -/
  | scrubAtom (m : Fin 31) (bank : Fin 16)
  /-- SCRUB_LATE (R276): A memory's scrub pass misses its period; SCRUB_LATE is set. -/
  | scrubLate (m : Fin 31)
  /-- FRAME_START (R301): The hub frame timer fires at the prediction and starts a frame. -/
  | frameStart
  /-- SYNC_FRAME (R301): A SYNC frame arrives on the main host link and is accepted or ignored. -/
  | syncFrame (lane : Fin 4) (seq : BitVec 16) (frame : BitVec 32)
  /-- SYNC_WINDOW_CLOSE (R302): At prediction plus t_SYW a frame without an accepted tick becomes a flywheel frame or the
  loop enters SYNC_LOST. -/
  | syncWindowClose
  /-- SAMPLES_FRAME (R305): A SAMPLES frame fully arrives and each record is staged, superseded or discarded. -/
  | samplesFrame (lane : Fin 4) (seq : BitVec 16) (data : List Byte)
  /-- INGRESS_CLOSE (R306): At ingress close the ingress unit writes each group's buffer and pushes its ingress handle. -/
  | ingressClose
  /-- ALIGNER_EVALUATION (R380): At E_f the aligner resamples its channels and stages the stream's row or marks it LATE.
  -/
  | alignerEvaluation (n : Fin 32)
  /-- EGRESS_HANDLE_ARRIVAL (R309): An egress handle arrives in hub queue 4g+2; it is used or counted stale and pushed
  back. -/
  | egressHandleArrival (g : Fin 8)
  /-- EGRESS_INSTANT (R310): At the deadline the egress unit sends one result per enabled stream with its status. -/
  | egressInstant
  /-- LOOP_ENABLE (R308): Write of LOOP_ENABLE = 1 admits the plan, configures hub queues and enters WAIT_SYNC. -/
  | loopEnable (m : Fin 4) (tid : BitVec 8)
  /-- LOOP_DISABLE (R308): Write of LOOP_ENABLE = 0 stops the loop at the next frame start and clears the hub queues. -/
  | loopDisable (m : Fin 4) (tid : BitVec 8)
  /-- FAILOVER (R457): At a frame start after a trigger, the main host link moves from DL0 to DL1. -/
  | failover
  /-- SWITCH (R457): Write of MAIN_HOST SWITCH = 1 requests failover at the next frame start. -/
  | switch (m : Fin 4) (tid : BitVec 8)
  /-- NOT_READY (R456): The device answers a SYNC or SAMPLES it cannot serve with a NOT_READY frame. -/
  | notReady (link : Fin 2)
  /-- SAMPLE_PKT (R462): A sensor sample packet arrives and its samples are decoded, decimated and written to ring and
  history. -/
  | samplePkt (sl : Fin 2) (seq : BitVec 16) (data : List Byte) (excess : Bool)
  /-- LINE_PKT (R463): A camera line packet arrives and enters the image pipeline, starting or abandoning a frame. -/
  | linePkt (sl : Fin 2) (seq : BitVec 16) (data : List Byte) (full : Bool)
  /-- IMAGE_DELIVERY (R391): The last write of a camera frame commits; header and WRITE_SEQ are written and the frame
  announced. -/
  | imageDelivery (k : Fin 4)
  /-- TIME_FRAME (R461): The device sends a TIME frame on a sensor lane at each frame start or each TIME_PERIOD_US. -/
  | timeFrame (sl : Fin 2)
  /-- ACYC_FRAME (R454): An ACYC frame arrives, is delivered in sequence and acknowledged, carrying a dictionary message.
  -/
  | acycFrame (lane : Fin 4) (seq : BitVec 16) (data : List Byte) (e : Env)
  /-- BULK_FRAME (R454): A BULK frame arrives on DL0 or DL1 and is delivered in sequence and acknowledged. -/
  | bulkFrame (lane : Fin 4) (seq : BitVec 16) (data : List Byte)
  /-- ACK (R454): An ACK frame arrives and releases acknowledged frames of a reliable channel. -/
  | ack (lane : Fin 4) (ch : Fin 2) (next : BitVec 16)
  /-- RETRANSMIT_TIMEOUT (R454): The oldest unacknowledged drive-link frame waits t_ART and it and later frames are
  resent. -/
  | retransmitTimeout (lane : Fin 4) (ch : Fin 2)
  /-- IDENT (R433): A valid identity record is received; the partner is accepted or refused. -/
  | ident (i : Fin 12) (r : List Byte)
  /-- SWAP_NOTICE (R439): A swap notice is received; the following loss of light is treated as a swap gap. -/
  | swapNotice (i : Fin 12)
  /-- LIGHT_ABOVE_SEAT (R429): Received power reaches P_SEAT on a NO_LIGHT lane and the seating count starts. -/
  | lightAboveSeat (i : Fin 12) (p : BitVec 16)
  /-- LANE_SEATED (R429): Power has stayed above P_SEAT for t_SEAT; the lane enters TRAINING. -/
  | laneSeated (i : Fin 12)
  /-- LOSS_OF_LIGHT (R430): Received power falls below P_LOS and the lane enters LOS. -/
  | lossOfLight (i : Fin 12) (p : BitVec 16)
  /-- LIGHT_RETURN (R430): Power returns within t_UNP and the lane goes to TRAINING. -/
  | lightReturn (i : Fin 12) (p : BitVec 16)
  /-- UNPLUG_EVENT (R430): Power stays below P_LOS for t_UNP; the lane enters NO_LIGHT and any refusal clears. -/
  | unplugEvent (i : Fin 12)
  /-- TRAINING_COMPLETE (R431): Rate training completes and the lane enters UP. -/
  | trainingComplete (i : Fin 6)
  /-- ECHO (R468): ECHO frames measure peer fibre delay; the peer lane enters UP and LONG is set. -/
  | echo (j : Fin 6) (reply : Bool) (turn rtt : BitVec 32)
  /-- RETRAIN (R431): Write of LANE RETRAIN = 1 takes the lane from UP or REFUSED to TRAINING. -/
  | retrain (m : Fin 4) (tid : BitVec 8) (lane : Fin 12)
  /-- LANE_ENABLE_WRITE (R431): Write of LANE ENABLE turns a lane OFF or starts it. -/
  | laneEnableWrite (m : Fin 4) (tid : BitVec 8) (lane : Fin 12) (v : Bool) (e : Env)
  /-- DEV_NUM_LOCAL_WRITE (R434): Write of the device number lets refused peer lanes train again. -/
  | devNumLocalWrite (m : Fin 4) (tid v : BitVec 8) (e : Env)
  /-- MARGIN_PROBE (R436): Every PROBE_PERIOD_S a second sampler measures the lane's eye margin. -/
  | marginProbe (i : Fin 12) (h v : BitVec 16)
  /-- BIAS_MEASUREMENT (R437): Each second the laser bias is measured; a swap falls due at 1.25 times BIAS_INIT. -/
  | biasMeasurement (i : Fin 12) (ua : BitVec 32)
  /-- SPARE_PREWARM_DONE (R439): The spare laser has been pre-warmed for t_PRW and the swap waits for a link-quiet window.
  -/
  | sparePrewarmDone (i : Fin 12)
  /-- LASER_SWAP (R439): At a link-quiet window the transmitter sends a swap notice and moves to the spare laser. -/
  | laserSwap (i : Fin 12) (bias : BitVec 32)
  /-- LASER_SWAP_FALLBACK (R60): After 60 s without a quiet window the swap is made in the free portion. -/
  | laserSwapFallback (i : Fin 12) (bias : BitVec 32)
  /-- LASER_FAILURE (R440): The active laser loses regulation; the spare is taken at once or the lane fails. -/
  | laserFailure (i : Fin 12) (bias : BitVec 32)
  /-- LANE_DEGRADE (R442): A peer link switches to one lane when a lane leaves UP or its FEC errors exceed the limit. -/
  | laneDegrade (j : Fin 6) (bad total : BitVec 32)
  /-- LANE_RESTORE (R442): After 1 s of good operation the lost lane rejoins at a free portion. -/
  | laneRestore (n : Fin 3)
  /-- PEER_WRITE (R470): A peer WRITE packet arrives, is checked against the window and answered with WSTATUS. -/
  | peerWrite (j : Fin 6) (cls : Fin 2) (seq : BitVec 16) (w2 w3 : W32) (data : List Byte)
  /-- WSTATUS (R470): A WSTATUS answer arrives; the writing command progresses, retries or ends. -/
  | wstatus (j : Fin 6) (cls : Fin 2) (seq : BitVec 16) (w2 w3 : W32)
  /-- PEER_HANDLE (R295): A HANDLE frame delivers a forwarded handle from another device. -/
  | peerHandle (j : Fin 6) (seq : BitVec 16) (h w3 : W32)
  /-- PEER_CREDIT (R295): A CREDIT frame returns credits to a forwarding source on this device. -/
  | peerCredit (j : Fin 6) (seq : BitVec 16) (w2 w3 : W32)
  /-- LANE_MODE (R442): A LANE_MODE frame signals the switch between two-lane and one-lane operation. -/
  | laneMode (j : Fin 6) (mode : Fin 4)
  /-- PEER_ACK (R473): A peer ACK releases acknowledged frames of each class. -/
  | peerAck (j : Fin 6) (next0 next1 : BitVec 16)
  /-- PEER_RETRANSMIT_TIMEOUT (R473): A peer frame waits t_PRT and is resent with later frames of its class. -/
  | peerRetransmitTimeout (j : Fin 6) (cls : Fin 2)
  /-- PEER_FENCE (R475): A FENCE frame requests or confirms fencing of clusters holding forwarding ends. -/
  | peerFence (j : Fin 6) (seq : BitVec 16) (mask : BitVec 6) (complete : Bool)
  /-- PEER_FENCE_TIMEOUT (R475): A FENCE gets no answer in 10 ms and escalates to a partition reset. -/
  | peerFenceTimeout (n : Fin 3)
  /-- PEER_LINK_DOWN (R475): Neither lane is UP; outstanding writes end with TRANSFER and partitions with forwarding ends
  are reset. -/
  | peerLinkDown (n : Fin 3)
  /-- PEER_BACKOFF_EXPIRY (R615): After a random back-off a peer lane restarts its identity phase. -/
  | peerBackoffExpiry (j : Fin 6)
  /-- TRACE_DRAIN (R619): The trace unit sends ring records oldest first to the management port or observer. -/
  | traceDrain
  /-- MGMT_FRAME (R479): A management-port frame arrives and its request is executed or answered from the response store.
  -/
  | mgmtFrame (f : MgmtFrame) (e : Env)
  /-- DISCOVERY (R479): A discovery frame is answered with the identity record. -/
  | discovery (src : BitVec 48) (broadcast : Bool) (seq : BitVec 16)
  /-- DICT_READ (R487): A dictionary READ is checked and answered, segmented for DOMAIN objects. -/
  | dictRead (m : Fin 4) (x : DictMsg)
  /-- DICT_WRITE (R487): A dictionary WRITE to an object with no action of its own is checked and applied. -/
  | dictWrite (m : Fin 4) (x : DictMsg) (e : Env)
  /-- DICT_ABORT (R489): ABORT ends an open segmented transfer with no change. -/
  | dictAbort (m : Fin 4) (x : DictMsg)
  /-- SEGMENT_TIMEOUT (R489): An open transfer receives no segment for t_SEGT and ends. -/
  | segmentTimeout (m : Fin 4) (tid : BitVec 8)
  /-- TOKEN_ACQUIRE (R491): REQUEST = 1 acquires the control token if free. -/
  | tokenAcquire (m : Fin 4) (tid : BitVec 8)
  /-- TOKEN_RELEASE (R491): REQUEST = 0 releases the control token. -/
  | tokenRelease (m : Fin 4) (tid : BitVec 8)
  /-- SEIZE (R493): The management port seizes the token, ending the former holder's open token writes. -/
  | seize (m : Fin 4) (tid : BitVec 8)
  /-- PORT_LOSS (R492): A master's port is lost for t_TKL; its token, session and negotiation clear. -/
  | portLoss (m : Fin 4)
  /-- NONCE (R494): A read of SESSION NONCE returns a fresh challenge. -/
  | nonce (m : Fin 4) (tid : BitVec 8)
  /-- SESSION_OPEN (R494): OPEN checks the proof and opens an owner session, with lockout after failures. -/
  | sessionOpen (m : Fin 4) (g : Segment)
  /-- SESSION_CLOSE (R495): CLOSE ends the session and its open owner-class writes. -/
  | sessionClose (m : Fin 4) (tid : BitVec 8)
  /-- HOST_MAJOR (R496): Write of HOST_MAJOR completes feature negotiation for the master. -/
  | hostMajor (m : Fin 4) (tid : BitVec 8) (v : BitVec 16)
  /-- RESTORE_DEFAULTS (R504): Clears the kept store except DEV_NUM_LOCAL. -/
  | restoreDefaults (m : Fin 4) (tid : BitVec 8)
  /-- ERROR_LOG_CLEAR (R568): CLEAR removes every error-log entry, sticky ones included. -/
  | errorLogClear (m : Fin 4) (tid : BitVec 8)
  /-- COUNTER_SELECT (R620): Write of counter selections, clearing each changed counter. -/
  | counterSelect (m : Fin 4) (g : Segment)
  /-- TRACE_ENABLE (R618): Write of TRACE ENABLE = 1 empties the ring and starts tracing. -/
  | traceEnable (m : Fin 4) (tid : BitVec 8)
  /-- FAULT_INJECT_ARM (R513): ARM = 1 starts a frame drop, corrupt or reorder injection on a link. -/
  | faultInjectArm (m : Fin 4) (tid : BitVec 8)
  /-- FAULT_INJECT_STOP (R514): ARM = 0 stops an armed injection. -/
  | faultInjectStop (m : Fin 4) (tid : BitVec 8)
  /-- SUPERVISOR_PRESENT (R56): The board supervisor declares itself able to cycle the rails. -/
  | supervisorPresent (m : Fin 4) (tid : BitVec 8)
  /-- CYCLE_ACK (R563): The supervisor acknowledges a power-cycle request after summary and repair state are written. -/
  | cycleAck (m : Fin 4) (tid : BitVec 8)
  /-- CONTEXT_START (R322): CONTROL = START checks and starts a context, mapping its variant. -/
  | contextStart (m : Fin 4) (tid : BitVec 8) (n : Fin 64)
  /-- CONTEXT_STOP (R321): CONTROL = STOP stops a context. -/
  | contextStop (m : Fin 4) (tid : BitVec 8) (n : Fin 64)
  /-- CONTEXT_PREEMPT (R331): CONTROL = PREEMPT stops appends for a best-effort context until its cheap point. -/
  | contextPreempt (m : Fin 4) (tid : BitVec 8) (n : Fin 64)
  /-- CONTEXT_RESUME (R334): CONTROL = RESUME restores saved regions and the predicate bank and appends the next segment.
  -/
  | contextResume (m : Fin 4) (tid : BitVec 8) (n : Fin 64)
  /-- CHEAP_POINT_REACHED (R331): A pre-empting context reaches its cheap point on a core and its save begins. -/
  | cheapPointReached (n : Fin 64) (core : Fin 24)
  /-- INVOCATION_START (R352): A best-effort context finds a new dimension record SEQ and starts an invocation of the
  chosen variant. -/
  | invocationStart (n : Fin 64)
  /-- INVOCATION_DONE (R352): Every core program's last segment retires and DONE_SEQ is set. -/
  | invocationDone (n : Fin 64)
  /-- CODE_OBJECT_IMAGE (R354): Segments of a code-object IMAGE are loaded; the last enters CHECKING. -/
  | codeObjectImage (m : Fin 4) (k : Fin 32) (g : Segment)
  /-- LOAD_CHECK (R353): A loaded code object is checked, measured and locked, or fails. -/
  | loadCheck (i : Fin 32)
  /-- PIN (R355): PIN = 1 copies the image to the flash pinned store; PIN = 0 removes it. -/
  | pin (m : Fin 4) (tid : BitVec 8) (k : Fin 32) (v : Bool) (e : Env)
  /-- PIN_COPY_DONE (R355): The flash copy completes and PINNED is set, or the write fails. -/
  | pinCopyDone (i : Fin 32) (failed : Bool)
  /-- UNLOAD (R354): CONTROL = UNLOAD empties a code-object slot. -/
  | unload (m : Fin 4) (tid : BitVec 8) (k : Fin 32)
  /-- PINNED_RELOAD (R356): Pinned images are read back from flash, placed, measured and locked. -/
  | pinnedReload (i : Fin 32) (damaged : Bool)
  /-- SUBMIT (R361): A labelled submission is accepted into the filling half or refused. -/
  | submit (m : Fin 4) (n : Fin 64) (g : Segment)
  /-- SUBMISSION_ROW_WRITTEN (R382): The hub augments an accepted submission and writes its batch row. -/
  | submissionRowWritten
  /-- BATCH_CLOSE (R362): A full half or a CLOSE closes the batch and writes the dimension record. -/
  | batchClose (n : Fin 64) (by_ : Option (Fin 4)) (tid : BitVec 8)
  /-- PUBLISH (R365): PUBLISH = 1 requests a publication into a consenting real-time context. -/
  | publish (m : Fin 4) (tid : BitVec 8) (n : Fin 64)
  /-- PUBLISH_FROM (R366): Write of PUBLISH_FROM names the accepted publisher and aborts a pending publication on change.
  -/
  | publishFrom (m : Fin 4) (tid : BitVec 8) (n : Fin 64) (v : BitVec 8) (e : Env)
  /-- PUBLICATION_FRAME (R368): The publication plan is swapped in for frame F on every target core. -/
  | publicationFrame (n : Fin 64)
  /-- PUBLICATION_DONE (R368): The last added command retires; the state becomes DONE. -/
  | publicationDone (n : Fin 64)
  /-- CAMERA_ENABLE (R386): Write of camera ENABLE checks the configuration and starts or stops the stream. -/
  | cameraEnable (m : Fin 4) (tid : BitVec 8) (k : Fin 4) (v : Bool)
  /-- TEXT (R396): A TEXT transfer is accepted for tokenization or refused. -/
  | text (m : Fin 4) (g : Segment)
  /-- FLUSH (R395): FLUSH decides held bytes and closes open comments. -/
  | flush (m : Fin 4) (tid : BitVec 8)
  /-- TOKENIZE_COMPLETE (R396): Processing of a transfer ends; WRITE_SEQ and the dimension record are written. -/
  | tokenizeComplete
  /-- VOCAB (R393): A vocabulary is written and checked; firmware builds its trie. -/
  | vocab (m : Fin 4) (g : Segment) (e : Env)
  /-- WINDOW_OPEN (R268): WINDOW OPEN = 1 opens a window if its conditions hold. -/
  | windowOpen (m : Fin 4) (tid : BitVec 8) (n : Fin 64)
  /-- WINDOW_CLOSE (R268): WINDOW OPEN = 0 closes a window in three steps. -/
  | windowClose (m : Fin 4) (tid : BitVec 8) (n : Fin 64)
  /-- REGION_OPEN (R412): REGION OPEN = 1 opens a region-table entry after any clear. -/
  | regionOpen (m : Fin 4) (tid : BitVec 8) (n : Fin 64)
  /-- REGION_CLOSE (R32): REGION OPEN = 0 marks the entry closing and starts its drain. -/
  | regionClose (m : Fin 4) (tid : BitVec 8) (n : Fin 64)
  /-- DRAM_READ (R409): A DRAM line read returns data, corrects, or poisons on ECC or tag failure. -/
  | dramRead (owner : Fin 4) (part : Option (Fin 4)) (line : Fin 0x8000000)
  /-- DRAM_WRITE (R410): A full-line DRAM write stores data with a new tag and clears poison. -/
  | dramWrite (owner : Fin 4) (part : Option (Fin 4)) (line : Fin 0x8000000) (frt : Fin 4) (d : List Byte)
  /-- DRAM_PARTIAL_WRITE (R410): A partial DRAM write is a read-modify-write, refused on a poisoned line. -/
  | dramPartialWrite (owner : Fin 4) (part : Option (Fin 4)) (a : Fin 0x200000000) (d : List Byte)
  /-- REFRESH_DUE (R402): A refresh falls due on a channel and issues or is owed in a quiet interval. -/
  | refreshDue (ch : Fin 8)
  /-- REFRESH_MAKEUP (R403): At the end of a quiet interval owed refreshes issue back to back. -/
  | refreshMakeup (ch : Fin 8)
  /-- DRAM_TEMP_READ (R402): Every 4 ms the die temperature is read and t_REFI adjusted. -/
  | dramTempRead (t0 t1 t2 t3 : BitVec 8)
  /-- DRAM_ALERT (R405): A die raises ALERT on parity or sequence mismatch; the controller replays from the retry buffer.
  -/
  | dramAlert (ch : Fin 8) (expect : Fin 32) (clean : Bool)
  /-- CHANNEL_REBUILD (R52): After a channel loss partitions are fenced, the map rebuilt and pinned copies reloaded. -/
  | channelRebuild
  /-- ROW_SPARING (R418): A sparing atom copies a row to a spare and commits the remap. -/
  | rowSparing (ch : Fin 8) (bank : Fin 16) (row : Fin 32768)
  /-- ZQ_CALIBRATION (R421): An impedance calibration atom runs on a channel. -/
  | zqCalibration (ch : Fin 8)
  /-- PATTERN_READ (R421): A channel idle for 1 ms issues an MRR of PATTERN for read timing. -/
  | patternRead (ch : Fin 8)
  /-- PATROL_READ (R422): The DRAM patrol reads one line, correcting or poisoning it. -/
  | patrolRead (ch : Fin 8)
  /-- MODEL_RELOAD (R572): A poisoned line of a pinned image in DRAM is repaired from its flash block. -/
  | modelReload (line : Fin 0x8000000) (bad : Bool)
  /-- PLACED_WORD_REWRITE (R573): A poisoned word placed from a pinned image is rewritten from the DRAM image. -/
  | placedWordRewrite (m : Fin 30) (word : Fin 262144)
  /-- SELFTEST_RUN (R156): A core runs its start-up or recovery self-test in self-test mode and leaves it cleared. -/
  | selftestRun (core : Fin 24) (cols : BitVec 32) (failed : Bool)
  /-- SELFTEST_ATOM (R120): An in-service array test atom tests one column in the free portion. -/
  | selftestAtom (core : Fin 24) (col : Fin 32) (failed : Bool)
  /-- REPAIR_APPLY (R57): A shape-changing repair and its variant take effect together at a frame boundary. -/
  | repairApply (p : Fin 4)
  /-- FENCE_REQUEST (R551): The PMC fences a domain: new requests are refused and outstanding ones drained. -/
  | fenceRequest
  /-- FENCE_DRAIN_LIMIT (R551): At t_FDR remaining accepted requests are answered with errors and commands stopped. -/
  | fenceDrainLimit
  /-- FENCE_COMPLETE (R551): No request of the domain remains outstanding; fence-complete is signalled. -/
  | fenceComplete
  /-- CONTEXT_RESET (R554): Context reset: purge commands, flush queues, raise generations and re-create rings. -/
  | contextReset
  /-- ENGINE_RESET (R560): Engine reset of one engine with its core fenced and its queue flushed. -/
  | engineReset
  /-- PARTITION_RESET (R561): Partition reset: fence, self-test, clear memories and restart contexts. -/
  | partitionReset
  /-- PACKAGE_RESET (R562): Package reset of everything but the always-on island, keeping DRAM in self-refresh. -/
  | packageReset
  /-- ESCALATION (R549): A step that misses its Max or cannot clear its fault hands it to the next step. -/
  | escalation (stuck : Bool)
  /-- CROSSING_FAULT (R552): A clock crossing fails its Gray-pointer check or is found reset on one side; both halves
  reset and a step follows. -/
  | crossingFault (k : Option (Fin 6))
  /-- RECOVERY_RETURN (R557): At the second frame start after restart a recovering group returns to RUN. -/
  | recoveryReturn
  /-- CCC_WATCHDOG (R517): A cluster control core watchdog expires; its partition is reset. -/
  | cccWatchdog (k : Fin 6) (bad : Bool)
  /-- SCH_WATCHDOG (R517): The scheduler core watchdog expires; package reset. -/
  | schWatchdog
  /-- SC_WATCHDOG (R517): The security core watchdog expires; package reset. -/
  | scWatchdog
  /-- PMC_WATCHDOG (R518): The PMC watchdog expires and the PMC alone restarts. -/
  | pmcWatchdog
  /-- LOCKSTEP_MISMATCH (R516): A lockstep pair's writes differ; both stop and a package reset follows. -/
  | lockstepMismatch (sch : Bool)
  /-- POWER_CYCLE_REQUEST (R563): A step calls for a power cycle; CYCLE_REQUEST is set and the device starts no further
  step. -/
  | powerCycleRequest
  /-- POWER_ON (R534): Rails are applied; the always-on reset is released and boot runs. -/
  | powerOn
  /-- SETPOINT_REACHED (R607): VCD0 and VCD1 reach their setpoints and boot proceeds past its wait. -/
  | setpointReached (mv0 mv1 : BitVec 16)
  /-- VAON_LOW (R608): VAON falls below its limit; the always-on reset reasserts and power-up restarts. -/
  | vaonLow
  /-- RAIL_EXCURSION (R505): A rail leaves its limits for 10 µs; OK and RAILS_OK clear. -/
  | railExcursion (r : Fin 9) (mv : BitVec 16)
  /-- ACTIVATE_HANDOFF (R522): ACTIVATE = 1 starts a Lovage handoff by loading the standby banks. -/
  | activateHandoff (m : Fin 4) (tid : BitVec 8)
  /-- ACTIVATE_SC_IMAGE (R510): ACTIVATE = 2 starts a package reset to run the other slot's security-core image. -/
  | activateScImage (m : Fin 4) (tid : BitVec 8)
  /-- HANDOFF_LOAD_DONE (R522): Standby banks are loaded, checked and measured; the handoff record is written. -/
  | handoffLoadDone (bad : Bool) (f1 : BitVec 32) (major minor : BitVec 16) (body : List Byte)
  /-- BANK_SWITCH (R522): At frame F1 all seven cores switch banks and the new image validates the record. -/
  | bankSwitch
  /-- HANDOFF_CONFIRM (R525): The new image confirms and the handoff becomes DONE. -/
  | handoffConfirm
  /-- HANDOFF_REVERT (R526): The handoff reverts at a frame start and the old image resumes. -/
  | handoffRevert
  /-- FW_IMAGE (R509): Segments of a firmware IMAGE are written into a flash slot and checked. -/
  | fwImage (m : Fin 4) (k : Fin 2) (g : Segment)
  /-- FW_ERASE (R509): ERASE = 1 erases a firmware slot. -/
  | fwErase (m : Fin 4) (tid : BitVec 8) (k : Fin 2)
  /-- LIFE_CYCLE_REQUEST (R543): A life-cycle REQUEST writes a fuse row and starts a package reset. -/
  | lifeCycleRequest (m : Fin 4) (tid v : BitVec 8) (e : Env)
  /-- OWNER_KEY_PROVISION (R544): A PROVISION record writes an owner key into the next fuse slot. -/
  | ownerKeyProvision (m w : Fin 4) (g : Segment) (e : Env)
  /-- WRAP_FOR_SUCCESSOR (R539): The security core wraps a secret for the image in the other slot. -/
  | wrapForSuccessor (part : Fin 3) (secret : List Byte)
  /-- POWER_TARGET_P0 (R597): TARGET = 0 leaves power state P3 or P4. -/
  | powerTargetP0 (m : Fin 4) (tid : BitVec 8)
  /-- POWER_TARGET_P3 (R597): TARGET = 3 pre-empts best-effort work and enters power state P3. -/
  | powerTargetP3 (m : Fin 4) (tid : BitVec 8)
  /-- POWER_TARGET_P4 (R598): TARGET = 4 enters standby, power state P4. -/
  | powerTargetP4 (m : Fin 4) (tid : BitVec 8)
  /-- WAKE (R503): WAKE = 1 from the management port leaves power state P4. -/
  | wake (m : Fin 4) (tid : BitVec 8)
  /-- WAKE_TIMER (R503): The wake timer expires in power state P4 and sets TARGET to 0. -/
  | wakeTimer
  /-- P2_ENTRY (R596): An idle partition enters power state P2 after P2_IDLE_MS. -/
  | p2Entry (p : Fin 4)
  /-- P2_EXIT (R596): A start, access or handle wakes a cluster from power state P2. -/
  | p2Exit (k : Fin 6)
  /-- CORE_CLOCK_GATE (R583): After 16 idle cycles a core's clock is gated. -/
  | coreClockGate (core : Fin 24)
  /-- CORE_CLOCK_RELEASE (R583): An append or access releases a gated core clock. -/
  | coreClockRelease (core : Fin 24)
  /-- PLL_LOCK (R582): A cluster PLL locks and its clocks start. -/
  | pllLock (i : Fin 11)
  /-- PLL_LOCK_LOSS (R585): A PLL loses lock; the PMC relocks or resets. -/
  | pllLockLoss (i : Fin 11)
  /-- OSC_FAULT (R585): The 24 MHz oscillator leaves its accuracy or the sleep clock stops. -/
  | oscFault (sleep : Bool)
  /-- THERMAL_REDUCTION (R603): A die at 105 °C drops its best-effort partitions to 500 MHz. -/
  | thermalReduction (d : Fin 2) (t : BitVec 8)
  /-- THERMAL_REDUCTION_END (R603): After 10 s below 100 °C the reduction ends. -/
  | thermalReductionEnd (d : Fin 2) (t : BitVec 8)
  /-- THERMAL_TRIP (R604): A die at T_TRIP for 1 ms puts the device in power state P4. -/
  | thermalTrip (d : Fin 3) (t : BitVec 8)
  /-- SUMMARY_WRITE (R569): The persistent summary record is appended to flash. -/
  | summaryWrite (bad : Fin 65)
  /-- SEATING_POWER_DROP (R429): Received power falls below P_SEAT while a lane is SEATING; the seating count restarts and
  the lane returns to NO_LIGHT. -/
  | seatingPowerDrop (i : Fin 12) (p : BitVec 16)
  /-- PEER_TRAINING_TIMEOUT (R615): A peer lane that passed its identity phase has not reached UP within t_TRNP, stops and
  starts its random back-off. -/
  | peerTrainingTimeout (j : Fin 6)
  /-- ONE_LANE_LINK_UP (R468): A peer link becomes UP in one-lane mode once one lane has been UP for 1 s and the other has
  not. -/
  | oneLaneLinkUp (n : Fin 3)
  /-- IDENTITY_RECORD_REPEAT (R432): Each lane in its identity phase resends its identity record every 100 µs, or every
  100 ms while REFUSED. -/
  | identityRecordRepeat (i : Fin 12)
  /-- HUB_RAIL_RETURN (R608): VHUB or VFL has been back within limits for 1 ms during power-up and boot restarts at step 2
  of R534. -/
  | hubRailReturn
  /-- PATROL_LATE (R422): A DRAM patrol pass does not complete within PERIOD_H; DRAM_PATROL LATE increments and
  PATROL_LATE is set. -/
  | patrolLate
  /-- RECEIVER_FAULT (R440): A lane's receiver reports a fault and the lane enters FAILED. -/
  | receiverFault (i : Fin 12)
  /-- DISCARDED_FRAME (R447): A received link frame with a bad CRC, reserved or unlisted type, nonzero reserved field or
  bad LEN is discarded and counted. -/
  | discardedFrame (lane : Fin 12) (why : BadFrame) (seq : Fin 65536)
  /-- MGMT_LINK_UP (R613): The management port's receiver gains or loses sync and 0x7300:02 LINK_UP changes. -/
  | mgmtLinkUp (up : Bool)
  /-- CYCLE_REQUEST_HOLDOFF_END (R564): One hour after the first of three power cycles requested within an hour, the
  device sets CYCLE_REQUEST again. -/
  | cycleRequestHoldoffEnd
  /-- PACKET_RESEND (R470): 1 µs after a WSTATUS of RETRY the writer resends that window-write packet. -/
  | packetResend (core : Fin 24) (se : Fin 2) (pos : Fin 64)
  /-- JUNCTION_TEMPERATURE_EXCESS (R55): A die's junction temperature crosses TJ_WARN or 95 °C for 10 s; TJ_OK,
  FLAGS.TJ_WARN and OVER_WARN_S change, and TJ_OK is set again after a full hour without one. -/
  | junctionTemperatureExcess (d : Fin 3) (t : BitVec 8)
  /-- PMC_RESTART_DONE (R518): The PMC restart ends and the hang events and reset requests held during it are served in
  arrival order. -/
  | pmcRestartDone
  deriving DecidableEq, Repr

end Sys2Proof
end

