-- ==== Sys2Proof/WellFormed.lean ====
section
/-! DEFINITION. The commands whose byte-list operands have a length their rules allow. -/

namespace Sys2Proof

/-- The command can reach the device: its byte list has a length that a transfer, a packet or a record of its rule can have
(R416, R434, R464, R520). -/
def Instr.wf : Instr → Bool
  | .dramWrite _ _ _ _ d => d.length == 64
  | .dramPartialWrite _ _ a d => d.length != 0 && decide (d.length < 64) && decide (a.val % 64 + d.length ≤ 64)
  | .remoteWindowWrite _ _ _ _ _ _ _ d => d.length != 0 && d.length % 64 == 0 && decide (d.length ≤ 512)
  | .handoffLoadDone _ _ _ _ body => decide (body.length ≤ 262080)
  | .ident _ r => r.length == 32
  | _ => true

end Sys2Proof
end

