-- ==== Sys2Proof/Decode.lean ====
section
/-! DEFINITION. The command a word spells. The table of operations and events gives no row any bits, so no word spells a
command. -/

namespace Sys2Proof

/-- The command that the low `nbits` bits of a word spell by the table: none, since the table gives no bits. -/
def decodeTableWord (_nbits _w : Nat) : Option Instr := none

end Sys2Proof
end

