-- ==== Sys2Proof/Config.lean ====
section
/-! DEFINITION. What an implementation fixes and the spec leaves open: free values, each an opaque constant that no proof
can evaluate, and the device's own secrets. -/

namespace Sys2Proof

/-- Which of the results within the error bound the device returns, for function `f` (log 10): of EXP (0), LOG (1), RECIP
(2) and RSQRT (3) of R194, the threshold above which a result between the FP32 value of bits `x` and the next one takes
the latter; of the normal value of R249 (4), the units beside the exact value at u1, u2 and PARAM `x`. -/
opaque Config.ulpPick (f : Nat) (x : Nat) : Nat

/-- A fresh value for each number: what the spec leaves undefined after a command that goes on (log 11). -/
opaque Config.freeValue (n : Nat) : Nat

/-- The device's fused root key of R531, which no reader sees (log 12). -/
opaque Config.rootKey : List Byte

/-- The device's serial number SN of R476, programmed at test (log 13). -/
opaque Config.serialNumber : Nat

/-- 0x1018:03 STEPPING of the part (log 13). -/
opaque Config.stepping : Nat

/-- 0x1083:02 DEVICE_MINOR of the part (log 13). -/
opaque Config.deviceMinor : Nat

/-- Whether the write number `n` of the repair state to flash fails (R64, log 180). -/
opaque Config.repairWriteFails (n : Nat) : Bool

/-- The production setpoint of compute-die rail `d`, 650 to 800 mV, less 650 (log 13). -/
opaque Config.setpoint (d : Nat) : Nat

end Sys2Proof
end

