-- ==== Sys2Proof/Machine/Bits.lean ====
section
/-! DEFINITION. Bit fields, sign, saturation, little-endian bytes and the canonical sparse table every indexed part of
the state is kept in. -/

namespace Sys2Proof.Machine

/-- The field of `n` bits of `w` that starts at bit `lo` (the notation [lo + n - 1:lo] of R12). -/
def fld {m : Nat} (w : BitVec m) (lo n : Nat) : Nat := w.toNat / 2 ^ lo % 2 ^ n

/-- The field of `n` bits of a number, from bit `lo`. -/
def nfld (w lo n : Nat) : Nat := w / 2 ^ lo % 2 ^ n

/-- One bit of a word. -/
def bit {m : Nat} (w : BitVec m) (i : Nat) : Bool := w.toNat / 2 ^ i % 2 == 1

/-- One bit of a number. -/
def nbit (w i : Nat) : Bool := w / 2 ^ i % 2 == 1

/-- `w` with its field of `n` bits at `lo` replaced by `v`. -/
def nput (w lo n v : Nat) : Nat := w - nfld w lo n * 2 ^ lo + v % 2 ^ n * 2 ^ lo

/-- A 32-bit word with its field of `n` bits at `lo` replaced by `v`. -/
def put32 (w : W32) (lo n v : Nat) : W32 := BitVec.ofNat 32 (nput w.toNat lo n v)

/-- A 64-bit word with one bit set or cleared. -/
def putBit64 (w : W64) (i : Nat) (b : Bool) : W64 := BitVec.ofNat 64 (nput w.toNat i 1 (if b then 1 else 0))

/-- 0 or 1. -/
def b01 (b : Bool) : Nat := if b then 1 else 0

/-- The two's-complement value of the low `n` bits of `v`. -/
def sext (n v : Nat) : Int := if v % 2 ^ n < 2 ^ (n - 1) then (v % 2 ^ n : Nat) else (v % 2 ^ n : Nat) - (2 ^ n : Nat)

/-- The low `n` bits of the two's-complement code of `v`. -/
def trunc (n : Nat) (v : Int) : Nat := (v % (2 ^ n : Nat)).toNat

/-- `v + d` that stops at `max` (a counter documented as saturating, R577). -/
def satAdd (max v d : Nat) : Nat := min max (v + d)

/-- The least count of units of `b` that covers `a`. -/
def cdiv (a b : Nat) : Nat := (a + b - 1) / b

/-- The little-endian bytes of a number (R11). -/
def leBytes : Nat → Nat → List Byte
  | 0, _ => []
  | n + 1, v => BitVec.ofNat 8 v :: leBytes n (v / 256)

/-- The number that little-endian bytes hold (R11). -/
def leNat : List Byte → Nat
  | [] => 0
  | b :: r => b.toNat + 256 * leNat r

/-- The big-endian bytes of a number (SHA-256 and HMAC messages). -/
def beBytes (n v : Nat) : List Byte := (leBytes n v).reverse

/-- The number that big-endian bytes hold. -/
def beNat (l : List Byte) : Nat := leNat l.reverse

/-- `l` with the bytes from `off` on replaced by `d`; `l` is first padded with zeros to reach them. -/
def spliceBytes (l : List Byte) (off : Nat) (d : List Byte) : List Byte :=
  (l ++ List.replicate (off + d.length - l.length) 0).take off ++ d ++ l.drop (off + d.length)

/-- The 32-bit word at byte offset `off` of a byte list; bytes beyond the end read 0. -/
def wordAt (l : List Byte) (off : Nat) : Nat := leNat ((l.drop off).take 4)

/-- The number of `n` bytes at byte offset `off`. -/
def natAt (l : List Byte) (off n : Nat) : Nat := leNat ((l.drop off).take n)

/-- Serial-number comparison of RFC 1982 in `n` bits: `a` is at or after `b` (R578). -/
def serialGe (n a b : Nat) : Bool := (a + 2 ^ n - b % 2 ^ n) % 2 ^ n < 2 ^ (n - 1)

/-- RFC 1982 does not order the two numbers: they are half the range apart. -/
def serialTie (n a b : Nat) : Bool := (a + 2 ^ n - b % 2 ^ n) % 2 ^ n == 2 ^ (n - 1)

/-- `f` applied to `x` for every element of a list, from the first. -/
def foldOver {α β : Type} (l : List α) (x : β) (f : β → α → β) : β := l.foldl f x

/-- A finite map with a default: pairs of key and value, keys strictly rising, no value equal to the default, so that
equal maps are equal data. -/
abbrev Tbl (α : Type) := List (Nat × α)

/-- The value of key `k`, or the default. -/
def Tbl.get {α : Type} (d : α) : Tbl α → Nat → α
  | [], _ => d
  | (k', v) :: r, k => if k' = k then v else Tbl.get d r k

/-- The map with `k` set to `v`; setting the default removes the entry. -/
def Tbl.set {α : Type} [DecidableEq α] (d : α) : Tbl α → Nat → α → Tbl α
  | [], k, v => if v = d then [] else [(k, v)]
  | (k', v') :: r, k, v =>
    if v = d then (if k = k' then Tbl.set d r k v else (k', v') :: Tbl.set d r k v)
    else if k < k' then (k, v) :: (k', v') :: r
    else if k = k' then (k, v) :: r
    else (k', v') :: Tbl.set d r k v

/-- Every key of the map is above `k`. -/
def Tbl.above {α : Type} (k : Nat) : Tbl α → Bool
  | [] => true
  | (k', _) :: _ => decide (k < k')

/-- The canonical form: keys strictly rising and no value equal to the default. -/
def Tbl.wf {α : Type} [DecidableEq α] (d : α) : Tbl α → Bool
  | [] => true
  | (k, v) :: r => decide (v ≠ d) && Tbl.above k r && Tbl.wf d r

/-- The map with every key from `a` to `a + n - 1` back at the default. -/
def Tbl.clear {α : Type} (t : Tbl α) (a n : Nat) : Tbl α := t.filter (fun e => decide (e.1 < a ∨ a + n ≤ e.1))

/-- The map with the keys `k`, `k + 1`, … set to the values of a list. -/
def Tbl.setList {α : Type} [DecidableEq α] (d : α) : Tbl α → Nat → List α → Tbl α
  | t, _, [] => t
  | t, k, v :: r => Tbl.setList d (Tbl.set d t k v) (k + 1) r

/-- The values of the keys `k` to `k + n - 1`. -/
def Tbl.getList {α : Type} (d : α) (t : Tbl α) : Nat → Nat → List α
  | _, 0 => []
  | k, n + 1 => Tbl.get d t k :: Tbl.getList d t (k + 1) n

end Sys2Proof.Machine
end

