-- ==== Sys2Proof/Machine/Float.lean ====
section
/-! DEFINITION. Exact binary numbers and the one rounding each rule of the spec asks for: the stored floating-point
formats of R68, the internal formats X20 and ACC40, FP32 lane arithmetic (R190), and the bounded functions of R194. -/

namespace Sys2Proof.Machine

/-- A number as the device computes with it: the value (−1)^neg × man × 2^exp, an infinity, or a NaN. -/
inductive Num where
  | nan
  | inf (neg : Bool)
  | fin (neg : Bool) (man : Nat) (exp : Int)
  deriving DecidableEq, Repr

/-- +0. -/
def Num.zero : Num := .fin false 0 0

/-- An integer as an exact number; integer zero is +0 (R79). -/
def Num.ofInt (v : Int) : Num := .fin (decide (v < 0)) v.natAbs 0

/-- The number is a zero of either sign. -/
def Num.isZero : Num → Bool
  | .fin _ 0 _ => true
  | _ => false

/-- The number is a NaN. -/
def Num.isNan : Num → Bool
  | .nan => true
  | _ => false

/-- The number is an infinity. -/
def Num.isInf : Num → Bool
  | .inf _ => true
  | _ => false

/-- The sign bit. -/
def Num.neg? : Num → Bool
  | .nan => false
  | .inf n => n
  | .fin n _ _ => n

/-- The negated number. -/
def Num.negate : Num → Num
  | .nan => .nan
  | .inf n => .inf (!n)
  | .fin n m e => .fin (!n) m e

/-- The magnitude. -/
def Num.abs : Num → Num
  | .nan => .nan
  | .inf _ => .inf false
  | .fin _ m e => .fin false m e

/-- The signed integer v with the finite number equal to v × 2^e, for e at most the number's own exponent. -/
def Num.scaled (e : Int) : Num → Int
  | .fin n m x => let v : Int := (m * 2 ^ (x - e).toNat : Nat); if n then -v else v
  | _ => 0

/-- The exponent of a finite number's mantissa. -/
def Num.exp? : Num → Int
  | .fin _ _ e => e
  | _ => 0

/-- The exact product (R83, R85): NaN for a NaN or an infinity times a zero; an infinity keeps the product's sign. -/
def Num.mul (a b : Num) : Num :=
  match a, b with
  | .nan, _ => .nan
  | _, .nan => .nan
  | .inf n, y => if y.isZero then .nan else .inf (n != y.neg?)
  | x, .inf n => if x.isZero then .nan else .inf (n != x.neg?)
  | .fin n m e, .fin n' m' e' => .fin (n != n') (m * m') (e + e')

/-- The exact sum (R86): opposite infinities give NaN, an exact zero sum is +0 except that −0 plus −0 is −0. -/
def Num.add (a b : Num) : Num :=
  match a, b with
  | .nan, _ => .nan
  | _, .nan => .nan
  | .inf n, .inf n' => if n = n' then .inf n else .nan
  | .inf n, _ => .inf n
  | _, .inf n => .inf n
  | x, y =>
    let e := min x.exp? y.exp?
    let v := x.scaled e + y.scaled e
    if v = 0 then .fin (x.neg? && y.neg?) 0 0 else .fin (decide (v < 0)) v.natAbs e

/-- The exact difference. -/
def Num.sub (a b : Num) : Num := a.add b.negate

/-- `a < b` on ordered numbers; −0 equals +0; false if either is a NaN. -/
def Num.lt (a b : Num) : Bool :=
  match a, b with
  | .nan, _ => false
  | _, .nan => false
  | .inf n, .inf n' => n && !n'
  | .inf n, _ => n
  | _, .inf n => !n
  | x, y => let e := min x.exp? y.exp?; decide (x.scaled e < y.scaled e)

/-- `a = b` as values; −0 equals +0; false if either is a NaN. -/
def Num.eqv (a b : Num) : Bool := !a.isNan && !b.isNan && !a.lt b && !b.lt a

/-- `a ≤ b` as values. -/
def Num.le (a b : Num) : Bool := a.lt b || a.eqv b

/-- The number times 2^k, exactly. -/
def Num.scale2 (x : Num) (k : Int) : Num :=
  match x with
  | .fin n m e => .fin n m (e + k)
  | y => y

/-- The bits of a natural number: 0 for 0. -/
def bitLength (n : Nat) : Nat := if n = 0 then 0 else Nat.log2 n + 1

/-- A floating-point format: fraction width, exponent width, bias, largest finite value maxMan × 2^maxExp, whether the
all-ones exponent is kept for infinities and NaN, and the code of its canonical NaN. -/
structure FFmt where
  frac : Nat
  expw : Nat
  bias : Nat
  maxMan : Nat
  maxExp : Int
  ieee : Bool
  nanCode : Option Nat
  deriving DecidableEq, Repr

/-- FP32 of R68. -/
def fmtFp32 : FFmt := ⟨23, 8, 127, 0xFFFFFF, 104, true, some 0x7FC00000⟩
/-- FP16 of R68. -/
def fmtFp16 : FFmt := ⟨10, 5, 15, 0x7FF, 5, true, some 0x7E00⟩
/-- BF16 of R68. -/
def fmtBf16 : FFmt := ⟨7, 8, 127, 0xFF, 120, true, some 0x7FC0⟩
/-- FP8-E4M3 of R68: no infinities, NaN only at S.1111.111. -/
def fmtE4m3 : FFmt := ⟨3, 4, 7, 14, 5, false, some 0x7F⟩
/-- FP8-E5M2 of R68. -/
def fmtE5m2 : FFmt := ⟨2, 5, 15, 7, 13, true, some 0x7E⟩
/-- FP6-E3M2 of R68: every encoding is finite. -/
def fmtE3m2 : FFmt := ⟨2, 3, 3, 7, 2, false, none⟩
/-- FP4-E2M1 of R68: every encoding is finite. -/
def fmtE2m1 : FFmt := ⟨1, 2, 1, 3, 1, false, none⟩
/-- ACC40 of R68. -/
def fmtAcc40 : FFmt := ⟨31, 8, 127, 0xFFFFFFFF, 96, true, some 0x7FC0000000⟩
/-- X20 of R78. -/
def fmtX20 : FFmt := ⟨11, 8, 127, 0xFFF, 116, true, some 0x7FC00⟩

/-- The exponent of the format's smallest positive value. -/
def FFmt.qmin (f : FFmt) : Int := 1 - (f.bias : Int) - (f.frac : Int)

/-- The bits of one element. -/
def FFmt.width (f : FFmt) : Nat := 1 + f.expw + f.frac

/-- The largest finite value. -/
def FFmt.maxFinite (f : FFmt) : Num := .fin false f.maxMan f.maxExp

/-- The value of a code under R68. -/
def FFmt.decode (f : FFmt) (c : Nat) : Num :=
  let s := nbit c (f.expw + f.frac)
  let e := nfld c f.frac f.expw
  let m := nfld c 0 f.frac
  if f.ieee && e == 2 ^ f.expw - 1 then (if m = 0 then .inf s else .nan)
  else if !f.ieee && f.nanCode == some (nfld c 0 (f.expw + f.frac)) then .nan
  else if e = 0 then .fin s m f.qmin
  else .fin s (m + 2 ^ f.frac) (f.qmin + e - 1)

/-- The code of a value that the format holds exactly (R70 for a NaN). An infinity of a format without infinities is
its largest finite value (R89). -/
def FFmt.encode (f : FFmt) (x : Num) : Nat :=
  match x with
  | .nan => f.nanCode.getD 0
  | .inf n =>
    b01 n * 2 ^ (f.expw + f.frac) +
      (if f.ieee then (2 ^ f.expw - 1) * 2 ^ f.frac
       else (f.maxExp - f.qmin + 1).toNat * 2 ^ f.frac + (f.maxMan - 2 ^ f.frac))
  | .fin n m e =>
    let s := b01 n * 2 ^ (f.expw + f.frac)
    if m = 0 then s
    else
      -- bring the mantissa to frac + 1 bits, or to the smallest exponent
      let q := max f.qmin (e + bitLength m - 1 - f.frac)
      let v := if e ≥ q then m * 2 ^ (e - q).toNat else m / 2 ^ (q - e).toNat
      if v < 2 ^ f.frac then s + v else s + (q - f.qmin + 1).toNat * 2 ^ f.frac + (v - 2 ^ f.frac)

/-- The rounding of a conversion: to nearest with ties to even, or stochastic with a 32-bit random value (R91). -/
inductive Rnd where
  | near
  | stoch (r : Nat)
  deriving DecidableEq, Repr

/-- A magnitude num / 2^sh rounded to an integer: nearest with ties to even, or R91's comparison of the 32 leading bits
of the remainder with the random value. -/
def roundNat (r : Rnd) (num sh : Nat) : Nat :=
  let fl := num / 2 ^ sh
  let rem := num % 2 ^ sh
  if rem = 0 then fl
  else match r with
    | .near => if 2 * rem < 2 ^ sh then fl else if 2 ^ sh < 2 * rem then fl + 1 else fl + fl % 2
    | .stoch v => if v < rem * 2 ^ 32 / 2 ^ sh then fl + 1 else fl

/-- A finite value rounded to an integer (its sign kept apart): the rule of R88 for integer targets. -/
def roundInt (r : Rnd) (x : Num) : Int :=
  match x with
  | .fin n m e =>
    let v := if e ≥ 0 then m * 2 ^ e.toNat else roundNat r m (-e).toNat
    if n then -(v : Int) else v
  | _ => 0

/-- A value rounded to the precision of a format with no bound on its exponent (the rounded magnitude of R89). -/
def FFmt.roundFree (f : FFmt) (r : Rnd) (x : Num) : Num :=
  match x with
  | .fin n m e =>
    if m = 0 then .fin n 0 0
    else
      let q := max f.qmin (e + bitLength m - 1 - f.frac)
      if e ≥ q then .fin n m e else .fin n (roundNat r m (q - e).toNat) q
  | y => y

/-- The conversion overflows under R89: the rounded magnitude exceeds the largest finite value, or the source is
exactly the largest value plus half a unit in the last place. R89 speaks there of a tie and its resolution, which rounding
to nearest alone has; under stochastic rounding such a source overflows exactly where R91 takes it away from zero
(DEDUCED, log 37). -/
def FFmt.overflows (f : FFmt) (r : Rnd) (x : Num) : Bool :=
  match x with
  | .fin _ _ _ =>
    f.maxFinite.lt (f.roundFree r x).abs ||
      (r == .near && x.abs.eqv (.fin false (2 * f.maxMan + 1) (f.maxExp - 1)))
  | _ => false

/-- Rounding to a format in which an overflow gives an infinity (FP32 lane results, ACC40 sums of R86). -/
def FFmt.round (f : FFmt) (r : Rnd) (x : Num) : Num :=
  if f.overflows r x then .inf x.neg? else f.roundFree r x

/-- An FP32 result of lane arithmetic (R190). -/
def round32 (x : Num) : Num := fmtFp32.round .near x

/-- FP32 addition. -/
def add32 (a b : Num) : Num := round32 (a.add b)
/-- FP32 subtraction. -/
def sub32 (a b : Num) : Num := round32 (a.sub b)
/-- FP32 multiplication. -/
def mul32 (a b : Num) : Num := round32 (a.mul b)
/-- FP32 fused multiply-add: a × b + c rounded once. -/
def fma32 (a b c : Num) : Num := round32 ((a.mul b).add c)

/-- The value of FP32 bits. -/
def ofBits32 (b : Nat) : Num := fmtFp32.decode b
/-- The FP32 bits of a value FP32 holds. -/
def toBits32 (x : Num) : Nat := fmtFp32.encode x

/-- MAX of R193: NaN if either is NaN; −0 is below +0. -/
def maxNum (a b : Num) : Num :=
  if a.isNan || b.isNan then .nan
  else if a.lt b then b else if b.lt a then a else if a.neg? then b else a

/-- MIN of R193. -/
def minNum (a b : Num) : Num :=
  if a.isNan || b.isNan then .nan
  else if a.lt b then a else if b.lt a then b else if a.neg? then a else b

/-- One accumulation of R85 and R86: the exact product is added and the sum rounded once to ACC40. -/
def accAdd (acc p : Num) : Num := fmtAcc40.round .near (acc.add p)

/-- num / den of two positive numbers, rounded once to FP32, for the rational constants of the spec (1 / n of R201,
g of R252, 1 / n∞ of R199): the quotient's leading bits with a sticky bit below them decide the rounding. -/
def ratio32 (num den : Nat) : Num :=
  if den = 0 then .nan
  else
    let k := 64 + bitLength den
    let q := num * 2 ^ k / den
    let st := if num * 2 ^ k % den = 0 then 0 else 1
    round32 (.fin false (2 * q + st) (-(k : Int) - 1))

/-! ### The bounded functions of R194

Each exact value is computed to far more bits than FP32 holds, and the result is one of the FP32 values within the
bound: the two neighbours of an inexact value, or, for an exact value that is not an exact case of the table, the value
and the units beside it. Which one is free, but for R194's monotonicity. -/

/-- Square root rounded down, by bits from bit `k` of the root. -/
def isqrtFrom : Nat → Nat → Nat → Nat
  | 0, _, r => r
  | k + 1, n, r => isqrtFrom k n (if (r + 2 ^ k) * (r + 2 ^ k) ≤ n then r + 2 ^ k else r)

/-- Integer square root. -/
def isqrt (n : Nat) : Nat := isqrtFrom (bitLength n / 2 + 1) n 0

/-- Σ of `t`, `t·x/(k·2^p)`, …: the Taylor series of e^x in fixed point with `p` fraction bits. -/
def expTaylor (p x : Nat) : Nat → Nat → Nat → Nat → Nat
  | 0, _, _, acc => acc
  | fuel + 1, k, t, acc => expTaylor p x fuel (k + 1) (t * x / (k * 2 ^ p)) (acc + t)

/-- e^x in fixed point with 320 fraction bits, for x in the same fixed point. -/
def expFix (x : Nat) : Nat := expTaylor 320 x 720 1 (2 ^ 320) 0

/-- Σ of z^(2k+1) / (2k+1) in fixed point with `p` fraction bits. -/
def atanhTaylor (p z2 : Nat) : Nat → Nat → Nat → Nat → Nat
  | 0, _, _, acc => acc
  | fuel + 1, k, t, acc => atanhTaylor p z2 fuel (k + 2) (t * z2 / 2 ^ p) (acc + t / k)

/-- ln m for m = a / b in [1, 2], in fixed point with 256 fraction bits. -/
def lnRatio (a b : Nat) : Nat :=
  let z := (a - b) * 2 ^ 256 / (a + b)
  2 * atanhTaylor 256 (z * z / 2 ^ 256) 200 1 z 0

/-- ln of a positive man × 2^exp, signed, in fixed point with 256 fraction bits. -/
def lnFix (m : Nat) (e : Int) : Int :=
  let l := bitLength m - 1
  (e + l) * (lnRatio 2 1 : Nat) + (lnRatio m (2 ^ l) : Nat)

/-- The FP32 value at or below a positive value, as its mantissa and exponent, and the leading 64 bits of the fraction of
the way to the next one up. -/
def below32 (m : Nat) (e : Int) : Nat × Int × Nat :=
  let q := max fmtFp32.qmin (e + bitLength m - 1 - 23)
  if e ≥ q then (m * 2 ^ (e - q).toNat, q, 0)
  else
    let k := (q - e).toNat
    (m / 2 ^ k, q, m % 2 ^ k * 2 ^ 64 / 2 ^ k)

/-- The threshold between an FP32 value and the next one of greater magnitude: a result that lies at least so many parts
of 2^64 of the way up takes the greater. One threshold for each interval is every function that is monotonic (R194). -/
def threshold32 (f : Nat) (lo : Num) : Nat := Config.ulpPick f (toBits32 lo)

/-- An inexact result of R194: one of the two FP32 values around it, by the free threshold of their interval; above the
largest finite value it is an infinity. -/
def pickAround (f : Nat) (neg : Bool) (m : Nat) (e : Int) : Num :=
  let (v, q, fr) := below32 m e
  let lo : Num := .fin neg v q
  if fmtFp32.maxFinite.le lo.abs then .inf neg
  else if threshold32 f lo ≤ fr then .fin neg (v + 1) q else lo

/-- EXP of R194. -/
def exp32 (x : Num) : Num :=
  match x with
  | .nan => .nan
  | .inf n => if n then .zero else .inf false
  | .fin n m e =>
    if m = 0 then .fin false 1 0
    else if (Num.fin false 160 0).lt x.abs then
      -- beyond ±160 a result is above the largest finite value, or less than one part of 2^64 of the way from 0 to the
      -- smallest subnormal, so that no result of a greater x is below it
      if n then pickAround 0 false 1 (-400) else .inf false
    else
      let a := if e ≥ 0 then m * 2 ^ e.toNat * 2 ^ 320 else m * 2 ^ 320 / 2 ^ (-e).toNat
      let y := expFix a
      if n then pickAround 0 false (2 ^ 720 / y) (-400)
      else pickAround 0 false y (-320)

/-- LOG of R194. -/
def log32 (x : Num) : Num :=
  match x with
  | .nan => .nan
  | .inf n => if n then .nan else .inf false
  | .fin n m e =>
    if m = 0 then .inf true
    else if n then .nan
    else if x.eqv (.fin false 1 0) then .zero
    else
      let l := lnFix m e
      pickAround 1 (decide (l < 0)) l.natAbs (-256)

/-- The mantissa is a power of two. -/
def isPow2 (m : Nat) : Bool := m == 2 ^ (bitLength m - 1)

/-- RECIP of R194. A result above the largest finite value is an infinity (R190). -/
def recip32 (x : Num) : Num :=
  match x with
  | .nan => .nan
  | .inf n => .fin n 0 0
  | .fin n m e =>
    if m = 0 then .inf n
    else if isPow2 m then
      let r : Num := .fin n 1 (-(e + (bitLength m - 1)))
      if fmtFp32.maxFinite.lt r.abs then .inf n
      else if r.abs.lt (.fin false 1 (-126)) then
        -- a subnormal result is no exact case: the value, or the unit beside it that the thresholds around it leave
        let unit : Num := .fin n 1 (-149)
        if threshold32 2 r = 0 then r.add unit
        else if 2 ^ 64 < threshold32 2 (r.sub unit) then r.sub unit else r
      else r
    else pickAround 2 n (2 ^ 200 / m) (-200 - e)

/-- RSQRT of R194. -/
def rsqrt32 (x : Num) : Num :=
  match x with
  | .nan => .nan
  | .inf n => if n then .nan else .zero
  | .fin n m e =>
    if m = 0 then .inf n
    else if n then .nan
    else
      let l := bitLength m - 1
      if isPow2 m && (e + l) % 2 == 0 then .fin false 1 (-((e + l) / 2))
      else
        -- x = a × 4^k; 1 / √x = √(2^400 / a) × 2^(−200 − k)
        let a := if e % 2 = 0 then m else 2 * m
        let k := if e % 2 = 0 then e / 2 else (e - 1) / 2
        pickAround 3 false (isqrt (2 ^ 400 / a)) (-200 - k)

/-- π in fixed point with 192 fraction bits, by Machin's formula 4 (4 atan 1/5 − atan 1/239). -/
def atanInv (p d : Nat) : Nat → Nat → Nat → Bool → Int → Int
  | 0, _, _, _, acc => acc
  | fuel + 1, k, t, neg, acc =>
    atanInv p d fuel (k + 2) (t / (d * d)) (!neg) (acc + (if neg then -((t / k : Nat) : Int) else ((t / k : Nat) : Int)))

/-- π × 2^192. -/
def piFix : Nat :=
  (4 * (4 * atanInv 192 5 100 1 (2 ^ 192 / 5) false 0 - atanInv 192 239 100 1 (2 ^ 192 / 239) false 0)).toNat

/-- Alternating Taylor series of the cosine in fixed point with 192 fraction bits. -/
def cosTaylor (x2 : Nat) : Nat → Nat → Nat → Bool → Int → Int
  | 0, _, _, _, acc => acc
  | fuel + 1, k, t, neg, acc =>
    cosTaylor x2 fuel (k + 2) (t * x2 / 2 ^ 192 / ((k + 1) * (k + 2))) (!neg)
      (acc + (if neg then -(t : Int) else (t : Int)))

/-- PARAM × √(−2 ln u1) × cos(2π u2) with u1 = a × 2^-24 and u2 = b × 2^-24, in fixed point with 192 fraction bits
before PARAM is applied (R248). -/
def normalFix (a b : Nat) : Int :=
  let l := (-(lnFix a (-24))).toNat          -- −ln u1, 256 fraction bits
  let s := isqrt (2 * l * 2 ^ 128)           -- √, 192 fraction bits
  let x := 2 * piFix * b / 2 ^ 24
  let c := cosTaylor (x * x / 2 ^ 192) 80 0 (2 ^ 192) false 0
  (s : Int) * c / (2 ^ 192 : Nat)

/-- A DIST 1 value (R248, R249): within 4 units in the last place of the FP32 value of the exact expression, the choice
free, and never above PARAM × √(48 ln 2), the magnitude of the expression at u1 = 2^-24 and u2 = 0. -/
def normal32 (param : Num) (r1 r2 : Nat) : Num :=
  let v := normalFix (r1 / 256 + 1) (r2 / 256)
  match round32 (param.mul (.fin (decide (v < 0)) v.natAbs (-192))) with
  | .fin n m e =>
    let q := if m = 0 then fmtFp32.qmin else max fmtFp32.qmin (e + bitLength m - 1 - 23)
    let base := if e ≥ q then m * 2 ^ (e - q).toNat else m / 2 ^ (q - e).toNat
    let k := Config.ulpPick 4 ((r1 / 256 * 2 ^ 24 + r2 / 256) * 2 ^ 32 + toBits32 param) % 9
    let w0 : Int := (base : Int) + k - 4
    -- above 2^24 FP32 holds even multiples only: the nearer one below stays within the four units
    let w : Int := if 2 ^ 24 < w0 then w0 - w0 % 2 else w0
    let z := round32 (.fin (if w < 0 then !n else n) w.natAbs q)
    match (param.mul (.fin false (normalFix 1 0).natAbs (-192))).abs with
    | .fin _ mt et =>
      if (Num.fin false mt et).lt z.abs then .fin z.neg? (below32 mt et).1 (below32 mt et).2.1 else z
    | _ => z
  | z => z

end Sys2Proof.Machine
end

