-- ==== Sys2Proof/Machine/Format.lean ====
section
/-! DEFINITION. The format codes of R68, packing (R71, R72), block scales (R74 to R77), pieces and passes (R80 to R83)
and the conversions out (R88 to R92). -/

namespace Sys2Proof.Machine

/-- The formats of R68, in the order of their codes 0x0 to 0xD. -/
inductive Fmt where
  | fp32 | fp16 | bf16 | e4m3 | e5m2 | e3m2 | e2m1 | int16 | int8 | uint8 | int4 | bs8 | bs4 | acc40
  deriving DecidableEq, Repr

/-- The format of a code; 0xE and 0xF are reserved. -/
def Fmt.ofCode : Nat → Option Fmt
  | 0 => some .fp32 | 1 => some .fp16 | 2 => some .bf16 | 3 => some .e4m3 | 4 => some .e5m2 | 5 => some .e3m2
  | 6 => some .e2m1 | 7 => some .int16 | 8 => some .int8 | 9 => some .uint8 | 10 => some .int4 | 11 => some .bs8
  | 12 => some .bs4 | 13 => some .acc40 | _ => none

/-- Bits per element; ACC40 is stored in 64 (R73). -/
def Fmt.bits : Fmt → Nat
  | .fp32 => 32 | .fp16 => 16 | .bf16 => 16 | .e4m3 => 8 | .e5m2 => 8 | .e3m2 => 6 | .e2m1 => 4 | .int16 => 16
  | .int8 => 8 | .uint8 => 8 | .int4 => 4 | .bs8 => 8 | .bs4 => 4 | .acc40 => 64

/-- The floating-point layout of a format, if it has one. -/
def Fmt.float : Fmt → Option FFmt
  | .fp32 => some fmtFp32 | .fp16 => some fmtFp16 | .bf16 => some fmtBf16 | .e4m3 => some fmtE4m3
  | .e5m2 => some fmtE5m2 | .e3m2 => some fmtE3m2 | .e2m1 => some fmtE2m1 | .acc40 => some fmtAcc40
  | .int16 => none | .int8 => none | .uint8 => none | .int4 => none | .bs8 => none | .bs4 => none

/-- The range of an integer format. -/
def Fmt.intRange : Fmt → Option (Int × Int)
  | .int16 => some (-32768, 32767) | .int8 => some (-128, 127) | .uint8 => some (0, 255) | .int4 => some (-8, 7)
  | .fp32 => none | .fp16 => none | .bf16 => none | .e4m3 => none | .e5m2 => none | .e3m2 => none | .e2m1 => none
  | .bs8 => none | .bs4 => none | .acc40 => none

/-- The format carries a block scale. -/
def Fmt.isBlock : Fmt → Bool
  | .bs8 => true | .bs4 => true
  | .fp32 => false | .fp16 => false | .bf16 => false | .e4m3 => false | .e5m2 => false | .e3m2 => false
  | .e2m1 => false | .int16 => false | .int8 => false | .uint8 => false | .int4 => false | .acc40 => false

/-- Whole bytes per element, 0 for a sub-byte format. -/
def Fmt.bytes (f : Fmt) : Nat := f.bits / 8

/-- The packing group in bytes (R72): 3 for FP6-E3M2, 1 for the 4-bit formats, the element otherwise. -/
def Fmt.group (f : Fmt) : Nat :=
  match f with
  | .e3m2 => 3
  | _ => if f.bits < 8 then 1 else f.bits / 8

/-- Bytes that `n` contiguous elements occupy, padded to a packing group (R72). -/
def Fmt.rowBytes (f : Fmt) (n : Nat) : Nat := cdiv (n * f.bits) (8 * f.group) * f.group

/-- Bytes of one block of 32 elements (R75). -/
def Fmt.blockBytes (f : Fmt) : Nat := 32 * f.bits / 8

/-- Bytes that a written row of `n` elements occupies with its padding: whole packing groups, or whole blocks (R72, R75). -/
def Fmt.padBytes (f : Fmt) (n : Nat) : Nat := if f.isBlock then cdiv n 32 * f.blockBytes else f.rowBytes n

/-- The largest valid scale byte (R76). -/
def Fmt.maxScale : Fmt → Nat
  | .bs4 => 0xFC
  | _ => 0xF7

/-- A scale byte that R76 calls invalid: it expands its block as NaN and counts a format exception. -/
def Fmt.badScale (f : Fmt) (s : Nat) : Bool := f.isBlock && decide (f.maxScale < s) && decide (s ≠ 0xFF)

/-- The exact value of an element's code; `s` is the block's scale byte (R68, R74, R76, R79). -/
def Fmt.value (f : Fmt) (c s : Nat) : Num :=
  match f with
  | .int16 => .ofInt (sext 16 c)
  | .int8 => .ofInt (sext 8 c)
  | .uint8 => .ofInt (c % 256 : Nat)
  | .int4 => .ofInt (sext 4 c)
  | .bs8 => if f.maxScale < s then .nan else (Num.ofInt (sext 8 c)).scale2 ((s : Int) - 127)
  | .bs4 => if f.maxScale < s then .nan else (fmtE2m1.decode c).scale2 ((s : Int) - 127)
  | .fp32 => fmtFp32.decode c
  | .fp16 => fmtFp16.decode c
  | .bf16 => fmtBf16.decode c
  | .e4m3 => fmtE4m3.decode c
  | .e5m2 => fmtE5m2.decode c
  | .e3m2 => fmtE3m2.decode c
  | .e2m1 => fmtE2m1.decode c
  | .acc40 => fmtAcc40.decode c

/-- The result of a conversion: the code, whether it saturated and whether it mapped a NaN to a number (R89, R90). -/
structure Conv where
  code : Nat
  sat : Bool
  nanMapped : Bool
  deriving DecidableEq, Repr

/-- Conversion to an integer range (R88, R89); the code is two's complement in `bits`. -/
def convertInt (bits : Nat) (lo hi : Int) (r : Rnd) (x : Num) : Conv :=
  match x with
  | .nan => ⟨0, false, true⟩
  | .inf n => ⟨trunc bits (if n then lo else hi), true, false⟩
  | .fin n m e =>
    let v := roundInt r (.fin n m e)
    if v < lo then ⟨trunc bits lo, true, false⟩
    else if hi < v then ⟨trunc bits hi, true, false⟩
    else ⟨trunc bits v, false, false⟩

/-- Conversion to a floating-point format (R88, R89). -/
def convertFloat (f : FFmt) (satf : Bool) (r : Rnd) (x : Num) : Conv :=
  match x with
  | .nan => ⟨f.nanCode.getD 0, false, f.nanCode.isNone⟩
  | .inf n => ⟨f.encode (.inf n), !f.ieee, false⟩
  | .fin n m e =>
    if f.overflows r (.fin n m e) then
      ⟨f.encode (if f.ieee && !satf then .inf n else .fin n f.maxMan f.maxExp), true, false⟩
    else ⟨f.encode (f.roundFree r (.fin n m e)), false, false⟩

/-- Conversion of one value to a format without a block scale, or to ACC40 (R73). -/
def convert (f : Fmt) (satf : Bool) (r : Rnd) (x : Num) : Conv :=
  match f.intRange, f.float with
  | some (lo, hi), _ => convertInt f.bits lo hi r x
  | none, some g => convertFloat g satf r x
  | none, none => ⟨0, false, false⟩

/-- The largest finite magnitude of a list of values. -/
def maxMagnitude (l : List Num) : Num :=
  l.foldl (fun m x => match x with
    | .fin _ a e => if m.lt (.fin false a e) then .fin false a e else m
    | _ => m) .zero

/-- The scale byte of a block (R77). -/
def blockScale (f : Fmt) (l : List Num) : Nat :=
  if l.any Num.isNan then 0xFF
  else if l.any Num.isInf then f.maxScale
  else
    let a := maxMagnitude l
    if a.isZero then 0
    else
      let top : Nat := match f with | .bs4 => 6 | _ => 127
      ((List.range (f.maxScale + 1)).find? (fun (s : Nat) => a.le (.fin false top ((s : Int) - 127)))).getD f.maxScale

/-- One element of a block under scale byte `s` (R77, R89): INT8 clamped to ±127, or FP4-E2M1 clamped to ±6. R77 gives a
NaN block its scale byte and no element codes: there a NaN element is stored as 0, and every other element is converted, and
its saturation counted, as under scale 2^128 (DESIGN CHOICE, log 165). -/
def convertBlock (f : Fmt) (s : Nat) (r : Rnd) (x : Num) : Conv :=
  let y := x.scale2 (127 - (s : Int))
  match f with
  | .bs4 => { convertFloat fmtE2m1 true r y with nanMapped := false }
  | _ => { convertInt 8 (-127) 127 r y with nanMapped := false }

/-- An operand splits into two pieces (R80, R81). -/
def Fmt.pieceCount : Fmt → Nat
  | .fp32 => 2 | .int16 => 2
  | .fp16 => 1 | .bf16 => 1 | .e4m3 => 1 | .e5m2 => 1 | .e3m2 => 1 | .e2m1 => 1 | .int8 => 1 | .uint8 => 1
  | .int4 => 1 | .bs8 => 1 | .bs4 => 1 | .acc40 => 1

/-- Piece `i` (0 high, 1 low) of an operand's code; the whole value for a single-piece format (R80, R81). -/
def Fmt.piece (f : Fmt) (c s i : Nat) : Num :=
  match f with
  | .int16 =>
    if i = 0 then .ofInt (256 * (sext 16 c / 256)) else .ofInt (c % 256 : Nat)
  | .fp32 =>
    match fmtFp32.decode c with
    | .fin n m e => if i = 0 then .fin n (m / 4096 * 4096) e else .fin n (m % 4096) e
    | y => y
  | g => g.value c s

/-- The piece pairs of the passes, in order (R82). -/
def passes (fa fb : Fmt) : List (Nat × Nat) :=
  match fa.pieceCount, fb.pieceCount with
  | 1, 1 => [(0, 0)]
  | 1, _ => [(0, 0), (0, 1)]
  | _, 1 => [(0, 0), (1, 0)]
  | _, _ => if fa == .fp32 && fb == .fp32 then [(0, 0), (0, 1), (1, 0)] else [(0, 0), (0, 1), (1, 0), (1, 1)]

/-- One stored operand of a product: its format, code and scale byte. -/
structure Operand where
  fmt : Fmt
  code : Nat
  scale : Nat
  deriving DecidableEq, Repr

/-- The exact value of a stored operand. -/
def Operand.value (o : Operand) : Num := o.fmt.value o.code o.scale

/-- The operand that a cell computes on when nothing is read: +0 (R95). -/
def Operand.zero : Operand := ⟨.int8, 0, 0⟩

/-- What the product of two operands contributes in the pass of piece pair `ij`; `first` marks the first pass (R83,
R85). -/
def contribution (a b : Operand) (ij : Nat × Nat) (first : Bool) : Num :=
  let whole := a.value.mul b.value
  match whole with
  | .fin _ _ _ => (a.fmt.piece a.code a.scale ij.1).mul (b.fmt.piece b.code b.scale ij.2)
  | special => if first then special else .zero

/-- The key of R221 that orders an element's code like its value. -/
def Fmt.key (f : Fmt) (c : Nat) : Nat :=
  let h := 2 ^ (f.bits - 1)
  match f with
  | .uint8 => c
  | .int8 => if c < h then c + h else c - h
  | .int16 => if c < h then c + h else c - h
  | _ => if c < h then c + h else 2 ^ f.bits - 1 - c

/-- The inverse of R221. -/
def Fmt.unkey (f : Fmt) (k : Nat) : Nat :=
  let h := 2 ^ (f.bits - 1)
  match f with
  | .uint8 => k
  | .int8 => if k < h then k + h else k - h
  | .int16 => if k < h then k + h else k - h
  | _ => if k < h then 2 ^ f.bits - 1 - k else k - h

/-- The residual bits of an FRT mode for a format, if the mode is listed for it (R220). -/
def frtResidual (mode : Nat) (f : Fmt) : Option Nat :=
  match mode, f with
  | 1, .fp16 => some 7 | 1, .bf16 => some 7 | 1, .int16 => some 7
  | 1, .int8 => some 3 | 1, .uint8 => some 3 | 1, .e4m3 => some 3 | 1, .e5m2 => some 3
  | 2, .fp16 => some 3 | 2, .bf16 => some 3 | 2, .int16 => some 3
  | _, _ => none

/-- The tile size in bytes of an FRT mode (R220): a 64-bit header and 64 residuals. -/
def frtTileBytes (r : Nat) : Nat := 8 + 8 * r

/-- The header fields of an encoded tile and its residuals (R222, R223). -/
structure FrtTile where
  base : Nat
  shift : Nat
  nant : Bool
  res : List Nat
  deriving DecidableEq, Repr

/-- R223: the encoding of the 64 elements of a tile; an excluded position is `none`. -/
def frtEncode (f : Fmt) (r : Nat) (l : List (Option Nat)) : FrtTile :=
  let present := l.filterMap id
  if present.any (fun c => (f.value c 0).isNan) then ⟨0, 0, true, l.map (fun _ => 0)⟩
  else
    let keys := present.map f.key
    let lo := keys.foldl min (keys.headD 0)
    let hi := keys.foldl max 0
    let s := bitLength (hi - lo) - r
    ⟨lo, s, false, l.map (fun o => match o with | some c => (f.key c - lo) / 2 ^ s | none => 0)⟩

/-- R223: the code of element `e` after expansion; a tile that held a NaN gives the canonical NaN of R70. A stored header
with NANT = 1 in an integer format, which no encoding makes and for which R70 has no NaN, expands to code 0 (DESIGN CHOICE,
log 166). -/
def frtExpand (f : Fmt) (t : FrtTile) (e : Nat) : Nat :=
  if t.nant then (match f.float with | some g => g.nanCode.getD 0 | none => 0)
  else f.unkey (t.base + t.res.getD e 0 * 2 ^ t.shift)

/-- The bytes of an encoded tile (R222): the header, then the residuals of R bits packed from the least significant
end. -/
def frtBytes (r : Nat) (t : FrtTile) : List Byte :=
  let hdr := t.base + t.shift * 2 ^ 16 + b01 t.nant * 2 ^ 20
  let body := t.res.foldr (fun v acc => v + acc * 2 ^ r) 0
  leBytes 8 hdr ++ leBytes (8 * r) body

/-- The tile that bytes hold. -/
def frtOfBytes (r : Nat) (l : List Byte) : FrtTile :=
  let h := natAt l 0 8
  let body := natAt l 8 (8 * r)
  ⟨nfld h 0 16, nfld h 16 4, nbit h 20, (List.range 64).map (fun e => body / 2 ^ (r * e) % 2 ^ r)⟩

/-- The residual-free low word of a tile header, for tests against the worked example of R225. -/
def frtHeaderLow (t : FrtTile) : Nat := t.base + t.shift * 2 ^ 16 + b01 t.nant * 2 ^ 20

end Sys2Proof.Machine
end

