-- ==== Sys2Proof/Machine/Objects.lean ====
section
/-! DEFINITION. The object dictionary's tables: every index and sub-index with its type, access and default, row by row
from the object tables of the chapters. An object is named by its key, index × 256 + sub-index, so 0x4000:06 is 0x400006;
an object that exists once per master (R484) carries the master's number above bit 24. -/

namespace Sys2Proof.Machine

/-- The types of R482. -/
inductive ObjTy where
  | bool | u8 | u16 | u32 | u64 | i8 | i16 | i32 | f32 | domain | string
  deriving DecidableEq, Repr

/-- The access codes of R482. -/
inductive ObjAcc where
  | ro | rw | rws | wo | const
  deriving DecidableEq, Repr

/-- Bytes of a value of a fixed-size type; 0 for DOMAIN and STRING. -/
def ObjTy.size : ObjTy → Nat
  | .bool => 1 | .u8 => 1 | .i8 => 1 | .u16 => 2 | .i16 => 2 | .u32 => 4 | .i32 => 4 | .f32 => 4 | .u64 => 8
  | .domain => 0 | .string => 0

/-- One row: first index, number of indexes, sub-index, type, access, default. -/
structure ObjRow where
  base : Nat
  cnt : Nat
  sub : Nat
  ty : ObjTy
  acc : ObjAcc
  dflt : Nat
  deriving DecidableEq, Repr

/-- Rows of the object tables, part 0. -/
def objRows0 : List ObjRow := [
  ⟨0x1018, 1, 0x01, .u32, .const, 0x49444d53⟩,
  ⟨0x1018, 1, 0x02, .u32, .const, 0x2460⟩,
  ⟨0x1018, 1, 0x03, .u16, .const, 0⟩,
  ⟨0x1018, 1, 0x04, .u64, .const, 0⟩,
  ⟨0x1018, 1, 0x05, .string, .const, 0⟩,
  ⟨0x1018, 1, 0x06, .u8, .ro, 255⟩,
  ⟨0x1080, 1, 0x01, .domain, .const, 0⟩,
  ⟨0x1081, 1, 0x01, .domain, .rw, 0⟩,
  ⟨0x1082, 1, 0x01, .domain, .ro, 0⟩,
  ⟨0x1083, 1, 0x01, .u16, .const, 1⟩,
  ⟨0x1083, 1, 0x02, .u16, .const, 0⟩,
  ⟨0x1083, 1, 0x03, .u16, .rw, 0⟩,
  ⟨0x1083, 1, 0x04, .u8, .ro, 0⟩,
  ⟨0x1F00, 1, 0x01, .u8, .ro, 0⟩,
  ⟨0x1F00, 1, 0x02, .u8, .wo, 0⟩,
  ⟨0x1F00, 1, 0x03, .bool, .wo, 0⟩,
  ⟨0x1F00, 1, 0x04, .u32, .ro, 0⟩,
  ⟨0x1F00, 1, 0x05, .u64, .ro, 0⟩,
  ⟨0x1F10, 1, 0x01, .u8, .ro, 0⟩,
  ⟨0x1F10, 1, 0x02, .u32, .ro, 0⟩,
  ⟨0x1F10, 1, 0x03, .u64, .ro, 0⟩,
  ⟨0x1F10, 1, 0x04, .u8, .ro, 0⟩,
  ⟨0x1F10, 1, 0x05, .u32, .ro, 0⟩,
  ⟨0x1F20, 1, 0x01, .u8, .rw, 0⟩,
  ⟨0x1F20, 1, 0x02, .u8, .ro, 0⟩,
  ⟨0x1F20, 1, 0x03, .u32, .ro, 0⟩,
  ⟨0x1F20, 1, 0x04, .u8, .ro, 0⟩,
  ⟨0x1F20, 1, 0x05, .bool, .wo, 0⟩,
  ⟨0x1F20, 1, 0x06, .u32, .rw, 0⟩,
  ⟨0x1F20, 1, 0x07, .u32, .ro, 0⟩,
  ⟨0x1F20, 1, 0x08, .u16, .rw, 10⟩,
  ⟨0x1F30, 1, 0x01, .u32, .ro, 0⟩,
  ⟨0x1F30, 1, 0x02, .bool, .wo, 0⟩,
  ⟨0x1F30, 1, 0x03, .u8, .ro, 16⟩,
  ⟨0x1F30, 1, 0x04, .u32, .ro, 0⟩,
  ⟨0x2000, 1, 0x01, .i8, .ro, 0⟩,
  ⟨0x2000, 1, 0x02, .i8, .ro, 0⟩,
  ⟨0x2000, 1, 0x03, .i8, .ro, 0⟩,
  ⟨0x2000, 1, 0x04, .i8, .ro, 128⟩,
  ⟨0x2000, 1, 0x05, .i8, .rw, 95⟩]

/-- Rows of the object tables, part 1. -/
def objRows1 : List ObjRow := [
  ⟨0x2000, 1, 0x06, .u32, .ro, 0⟩,
  ⟨0x2000, 1, 0x07, .u32, .ro, 0⟩,
  ⟨0x2000, 1, 0x08, .u8, .ro, 0⟩,
  ⟨0x2000, 1, 0x09, .u32, .ro, 0⟩,
  ⟨0x2010, 9, 0x01, .u16, .ro, 0⟩,
  ⟨0x2010, 9, 0x02, .u16, .ro, 0⟩,
  ⟨0x2010, 9, 0x03, .u16, .const, 0⟩,
  ⟨0x2010, 9, 0x04, .u16, .const, 0⟩,
  ⟨0x2010, 9, 0x05, .u32, .ro, 0⟩,
  ⟨0x2010, 9, 0x06, .bool, .ro, 1⟩,
  ⟨0x2020, 1, 0x01, .u16, .ro, 0⟩,
  ⟨0x2020, 1, 0x02, .u32, .ro, 0⟩,
  ⟨0x2020, 1, 0x03, .bool, .ro, 1⟩,
  ⟨0x2020, 1, 0x04, .bool, .ro, 1⟩,
  ⟨0x2020, 1, 0x05, .u32, .ro, 0⟩,
  ⟨0x2100, 4, 0x01, .u8, .rws, 0⟩,
  ⟨0x2100, 4, 0x02, .u16, .rws, 0x3e8⟩,
  ⟨0x2100, 4, 0x03, .u8, .ro, 0⟩,
  ⟨0x2100, 4, 0x04, .u8, .ro, 0⟩,
  ⟨0x2100, 4, 0x05, .u32, .ro, 0⟩,
  ⟨0x3000, 64, 0x01, .u8, .rws, 0⟩,
  ⟨0x3000, 64, 0x02, .u8, .rws, 0⟩,
  ⟨0x3000, 64, 0x03, .u32, .rws, 0⟩,
  ⟨0x3000, 64, 0x04, .u32, .rws, 0⟩,
  ⟨0x3000, 64, 0x05, .u8, .rws, 0⟩,
  ⟨0x3000, 64, 0x06, .u8, .rws, 16⟩,
  ⟨0x3000, 64, 0x07, .u32, .rws, 0x30d40⟩,
  ⟨0x3000, 64, 0x08, .u64, .rws, 0⟩,
  ⟨0x3000, 64, 0x09, .u32, .rws, 0⟩,
  ⟨0x3000, 64, 0x0A, .u8, .wo, 0⟩,
  ⟨0x3000, 64, 0x0B, .u8, .ro, 0⟩,
  ⟨0x3000, 64, 0x0C, .u16, .ro, 0⟩,
  ⟨0x3000, 64, 0x0D, .u32, .ro, 0⟩,
  ⟨0x3000, 64, 0x0E, .u32, .ro, 0⟩,
  ⟨0x3000, 64, 0x0F, .u32, .ro, 0⟩,
  ⟨0x3000, 64, 0x10, .domain, .rws, 0⟩,
  ⟨0x3000, 64, 0x11, .u64, .ro, 0⟩,
  ⟨0x3000, 64, 0x12, .u64, .ro, 0⟩,
  ⟨0x3000, 64, 0x13, .u8, .ro, 0⟩,
  ⟨0x3000, 64, 0x14, .u32, .rws, 0⟩]

/-- Rows of the object tables, part 2. -/
def objRows2 : List ObjRow := [
  ⟨0x3000, 64, 0x15, .u8, .rw, 255⟩,
  ⟨0x3040, 32, 0x01, .u8, .rws, 0⟩,
  ⟨0x3040, 32, 0x02, .domain, .wo, 0⟩,
  ⟨0x3040, 32, 0x03, .u8, .ro, 0⟩,
  ⟨0x3040, 32, 0x04, .u16, .ro, 0⟩,
  ⟨0x3040, 32, 0x05, .u32, .ro, 0⟩,
  ⟨0x3040, 32, 0x06, .domain, .ro, 0⟩,
  ⟨0x3040, 32, 0x07, .bool, .rws, 0⟩,
  ⟨0x3040, 32, 0x08, .bool, .ro, 0⟩,
  ⟨0x3040, 32, 0x09, .u8, .wo, 0⟩,
  ⟨0x3040, 32, 0x0A, .u8, .ro, 0⟩,
  ⟨0x3040, 32, 0x0B, .u32, .ro, 0⟩,
  ⟨0x3040, 32, 0x0C, .u64, .ro, 0⟩,
  ⟨0x3060, 64, 0x01, .bool, .rws, 0⟩,
  ⟨0x3060, 64, 0x02, .u32, .rws, 0⟩,
  ⟨0x3060, 64, 0x03, .u64, .ro, 0⟩,
  ⟨0x3060, 64, 0x04, .u32, .rws, 0⟩,
  ⟨0x3060, 64, 0x05, .u32, .rws, 64⟩,
  ⟨0x3060, 64, 0x06, .u16, .rws, 32⟩,
  ⟨0x3060, 64, 0x07, .domain, .wo, 0⟩,
  ⟨0x3060, 64, 0x08, .bool, .wo, 0⟩,
  ⟨0x3060, 64, 0x09, .u64, .ro, 0⟩,
  ⟨0x3060, 64, 0x0A, .u32, .ro, 0⟩,
  ⟨0x3060, 64, 0x0B, .u8, .rws, 255⟩,
  ⟨0x3060, 64, 0x0C, .domain, .rws, 0⟩,
  ⟨0x3060, 64, 0x0D, .u8, .wo, 0⟩,
  ⟨0x3060, 64, 0x0E, .u8, .ro, 0⟩,
  ⟨0x3060, 64, 0x0F, .u32, .ro, 0⟩,
  ⟨0x3060, 64, 0x10, .u32, .ro, 0⟩,
  ⟨0x3100, 4, 0x01, .u8, .rws, 16⟩,
  ⟨0x3100, 4, 0x02, .u8, .rws, 15⟩,
  ⟨0x3100, 4, 0x03, .bool, .rws, 0⟩,
  ⟨0x3100, 4, 0x04, .u32, .rws, 0x2000⟩,
  ⟨0x3100, 4, 0x05, .u8, .ro, 0⟩,
  ⟨0x4000, 1, 0x01, .bool, .rw, 0⟩,
  ⟨0x4000, 1, 0x02, .u32, .rws, 0x7a12⟩,
  ⟨0x4000, 1, 0x03, .u32, .rws, 0x1f40⟩,
  ⟨0x4000, 1, 0x04, .u32, .rws, 0⟩,
  ⟨0x4000, 1, 0x05, .u8, .rws, 8⟩,
  ⟨0x4000, 1, 0x06, .u8, .ro, 0⟩]

/-- Rows of the object tables, part 3. -/
def objRows3 : List ObjRow := [
  ⟨0x4000, 1, 0x07, .u32, .ro, 0⟩,
  ⟨0x4000, 1, 0x08, .u8, .ro, 0⟩,
  ⟨0x4000, 1, 0x09, .i32, .ro, 0⟩,
  ⟨0x4000, 1, 0x0A, .u32, .ro, 0⟩,
  ⟨0x4000, 1, 0x0B, .u32, .ro, 0⟩,
  ⟨0x4008, 8, 0x01, .u32, .rws, 0⟩,
  ⟨0x4008, 8, 0x02, .u16, .rws, 64⟩,
  ⟨0x4008, 8, 0x03, .u32, .rws, 0⟩,
  ⟨0x4008, 8, 0x04, .u16, .rws, 64⟩,
  ⟨0x4008, 8, 0x05, .u16, .rws, 0xffff⟩,
  ⟨0x4008, 8, 0x06, .u16, .rws, 0xffff⟩,
  ⟨0x4008, 8, 0x07, .u16, .rws, 0xffff⟩,
  ⟨0x4008, 8, 0x08, .u16, .rws, 0xffff⟩,
  ⟨0x4008, 8, 0x09, .u8, .ro, 0⟩,
  ⟨0x4008, 8, 0x0A, .u32, .ro, 0⟩,
  ⟨0x4008, 8, 0x0B, .u32, .ro, 0⟩,
  ⟨0x4010, 32, 0x01, .bool, .rws, 0⟩,
  ⟨0x4010, 32, 0x02, .u8, .rws, 0⟩,
  ⟨0x4010, 32, 0x03, .u8, .rws, 1⟩,
  ⟨0x4010, 32, 0x04, .u8, .rws, 0⟩,
  ⟨0x4010, 32, 0x05, .u8, .rws, 0⟩,
  ⟨0x4010, 32, 0x06, .u16, .rws, 16⟩,
  ⟨0x4010, 32, 0x07, .u16, .rws, 8⟩,
  ⟨0x4010, 32, 0x08, .u8, .rws, 0⟩,
  ⟨0x4010, 32, 0x09, .u64, .ro, 0⟩,
  ⟨0x4010, 32, 0x0A, .u32, .ro, 0⟩,
  ⟨0x4010, 32, 0x0B, .u32, .ro, 0⟩,
  ⟨0x4010, 32, 0x0C, .u32, .ro, 0⟩,
  ⟨0x5000, 1, 0x01, .u64, .ro, 0⟩,
  ⟨0x5000, 1, 0x02, .u8, .ro, 0⟩,
  ⟨0x5000, 1, 0x03, .i32, .ro, 0⟩,
  ⟨0x5000, 1, 0x04, .u64, .ro, 0⟩,
  ⟨0x5000, 1, 0x05, .u32, .ro, 0⟩,
  ⟨0x5010, 64, 0x01, .bool, .rws, 0⟩,
  ⟨0x5010, 64, 0x02, .u8, .rws, 0⟩,
  ⟨0x5010, 64, 0x03, .u8, .rws, 0⟩,
  ⟨0x5010, 64, 0x04, .u8, .rws, 7⟩,
  ⟨0x5010, 64, 0x05, .u8, .rws, 0⟩,
  ⟨0x5010, 64, 0x06, .u32, .rws, 0⟩,
  ⟨0x5010, 64, 0x07, .u8, .rws, 1⟩]

/-- Rows of the object tables, part 4. -/
def objRows4 : List ObjRow := [
  ⟨0x5010, 64, 0x08, .u32, .rws, 0⟩,
  ⟨0x5010, 64, 0x09, .u32, .rws, 0⟩,
  ⟨0x5010, 64, 0x0A, .u64, .ro, 0⟩,
  ⟨0x5010, 64, 0x0B, .u32, .ro, 0⟩,
  ⟨0x5010, 64, 0x0C, .u32, .ro, 0⟩,
  ⟨0x5010, 64, 0x0D, .u64, .ro, 0⟩,
  ⟨0x5100, 64, 0x01, .bool, .rws, 0⟩,
  ⟨0x5100, 64, 0x02, .u8, .rws, 0⟩,
  ⟨0x5100, 64, 0x03, .u8, .rws, 0⟩,
  ⟨0x5100, 64, 0x04, .u16, .rws, 0⟩,
  ⟨0x5100, 64, 0x05, .u8, .rws, 0⟩,
  ⟨0x5100, 64, 0x06, .u8, .rws, 0⟩,
  ⟨0x5100, 64, 0x07, .u32, .rws, 0⟩,
  ⟨0x5100, 64, 0x08, .u32, .rws, 0xf4240⟩,
  ⟨0x5100, 64, 0x09, .u8, .rws, 0⟩,
  ⟨0x5100, 64, 0x0A, .f32, .rws, 0x3f800000⟩,
  ⟨0x5100, 64, 0x0B, .u32, .ro, 0⟩,
  ⟨0x5100, 64, 0x0C, .f32, .ro, 0⟩,
  ⟨0x5140, 4, 0x01, .domain, .rws, 0⟩,
  ⟨0x5200, 4, 0x01, .bool, .rw, 0⟩,
  ⟨0x5200, 4, 0x02, .u8, .rws, 0⟩,
  ⟨0x5200, 4, 0x03, .u8, .rws, 0⟩,
  ⟨0x5200, 4, 0x04, .u8, .rws, 1⟩,
  ⟨0x5200, 4, 0x05, .u8, .rws, 0⟩,
  ⟨0x5200, 4, 0x06, .u32, .rws, 0⟩,
  ⟨0x5200, 4, 0x07, .u16, .rws, 30⟩,
  ⟨0x5200, 4, 0x08, .u64, .rws, 0⟩,
  ⟨0x5200, 4, 0x09, .u64, .rws, 0x4000400040004000⟩,
  ⟨0x5200, 4, 0x0A, .u8, .rws, 0⟩,
  ⟨0x5200, 4, 0x0B, .u8, .rws, 102⟩,
  ⟨0x5200, 4, 0x0C, .domain, .rws, 0⟩,
  ⟨0x5200, 4, 0x0D, .u16, .rws, 0x1000⟩,
  ⟨0x5200, 4, 0x0E, .domain, .rws, 0⟩,
  ⟨0x5200, 4, 0x0F, .domain, .rws, 0⟩,
  ⟨0x5200, 4, 0x10, .domain, .rws, 0⟩,
  ⟨0x5200, 4, 0x11, .u64, .rws, 0⟩,
  ⟨0x5200, 4, 0x12, .u32, .rws, 0⟩,
  ⟨0x5200, 4, 0x13, .u8, .rws, 9⟩,
  ⟨0x5200, 4, 0x14, .f32, .rws, 0x3b7f00ff⟩,
  ⟨0x5200, 4, 0x15, .f32, .rws, 0⟩]

/-- Rows of the object tables, part 5. -/
def objRows5 : List ObjRow := [
  ⟨0x5200, 4, 0x16, .u8, .rws, 0⟩,
  ⟨0x5200, 4, 0x17, .u64, .rws, 0⟩,
  ⟨0x5200, 4, 0x18, .u8, .rws, 3⟩,
  ⟨0x5200, 4, 0x19, .u32, .rws, 0⟩,
  ⟨0x5200, 4, 0x1A, .u32, .rws, 0⟩,
  ⟨0x5200, 4, 0x1B, .u8, .rws, 255⟩,
  ⟨0x5200, 4, 0x1C, .u64, .ro, 0⟩,
  ⟨0x5200, 4, 0x1D, .u32, .ro, 0⟩,
  ⟨0x5200, 4, 0x1E, .u32, .ro, 0⟩,
  ⟨0x5200, 4, 0x1F, .u8, .ro, 0⟩,
  ⟨0x5300, 1, 0x01, .bool, .rw, 0⟩,
  ⟨0x5300, 1, 0x02, .domain, .rws, 0⟩,
  ⟨0x5300, 1, 0x03, .u8, .rws, 0⟩,
  ⟨0x5300, 1, 0x04, .u32, .rws, 0⟩,
  ⟨0x5300, 1, 0x05, .u32, .rws, 0x1000⟩,
  ⟨0x5300, 1, 0x06, .u32, .rws, 0⟩,
  ⟨0x5300, 1, 0x07, .u8, .rws, 255⟩,
  ⟨0x5300, 1, 0x08, .domain, .wo, 0⟩,
  ⟨0x5300, 1, 0x09, .bool, .wo, 0⟩,
  ⟨0x5300, 1, 0x0A, .u8, .rws, 0⟩,
  ⟨0x5300, 1, 0x0B, .u32, .ro, 0x100⟩,
  ⟨0x5300, 1, 0x0C, .u64, .ro, 0⟩,
  ⟨0x5300, 1, 0x0D, .u64, .ro, 0⟩,
  ⟨0x5300, 1, 0x0E, .u32, .ro, 0⟩,
  ⟨0x5500, 64, 0x01, .u64, .rws, 0⟩,
  ⟨0x5500, 64, 0x02, .bool, .rws, 0⟩,
  ⟨0x5500, 64, 0x03, .u64, .ro, 0⟩,
  ⟨0x5540, 64, 0x01, .u8, .rws, 0⟩,
  ⟨0x5540, 64, 0x02, .u64, .ro, 0⟩,
  ⟨0x6000, 1, 0x01, .u8, .ro, 255⟩,
  ⟨0x6000, 1, 0x02, .u32, .ro, 0x2000⟩,
  ⟨0x6000, 1, 0x03, .u16, .ro, 0⟩,
  ⟨0x6000, 1, 0x04, .i8, .ro, 0⟩,
  ⟨0x6000, 1, 0x05, .bool, .rws, 1⟩,
  ⟨0x6000, 1, 0x06, .u8, .rw, 3⟩,
  ⟨0x6010, 8, 0x01, .u8, .ro, 0⟩,
  ⟨0x6010, 8, 0x02, .u32, .ro, 0⟩,
  ⟨0x6010, 8, 0x03, .u32, .ro, 0⟩,
  ⟨0x6010, 8, 0x04, .u32, .ro, 0⟩,
  ⟨0x6010, 8, 0x05, .u32, .ro, 0⟩]

/-- Rows of the object tables, part 6. -/
def objRows6 : List ObjRow := [
  ⟨0x6010, 8, 0x06, .u32, .ro, 0⟩,
  ⟨0x6010, 8, 0x07, .u64, .ro, 0x4444444444444444⟩,
  ⟨0x6010, 8, 0x08, .u32, .ro, 0⟩,
  ⟨0x6080, 1, 0x01, .u16, .rw, 24⟩,
  ⟨0x6080, 1, 0x02, .bool, .rw, 1⟩,
  ⟨0x6080, 1, 0x03, .u64, .ro, 0⟩,
  ⟨0x6080, 1, 0x04, .u32, .ro, 0⟩,
  ⟨0x6100, 64, 0x01, .u64, .rw, 0⟩,
  ⟨0x6100, 64, 0x02, .bool, .rw, 0⟩,
  ⟨0x6100, 64, 0x03, .u8, .ro, 0⟩,
  ⟨0x6100, 64, 0x04, .bool, .ro, 0⟩,
  ⟨0x6100, 64, 0x05, .u32, .ro, 0⟩,
  ⟨0x6200, 64, 0x01, .u64, .rw, 0x1f00000000⟩,
  ⟨0x6200, 64, 0x02, .bool, .rw, 0⟩,
  ⟨0x6200, 64, 0x03, .u64, .ro, 0⟩,
  ⟨0x6200, 64, 0x04, .u32, .ro, 0⟩,
  ⟨0x6200, 64, 0x05, .u32, .ro, 0⟩,
  ⟨0x7000, 1, 0x01, .u16, .rw, 60⟩,
  ⟨0x7000, 1, 0x02, .bool, .rw, 1⟩,
  ⟨0x7000, 1, 0x03, .u16, .rw, 16⟩,
  ⟨0x7000, 1, 0x04, .u16, .rw, 150⟩,
  ⟨0x7000, 1, 0x05, .i8, .ro, 0⟩,
  ⟨0x7000, 1, 0x06, .i8, .ro, 0⟩,
  ⟨0x7000, 1, 0x07, .u16, .ro, 0xfff⟩,
  ⟨0x7000, 1, 0x08, .u8, .rws, 255⟩,
  ⟨0x7010, 12, 0x01, .u8, .ro, 0⟩,
  ⟨0x7010, 12, 0x02, .i16, .ro, 0xf060⟩,
  ⟨0x7010, 12, 0x03, .bool, .rw, 1⟩,
  ⟨0x7010, 12, 0x04, .bool, .wo, 0⟩,
  ⟨0x7010, 12, 0x05, .u8, .ro, 0⟩,
  ⟨0x7010, 12, 0x06, .u32, .ro, 0⟩,
  ⟨0x7010, 12, 0x07, .u32, .ro, 0⟩,
  ⟨0x7010, 12, 0x08, .u8, .ro, 0⟩,
  ⟨0x7010, 12, 0x09, .u16, .ro, 0⟩,
  ⟨0x7010, 12, 0x0A, .u16, .ro, 0⟩,
  ⟨0x7010, 12, 0x0B, .u64, .ro, 0⟩,
  ⟨0x7010, 12, 0x0C, .u8, .ro, 0⟩,
  ⟨0x7010, 12, 0x0D, .u32, .ro, 0⟩,
  ⟨0x7010, 12, 0x0E, .u32, .ro, 0⟩,
  ⟨0x7010, 12, 0x0F, .u64, .ro, 0⟩]

/-- Rows of the object tables, part 7. -/
def objRows7 : List ObjRow := [
  ⟨0x7010, 12, 0x10, .domain, .ro, 0⟩,
  ⟨0x7010, 12, 0x11, .u8, .ro, 0⟩,
  ⟨0x7010, 12, 0x12, .u32, .ro, 0⟩,
  ⟨0x7100, 1, 0x01, .bool, .rws, 0⟩,
  ⟨0x7100, 1, 0x02, .u8, .ro, 0⟩,
  ⟨0x7100, 1, 0x03, .u8, .rws, 3⟩,
  ⟨0x7100, 1, 0x04, .bool, .wo, 0⟩,
  ⟨0x7100, 1, 0x05, .u32, .ro, 0⟩,
  ⟨0x7100, 1, 0x06, .u64, .ro, 0⟩,
  ⟨0x7110, 4, 0x01, .u32, .rws, 0⟩,
  ⟨0x7110, 4, 0x02, .u32, .ro, 0⟩,
  ⟨0x7110, 4, 0x03, .u32, .ro, 0⟩,
  ⟨0x7110, 4, 0x04, .u32, .ro, 0⟩,
  ⟨0x7110, 4, 0x05, .u32, .ro, 0⟩,
  ⟨0x7110, 4, 0x06, .u32, .ro, 0⟩,
  ⟨0x7110, 4, 0x07, .u32, .ro, 0⟩,
  ⟨0x7110, 4, 0x08, .u32, .ro, 0⟩,
  ⟨0x7110, 4, 0x09, .u16, .rw, 100⟩,
  ⟨0x7120, 2, 0x01, .u32, .rws, 0⟩,
  ⟨0x7120, 2, 0x02, .u32, .ro, 0⟩,
  ⟨0x7120, 2, 0x03, .u32, .ro, 0⟩,
  ⟨0x7120, 2, 0x04, .u32, .ro, 0⟩,
  ⟨0x7120, 2, 0x05, .u32, .ro, 0⟩,
  ⟨0x7120, 2, 0x06, .u32, .ro, 0⟩,
  ⟨0x7120, 2, 0x07, .u32, .ro, 0⟩,
  ⟨0x7120, 2, 0x08, .u32, .ro, 0⟩,
  ⟨0x7120, 2, 0x09, .u16, .rw, 100⟩,
  ⟨0x7200, 3, 0x01, .u8, .ro, 0⟩,
  ⟨0x7200, 3, 0x02, .u8, .ro, 255⟩,
  ⟨0x7200, 3, 0x03, .u16, .ro, 0⟩,
  ⟨0x7200, 3, 0x04, .bool, .ro, 0⟩,
  ⟨0x7200, 3, 0x05, .u32, .ro, 0⟩,
  ⟨0x7200, 3, 0x06, .u32, .ro, 0⟩,
  ⟨0x7200, 3, 0x07, .u32, .ro, 0⟩,
  ⟨0x7200, 3, 0x08, .u32, .ro, 0⟩,
  ⟨0x7200, 3, 0x09, .u32, .ro, 0⟩,
  ⟨0x7300, 1, 0x01, .u64, .ro, 0⟩,
  ⟨0x7300, 1, 0x02, .bool, .ro, 0⟩,
  ⟨0x7300, 1, 0x03, .u32, .ro, 0⟩,
  ⟨0x7300, 1, 0x04, .u32, .ro, 0⟩]

/-- Rows of the object tables, part 8. -/
def objRows8 : List ObjRow := [
  ⟨0x7300, 1, 0x05, .u32, .ro, 0⟩,
  ⟨0x7300, 1, 0x06, .u32, .ro, 0⟩,
  ⟨0x8000, 1, 0x01, .u16, .ro, 0⟩,
  ⟨0x8000, 1, 0x02, .u32, .ro, 0⟩,
  ⟨0x8000, 1, 0x03, .u32, .ro, 0⟩,
  ⟨0x8000, 1, 0x04, .u8, .ro, 0⟩,
  ⟨0x8000, 1, 0x05, .u32, .ro, 0⟩,
  ⟨0x8000, 1, 0x06, .u32, .ro, 0⟩,
  ⟨0x8000, 1, 0x07, .u8, .ro, 0⟩,
  ⟨0x8000, 1, 0x08, .u8, .ro, 0⟩,
  ⟨0x8000, 1, 0x09, .domain, .ro, 0⟩,
  ⟨0x8000, 1, 0x0A, .bool, .ro, 0⟩,
  ⟨0x8000, 1, 0x0B, .bool, .wo, 0⟩,
  ⟨0x8000, 1, 0x0C, .u16, .wo, 0⟩,
  ⟨0x8000, 1, 0x0D, .u32, .ro, 0⟩,
  ⟨0x8000, 1, 0x0E, .u64, .ro, 0⟩,
  ⟨0x8001, 1, 0x01, .u16, .ro, 0⟩,
  ⟨0x8001, 1, 0x02, .u64, .ro, 0⟩,
  ⟨0x8001, 1, 0x03, .domain, .ro, 0⟩,
  ⟨0x8001, 1, 0x04, .bool, .wo, 0⟩,
  ⟨0x8002, 1, 0x01, .domain, .ro, 0⟩,
  ⟨0x8002, 1, 0x02, .u64, .ro, 0⟩,
  ⟨0x8002, 1, 0x03, .u32, .ro, 0⟩,
  ⟨0x8002, 1, 0x04, .u8, .ro, 64⟩,
  ⟨0x8010, 1, 0x01, .u64, .ro, 0⟩,
  ⟨0x8010, 1, 0x02, .u64, .ro, 0⟩,
  ⟨0x8010, 1, 0x03, .u32, .ro, 0⟩,
  ⟨0x8010, 1, 0x04, .u64, .ro, 0⟩,
  ⟨0x8010, 1, 0x05, .u64, .ro, 0⟩,
  ⟨0x8010, 1, 0x06, .u16, .ro, 0⟩,
  ⟨0x8011, 1, 0x00, .u32, .ro, 21⟩,
  ⟨0x8011, 1, 0x01, .bool, .wo, 0⟩,
  ⟨0x8200, 24, 0x01, .u8, .ro, 32⟩,
  ⟨0x8200, 24, 0x02, .u8, .ro, 255⟩,
  ⟨0x8200, 24, 0x03, .u8, .ro, 255⟩,
  ⟨0x8200, 24, 0x04, .u64, .ro, 0⟩,
  ⟨0x8200, 24, 0x05, .u32, .ro, 0⟩,
  ⟨0x8200, 24, 0x06, .u32, .ro, 0⟩,
  ⟨0x8200, 24, 0x07, .u8, .ro, 255⟩,
  ⟨0x9000, 1, 0x01, .bool, .rw, 0⟩]

/-- Rows of the object tables, part 9. -/
def objRows9 : List ObjRow := [
  ⟨0x9000, 1, 0x02, .u8, .rw, 0⟩,
  ⟨0x9000, 1, 0x03, .u8, .rw, 0⟩,
  ⟨0x9000, 1, 0x04, .u32, .rw, 0xffffffff⟩,
  ⟨0x9000, 1, 0x05, .u32, .ro, 0⟩,
  ⟨0x9000, 1, 0x06, .u32, .ro, 0⟩,
  ⟨0x9000, 1, 0x07, .u32, .ro, 0⟩,
  ⟨0x9000, 1, 0x08, .u32, .ro, 0⟩,
  ⟨0x9000, 1, 0x09, .u64, .rw, 0⟩,
  ⟨0x9010, 1, 0x01, .domain, .rw, 0⟩,
  ⟨0x9100, 256, 0x01, .u64, .ro, 0⟩,
  ⟨0x9100, 256, 0x02, .u64, .ro, 0⟩,
  ⟨0xA000, 2, 0x01, .u8, .ro, 0⟩,
  ⟨0xA000, 2, 0x02, .u32, .ro, 0xffffffff⟩,
  ⟨0xA000, 2, 0x03, .u16, .ro, 0⟩,
  ⟨0xA000, 2, 0x04, .domain, .ro, 0⟩,
  ⟨0xA000, 2, 0x05, .domain, .wo, 0⟩,
  ⟨0xA000, 2, 0x06, .bool, .wo, 0⟩,
  ⟨0xA010, 1, 0x01, .u8, .ro, 255⟩,
  ⟨0xA010, 1, 0x02, .u32, .ro, 0⟩,
  ⟨0xA010, 1, 0x03, .u16, .ro, 0⟩,
  ⟨0xA010, 1, 0x04, .u16, .ro, 0⟩,
  ⟨0xA010, 1, 0x05, .u16, .ro, 0⟩,
  ⟨0xA010, 1, 0x06, .u8, .ro, 0⟩,
  ⟨0xA010, 1, 0x07, .u8, .wo, 0⟩,
  ⟨0xA010, 1, 0x08, .u8, .ro, 0⟩,
  ⟨0xA010, 1, 0x09, .u32, .ro, 0xffffffff⟩,
  ⟨0xA010, 1, 0x0A, .u32, .ro, 0xffffffff⟩,
  ⟨0xA010, 1, 0x0B, .u8, .ro, 0⟩,
  ⟨0xA010, 1, 0x0C, .u32, .ro, 0⟩,
  ⟨0xB000, 1, 0x01, .u8, .ro, 0⟩,
  ⟨0xB000, 1, 0x02, .u8, .ro, 0⟩,
  ⟨0xB000, 1, 0x03, .u8, .wo, 0⟩,
  ⟨0xB000, 1, 0x04, .bool, .ro, 0⟩,
  ⟨0xB010, 4, 0x01, .u8, .ro, 255⟩,
  ⟨0xB010, 4, 0x02, .domain, .ro, 0⟩,
  ⟨0xB010, 4, 0x03, .domain, .wo, 0⟩,
  ⟨0xB010, 4, 0x04, .bool, .wo, 0⟩,
  ⟨0xB010, 4, 0x05, .u32, .ro, 0⟩,
  ⟨0xB020, 4, 0x01, .u8, .ro, 0⟩,
  ⟨0xB020, 4, 0x02, .u8, .ro, 255⟩]

/-- Rows of the object tables, part 10. -/
def objRows10 : List ObjRow := [
  ⟨0xB020, 4, 0x03, .domain, .wo, 0⟩,
  ⟨0xC000, 1, 0x01, .u8, .rw, 255⟩,
  ⟨0xC000, 1, 0x02, .u8, .rw, 0⟩,
  ⟨0xC000, 1, 0x03, .u8, .rw, 0⟩,
  ⟨0xC000, 1, 0x04, .u32, .rw, 1⟩,
  ⟨0xC000, 1, 0x05, .bool, .wo, 0⟩,
  ⟨0xC000, 1, 0x06, .u32, .ro, 0⟩]

/-- Every object and sub-index of the dictionary (the tables of the chapters). -/
def objRows : List ObjRow := objRows0 ++ objRows1 ++ objRows2 ++ objRows3 ++ objRows4 ++ objRows5 ++ objRows6 ++ objRows7 ++ objRows8 ++ objRows9 ++ objRows10

/-- The row that describes index `i`, sub-index `sub`. -/
def objRow (i sub : Nat) : Option ObjRow :=
  objRows.find? (fun r => decide (r.base ≤ i) && decide (i < r.base + r.cnt) && r.sub == sub)

/-- The row of a key. -/
def objRowOf (k : Nat) : Option ObjRow := objRow (k % 2 ^ 24 / 256) (k % 256)

/-- Operating limits of the nine rails in mV, MIN and MAX (R633), in the order of 0x2010. -/
def railLimits : List (Nat × Nat) := 
  [(620, 830), (620, 830), (713, 788), (713, 788), (1000, 1100), (475, 525), (1710, 1890), (3135, 3465), (1710, 1890)]

/-- The default of an object (R483); the values the spec leaves to the part are Config's. -/
def objDflt (k : Nat) : Nat :=
  if k % 2 ^ 24 = 0x101803 then Config.stepping
  else if k % 2 ^ 24 = 0x101804 then Config.serialNumber
  else if k % 2 ^ 24 = 0x108302 then Config.deviceMinor
  else if 0x201000 ≤ k ∧ k < 0x201900 ∧ k % 256 = 3 then (railLimits.getD (k / 256 - 0x2010) (0, 0)).1
  else if 0x201000 ≤ k ∧ k < 0x201900 ∧ k % 256 = 4 then (railLimits.getD (k / 256 - 0x2010) (0, 0)).2
  else if k % 2 ^ 24 = 0x201002 ∨ k % 2 ^ 24 = 0x201102 then 650 + Config.setpoint (k / 256 % 2) % 151
  else if 0x201202 ≤ k ∧ k < 0x201900 ∧ k % 256 = 2 then [750, 750, 1050, 500, 1800, 3300, 1800].getD (k / 256 - 0x2012) 0
  else match objRowOf k with
    | some r => r.dflt
    | none => 0

end Sys2Proof.Machine
end

