-- ==== Sys2Proof/Machine/State.lean ====
section
/-! DEFINITION. The state of the device: every register, queue, buffer, counter, mode and pin the spec names, and the
commands that wait; its reset; and the reasons a step can stop. -/

namespace Sys2Proof.Machine

/-- Why a step can stop with a fault. -/
inductive Fault where
  /-- Raised by a meaning whose byte-list operand has a length that no packet, record or transfer of its rule can have;
  safe: no such command can reach the device. -/
  | illFormed
  deriving DecidableEq, Repr

/-- Why a step can be refused. -/
inductive Refusal where
  /-- The command of that mnemonic has no meaning yet; raised only by arms of exec; safe. -/
  | notModelled (mnemonic : String)
  deriving DecidableEq, Repr

/-! ### A core -/

/-- A command in an engine queue with its queue position (R127) and the core cycle of its append (R30). -/
structure QEntry where
  pos : Nat
  cmd : Cmd
  since : Nat
  deriving DecidableEq, Repr

/-- A view as an engine latches it at issue (R163, R165): effective bases, format code, space and pitches. -/
structure View where
  base : Nat
  sbase : Nat
  fmt : Nat
  cm : Bool
  stride : Nat
  pitch : Nat
  bufn : Nat
  deriving DecidableEq, Repr

/-- What an engine asks of memory in one cycle: scratchpad granules to read and to write, and cluster-memory granules
(R146, R260). -/
structure Ask where
  rd : List Nat
  wr : List Nat
  cm : List Nat
  deriving DecidableEq, Repr

/-- A command that executes, from issue to retirement, with everything latched at issue (R107, R138, R163, R165, R246,
R278). -/
structure Flight where
  cmd : Cmd
  pos : Nat
  rt : Bool
  issue : Nat
  dur : Nat
  feedEnd : Nat
  ins : List W32
  frees : List W32
  views : List View
  geo : List W32
  sdesc : List W32
  seed : W64
  bank : Nat
  /-- Accumulator bank of the first tile (R103). -/
  accBank : Nat
  /-- Device time of issue, in ns (R287). -/
  t0 : Nat
  /-- A remote window write has sent its packets and waits for their answers (R470). -/
  started : Bool
  /-- Data effect carried out. -/
  done : Bool
  /-- Status met while it runs (R168); 0 OK. -/
  status : Nat
  /-- Outputs are pushed INVALID (R170, R273). -/
  bad : Bool
  /-- The predicate bit a REDUCE writes at retirement (R183). -/
  pbit : Option Bool
  /-- Submitted through RSTCMD (R555). -/
  rstcmd : Bool
  /-- The cycles of the ramp it began with (R123), and those lost to bank conflicts (R99, R146), which `dur` and `feedEnd`
  include. -/
  ramp : Nat
  stall : Nat
  deriving DecidableEq, Repr

/-- One engine: its queue and QSTAT counts (R127, R128), its real-time slot state (R140 to R143), the slot start of its
best-effort group (R142), the requests that lost their bank in the last cycle
arbitrated (R146), the commands it has issued and not retired, the contexts held by an expired watchdog (R149),
the cycle of its last issue (R130), and, on SE0 and SE1, RSTCMD (R555). Of the best-effort appends to its queue: the context
whose group is open, the deficit of each context in cycles, and how many commands of its program each context has appended
(R324). -/
structure Engine where
  queue : List QEntry
  appended : Nat
  overflow : Nat
  malformed : Nat
  slotIdx : Nat
  slotMiss : Bool
  slots : Tbl W32
  beStart : Option Nat
  left : Option Ask
  flights : List Flight
  hung : W64
  lastIssue : Option Nat
  rstWords : Tbl W32
  rstPending : Option Cmd
  rstRefused : Bool
  group : Option Nat
  deficits : Tbl Int
  next : Tbl Nat
  deriving DecidableEq, Repr

/-- An engine after reset: every field of QSTAT and every slot entry 0. -/
def Engine.reset : Engine :=
  { queue := [], appended := 0, overflow := 0, malformed := 0, slotIdx := 0, slotMiss := false, slots := [],
    beStart := none, left := none, flights := [], hung := 0, lastIssue := none, rstWords := [], rstPending := none,
    rstRefused := false, group := none, deficits := [], next := [] }

/-- A comparator of a predicate bank (R154). -/
structure Comparator where
  cnt : Nat
  rel : Nat
  limit : W32
  deriving DecidableEq, Repr

/-- A comparator after its bank is cleared: counter C0, relation EQ, limit 0 (R154). -/
def Comparator.reset : Comparator := ⟨0, 0, 0⟩

/-- A predicate bank: eight counters, four comparators and the bits P5 to P8 (R150); the last SETP: its cycle plus one, 0
for none, and the bits it wrote (R152); the cycle plus one of the last write, 0 for none, and the counters, comparators and
bits as they stood at the start of that cycle, which the commands that issue in it read (R131, R151, R154). -/
structure PredBank where
  counters : Tbl W32
  comparators : Tbl Comparator
  p58 : Nat
  setpAt : Nat
  setpMask : Nat
  changedAt : Nat
  was : Tbl W32 × Tbl Comparator × Nat
  deriving DecidableEq, Repr

/-- A cleared predicate bank (R150, R154). -/
def PredBank.reset : PredBank := ⟨[], [], 0, 0, 0, 0, ([], [], 0)⟩

/-- The hold record of a held accumulator bank (R106). -/
structure Hold where
  ctx : Nat
  conv : Bool
  chive : Bool
  m : Nat
  n : Nat
  chBase : Nat
  tile : Nat
  groups : Nat
  bank : Nat
  deriving DecidableEq, Repr

/-- What the next ME command needs of the previous one (R101, R123): its arrangement, whether K was at least 1, its feed
end and its retirement. -/
structure MePrev where
  chive : Bool
  kPos : Bool
  feedEnd : Nat
  retire : Nat
  deriving DecidableEq, Repr

/-- The cheap point a best-effort context last marked on a core: MARK_ID, LIVE, ENGMASK (none before its MARK command has
retired) and the engines whose MARK-flagged command has retired since (R331). -/
structure MarkRec where
  id : Nat
  live : Nat
  mask : Option Nat
  engs : Nat
  deriving DecidableEq, Repr

/-- No cheap point marked. -/
def MarkRec.reset : MarkRec := ⟨0, 0, none, 0⟩

/-- The segment of a best-effort context that is being appended to a core (R330): the budgets of its commands on each
engine, the ENGMASK of its MARK once that is appended, and the engines whose MARK-flagged command has been appended. -/
structure SegRec where
  sums : Tbl Nat
  mask : Option Nat
  engs : Nat
  deriving DecidableEq, Repr

/-- No command of a segment appended. -/
def SegRec.reset : SegRec := ⟨[], none, 0⟩

/-- A converted value of a drain as the statistics of its channel take it, with the cycle of its write: the FP32 bits of its
magnitude (none for a NaN), its saturations, HIGH, and whether its format takes part in adaptation (R184, R236). -/
structure StatNote where
  cycle : Nat
  ch : Nat
  mag : Option Nat
  exc : Nat
  high : Bool
  adapts : Bool
  deriving DecidableEq, Repr

/-- One core: hub unit registers, tables, scale file, accumulators, predicate banks and engines. -/
structure Core where
  views : Tbl W32
  geos : Tbl W32
  sdescs : Tbl W32
  seeds : Tbl W32
  scales : Tbl W32
  stats : Tbl W32
  /-- Updates of drains that a SCALE_UPDATE may still have to keep for its next step (R184), newest first. -/
  statNotes : List StatNote
  scaleBank : Nat
  /-- The cycle of the last write of a scale-file entry, doubled, plus 1 for a LOAD_SCALES, plus 1 (R179, R228). -/
  scaleAt : Tbl Nat
  ctxClass : W64
  ctxEn : W64
  ctxRst : W64
  framePeriod : Nat
  frameActive : Nat
  swapPend : Bool
  rtHold : Tbl W32
  meCfg : W32
  acc : Tbl Nat
  held : Option Hold
  lastBank : Nat
  biasBuf : Tbl W32
  aBuf : List Byte
  mePrev : Option MePrev
  /-- The last feed end or array test atom, from which an idle gap counts (R123); none: the gap is unbounded. -/
  gapFrom : Option Nat
  /-- Intervals of cycles in which dummy fill runs or will run (R122). -/
  fills : List (Nat × Nat)
  /-- The cycle in which the array test atom that runs ends (R120, R158). -/
  atomEnd : Nat
  tableBuf : List Byte
  preds : Tbl PredBank
  engines : Tbl Engine
  /-- Core cycle of the last frame tick, if one has come (R137). -/
  tickAt : Option Nat
  /-- Device time, plus 1, of the start of the frame whose tick has reached the core last (R299); 0: none. -/
  tickFor : Nat
  fenced : Bool
  selfTest : Bool
  clockGated : Bool
  /-- Column of an array test atom that failed and is to be repeated (R120). -/
  atomRepeat : Option Nat
  /-- Columns tested in the present scan, one bit each (R120). -/
  atomMask : Nat
  /-- What a repair that waits for its frame boundary keeps out of use: 0 nothing, 1 a column, so that the ME issues no
  command, 2 the core (R57). -/
  outOfUse : Nat
  marks : Tbl MarkRec
  segs : Tbl SegRec
  /-- Best-effort contexts whose held accumulator bank a real-time command has discarded (R328). -/
  lostHolds : W64
  /-- The whole segments of each best-effort context that have not retired, oldest first, each with whether it exceeds
  SEGMENT_MAX_NS, so that the context's pre-emption latency is unbounded (R330). -/
  segOut : Tbl (List Bool)
  /-- The save that goes on: its context and the live regions that are not in DRAM yet; the first one's STREAM_OUT has been
  appended (R331). -/
  saving : Option (Nat × List Nat)
  /-- The result word of the last self-test run: failing columns, and whether the scratchpad or a buffer failed (R156). Its
  layout is not stated. -/
  testResult : Option (W32 × Bool)
  deriving DecidableEq, Repr

/-- A core after reset (R118, R129, R137, R150, R154, R157, R162, R166, R227, R246, R278, R323, R326, R554: every
register 0 but WIDTH, which ME.CFG shows as 32). CORE.FRAME.PERIOD has no reset value in the spec (log 14). R103 lets the
tiles of the ME alternate between two banks and names none for the first tile after a reset: `lastBank` 1 makes it bank 0
(DESIGN CHOICE, log 179). -/
def Core.reset : Core :=
  { views := [], geos := [], sdescs := [], seeds := [], scales := [], stats := [], statNotes := [], scaleBank := 0, scaleAt := [], ctxClass := 0,
    ctxEn := 0, ctxRst := 0, framePeriod := 0, frameActive := 0, swapPend := false, rtHold := [], meCfg := 0,
    acc := [], held := none, lastBank := 1, biasBuf := [], aBuf := [], mePrev := none, gapFrom := none, fills := [], atomEnd := 0,
    tableBuf := [], preds := [], engines := [], tickAt := none, tickFor := 0, fenced := false, selfTest := false,
    clockGated := false, atomRepeat := none, atomMask := 0, outOfUse := 0, marks := [],
    segs := [], lostHolds := 0, segOut := [], saving := none, testResult := none }

/-! ### Clusters, handle queues, memories -/

/-- One cluster: its clock (R580), tile counters (R337), power state and PLL, and the rotating pointer of its memory's ports
(R286). -/
structure Cluster where
  cyc : Nat
  frac : Nat
  tiles : Tbl W32
  fenced : Bool
  p2 : Bool
  pllLocked : Bool
  portPtr : Nat
  deriving DecidableEq, Repr

/-- A cluster after reset; its PLL has not locked. -/
def Cluster.reset : Cluster := { cyc := 0, frac := 0, tiles := [], fenced := false, p2 := false, pllLocked := false, portPtr := 0 }

/-- A handle in a LOCAL queue: the handle, the cluster cycle from which it satisfies gates (R144), and whether it came by
forwarding, so that its pop sends a credit (R295). -/
structure QHandle where
  h : W32
  vis : Nat
  fwd : Bool
  deriving DecidableEq, Repr

/-- A handle queue of a cluster or of the hub (R290): its two configuration words, contents, the count of HQSTAT.OCC of
a FORWARD queue, VIOL and GENBAD. -/
structure HQueue where
  w0 : W32
  w1 : W32
  items : List QHandle
  occ : Nat
  viol : Nat
  genbad : Nat
  /-- The cycle of the last pop or credit and how many came in it, for the occupancy at the start of a cycle (R292), and the
  place of the last pop in the order of R134. -/
  popCycle : Nat
  popCount : Nat
  popKey : Nat
  /-- The cycle of the last push and the latest place in the order of R292 that pushed in it. -/
  pushCycle : Nat
  pushKey : Nat
  deriving DecidableEq, Repr

/-- A queue after reset: off and empty. -/
def HQueue.reset : HQueue := ⟨0, 0, [], 0, 0, 0, 0, 0, 0, 0, 0⟩

/-- A handle or credit on its way between the ends of a forwarding pair (R295): source unit and queue, target device,
unit and queue, and the handle (for a credit, 0). -/
structure Transit where
  srcUnit : Nat
  srcQ : Nat
  dev : Nat
  unit : Nat
  q : Nat
  h : W32
  deriving DecidableEq, Repr

/-! ### DRAM -/

/-- One DRAM channel: when its next refresh falls due and the refreshes owed (R402, R403), the sequence number and retry
buffer of its command protocol (R400, R405), consecutive failures (R406), self-refresh with its segment mask (R420), last
read and calibration (R421), patrol position and the start of its pass (R422), and the rows remapped to spares (R418). -/
structure Channel where
  refDue : Nat
  owed : Nat
  seq : Nat
  retry : List W32
  failures : Nat
  selfRefresh : Bool
  pasr : Nat
  lastRead : Nat
  zqAt : Nat
  zqTemp : Int
  patrolPos : Nat
  patrolStart : Nat
  remaps : List Nat
  deriving DecidableEq, Repr

/-- A channel after power-on. -/
def Channel.reset : Channel :=
  { refDue := 0, owed := 0, seq := 0, retry := [], failures := 0, selfRefresh := false, pasr := 0xFF, lastRead := 0,
    zqAt := 0, zqTemp := 0, patrolPos := 0, patrolStart := 0, remaps := [] }

/-- A row of the corrected-error table (R417): channel, bank, row, the times of its errors, newest first, and whether one
was uncorrectable. -/
structure CeRow where
  ch : Nat
  bank : Nat
  row : Nat
  times : List Nat
  ue : Bool
  deriving DecidableEq, Repr

/-! ### The loop (R299 to R313) -/

/-- A staged sample: its tag and bytes (R305). -/
structure Staged where
  tag : Nat
  data : List Byte
  deriving DecidableEq, Repr

/-- A stream in the current frame: its state under R307 (0 FRESH, 1 LATE, 2 SUPERSEDED, 3 NOT_DUE) once the frame's
ingress has closed, and the tag of its sample. -/
structure Member where
  state : Nat
  tag : Nat
  deriving DecidableEq, Repr

/-- What a group's frame holds: flags of its ingress handle, the egress handle used, and the transmit store. -/
structure GroupFrame where
  inInvalid : Bool
  lost : Bool
  used : Option W32
  store : List Byte
  deriving DecidableEq, Repr

/-- A group before its first frame. -/
def GroupFrame.reset : GroupFrame := ⟨false, false, none, []⟩

/-- A frame in the availability account (R46 to R48): it counts as service, some stream is inside an outage run, and that
run's downtime has begun to be counted. -/
structure DownRec where
  service : Bool
  inside : Bool
  charged : Bool
  deriving DecidableEq, Repr

/-- The frame timer and the state of the frame. -/
structure Loop where
  /-- Device time of the current frame's start; none while no frame runs. -/
  start : Option Nat
  /-- The correction the frame passes on (R301). -/
  corr : Int
  /-- A tick has been accepted for the frame. -/
  accepted : Bool
  /-- Whether the frame is a flywheel frame has been settled. -/
  settled : Bool
  /-- The error of a tick accepted for the next frame before its prediction. -/
  early : Option Int
  /-- Consecutive frames without an accepted tick. -/
  missed : Nat
  /-- The current frame started without an accepted tick (R302). -/
  flywheel : Bool
  closed : Bool
  sent : Bool
  /-- The frame was started by a lock, so that no prediction of its start existed (R378). -/
  firstFrame : Bool
  staged : Tbl (Option Staged)
  /-- Streams whose sample for the frame whose close comes next is superseded. -/
  superseded : List Nat
  /-- Streams whose aligner channels have been evaluated for the frame whose close comes next. -/
  evaluated : List Nat
  members : Tbl (Option Member)
  groups : Tbl GroupFrame
  /-- Streams whose next result carries RESUMED (R312). -/
  resumed : List Nat
  /-- Groups that return from RECOVERING, with the frame starts seen since their restart (R557). -/
  returning : Tbl (Option Nat)
  /-- LOOP_ENABLE = 0 has been written: the loop stops at the next frame start (R308). -/
  stopping : Bool
  /-- The number of the last frame that sent results, for R303. -/
  lastSent : Option Nat
  /-- Number and start of the last frame before a package reset, while the loop restarts (R313). -/
  resumeFrom : Option (Nat × Nat)
  /-- The pinned models of partition 0 are loaded, so that a tick may start the loop (R308, R50). -/
  modelsReady : Bool
  /-- Arrival of the last accepted tick of this lock (R372). -/
  lastTick : Option Nat
  /-- Consecutive accepted ticks with |rel| below 0.5 × 10^-6 (R373). -/
  goodTicks : Nat
  /-- The standby link delivered a SYNC that R457 counts, for the current frame and, early, for the next. -/
  standbyOk : Bool
  standbyEarly : Bool
  /-- Consecutive frames of R457's trigger. -/
  failMiss : Nat
  /-- A failover trigger has come; and a frame has started since (R457). -/
  switchDue : Bool
  switchNow : Bool
  /-- Drive links that are owed a NOT_READY frame (R456). -/
  notReadyOwed : List Nat
  /-- Sensor lanes that are owed the TIME frame of this frame start (R461). -/
  timeOwed : List Nat
  /-- Consecutive FAULT results of each stream (R47). -/
  faultRuns : Tbl Nat
  /-- The last three frames, newest first, and the length of the present period of downtime in ns (R48). -/
  down : List DownRec
  outageLen : Nat
  /-- Egress instant of the last frame with a non-FAULT result, and whether a package reset has come since while the loop
  ran (R49). -/
  lastGood : Nat
  spansReset : Bool
  /-- Number and start of the last frame, in SYNC_LOST, for a package reset that comes then (R313). -/
  lastStart : Option (Nat × Nat)
  /-- A package reset has come since the loop was enabled, and no frame has started since (R312). -/
  resetSince : Bool
  /-- Service and downtime counted since that instant, in ns. -/
  svcSince : Nat
  downSince : Nat
  /-- Failure class of the outage that is running or comes next (the failure-class table). -/
  cause : Nat
  deriving DecidableEq, Repr

/-- The loop while it is OFF. -/
def Loop.reset : Loop :=
  { start := none, corr := 0, accepted := false, settled := false, early := none, missed := 0, flywheel := false,
    closed := false, sent := false, firstFrame := false, staged := [], superseded := [], evaluated := [], members := [],
    groups := [], resumed := [], returning := [], stopping := false, lastSent := none, resumeFrom := none,
    modelsReady := false, lastTick := none, goodTicks := 0, standbyOk := false, standbyEarly := false, failMiss := 0,
    switchDue := false, switchNow := false, notReadyOwed := [], timeOwed := [], faultRuns := [], down := [],
    outageLen := 0, lastGood := 0, spansReset := false, lastStart := none, resetSince := false, svcSince := 0, downSince := 0, cause := 0 }

/-! ### Sources (R374 to R377) -/

/-- One output of a source in the aligner's history: its time, FP32 value, and when it entered. -/
structure HistItem where
  t : Nat
  v : Nat
  entered : Nat
  deriving DecidableEq, Repr

/-- A source beside its objects: the samples gathered for decimation (times and FP32 values, oldest first) and the last 64
outputs, oldest first. -/
structure Source where
  gather : List (Nat × Nat)
  hist : List HistItem
  deriving DecidableEq, Repr

/-- A source before its first sample. -/
def Source.reset : Source := ⟨[], []⟩

/-- A frame that a link's receiver holds back under fault injection (R513), or receives: lane, sequence number and what the
frame carries. A peer frame without payload carries its type and words 2 and 3. -/
inductive RxFrame where
  | sync (lane seq frame : Nat)
  | samples (lane seq : Nat) (data : List Byte)
  | samplePkt (lane seq : Nat) (data : List Byte) (excess : Bool)
  | linePkt (lane seq : Nat) (data : List Byte) (full : Bool)
  | acyc (lane seq : Nat) (data : List Byte) (env : Env)
  | bulk (lane seq : Nat) (data : List Byte)
  | ack (lane ch next : Nat)
  | peerWrite (lane cls seq w2 w3 : Nat) (data : List Byte)
  | peer (lane typ cls seq w2 w3 : Nat)
  | echo (lane : Nat) (reply : Bool) (turn rtt : Nat)
  deriving DecidableEq, Repr

/-- An armed fault injection (R513, R514): link, kind, direction, count, and the master that armed it. -/
structure Injection where
  link : Nat
  kind : Nat
  dir : Nat
  count : Nat
  master : Nat
  deriving DecidableEq, Repr

/-! ### Masters and dictionary transfers (R484 to R496) -/

/-- An open segmented transfer: a write with the bytes received, or a read with its snapshot; its object, its total, and the
time of its last segment (R488, R489). -/
structure Transfer where
  write : Bool
  key : Nat
  total : Nat
  data : List Byte
  last : Nat
  deriving DecidableEq, Repr

/-- One master: whether its last nonce is still good for an OPEN, the times of recent failures, the end of a lockout, and
the time since which its port is lost, plus 1 (R492, R494). -/
structure Master where
  nonceLive : Bool
  fails : List Nat
  lockedUntil : Nat
  lostAt : Nat
  deriving DecidableEq, Repr

/-- A master after power-up: its port is not lost yet. -/
def Master.reset : Master := ⟨false, [], 0, 0⟩

/-- A source MAC address on the management port, its last 8 responses by SEQ, oldest first, and when it last sent (R479). -/
structure MgmtSource where
  mac : Nat
  resps : List (Nat × List Byte)
  last : Nat
  deriving DecidableEq, Repr

/-! ### The reset ladder (R548 to R565) -/

/-- A request for a reset step to the PMC: step code and target as in RESET_REQUEST, the failure class it belongs to, the
engine (core × 8 + ENG) whose watchdog or slot miss raised it, and whether R550 counts it towards escalation. -/
structure ResetReq where
  code : Nat
  target : Nat
  cause : Nat
  eng : Option Nat
  escalates : Bool
  deriving DecidableEq, Repr

/-- A reset step in progress: its request, the device time of the fence request, whether its drain limit has passed, whether
fence-complete has been signalled, and whether its reset has been done and only the restart is awaited. -/
structure ResetStep where
  req : ResetReq
  begun : Nat
  drained : Bool
  complete : Bool
  done : Bool
  deriving DecidableEq, Repr

/-! ### The control plane -/

/-- How far the device has come since its rails were applied, and what a package reset left to do (R502, R534, R562). -/
structure Boot where
  /-- The control plane serves the full dictionary. -/
  up : Bool
  /-- Boot found no valid slot, or the life-cycle state is BLANK or SCRAPPED. -/
  maint : Bool
  /-- A package reset has begun and the condition of R502 has not ended. -/
  resetOpen : Bool
  /-- LOOP_ENABLE was 1 before the package reset. -/
  loopHeld : Bool
  deriving DecidableEq, Repr

/-- Before power-up. -/
def Boot.reset : Boot := { up := false, maint := false, resetOpen := false, loopHeld := false }

/-! ### Links (R426 to R480) -/

/-- One optical lane beside its objects. -/
structure Lane where
  /-- Device time of the entry into the lane's state. -/
  since : Nat
  /-- Consecutive valid identity records received in this identity phase, and whether the phase has been passed. -/
  good : Nat
  idDone : Bool
  /-- REFUSE of the identity record the lane sends (R432). -/
  cause : Nat
  /-- Device time at which the next identity record is due. -/
  identAt : Nat
  /-- End of an announced swap gap (R439); 0: none. -/
  gapUntil : Nat
  /-- Times of the swap falling due and of the start of its pre-warm, plus 1; 0: not so (R437, R439, R60). -/
  dueAt : Nat
  warmAt : Nat
  warmed : Bool
  /-- The last 60 normalised bias measurements, newest first (R437). -/
  biases : List Nat
  wear : Bool
  marginLow : Bool
  /-- Device time of the lane's last planned swap, plus 1 (R60). -/
  swapAt : Nat
  /-- Device time since which a peer lane has been UP without exceeding that limit. -/
  goodSince : Nat
  /-- End of the random back-off of R615; 0: none. -/
  backoff : Nat
  /-- Round trips of the ECHO frames measured in this training (R468). -/
  echoes : List Nat
  /-- Device time at which the next TIME frame is due (R461). -/
  timeAt : Nat
  deriving DecidableEq, Repr

/-- A lane after reset. -/
def Lane.reset : Lane :=
  { since := 0, good := 0, idDone := false, cause := 0, identAt := 0, gapUntil := 0, dueAt := 0, warmAt := 0,
    warmed := false, biases := [], wear := false, marginLow := false, swapAt := 0, goodSince := 0, backoff := 0,
    echoes := [], timeAt := 0 }

/-- A frame of a reliable channel: its type, words 2 and 3 of a peer frame, payload, the pair or command it belongs to,
its sequence number and the time it was last sent. -/
structure Frame where
  typ : Nat
  w2 : Nat
  w3 : Nat
  data : List Byte
  key : Nat
  seq : Nat
  sentAt : Nat
  deriving DecidableEq, Repr

/-- One reliable channel of a lane, both directions (R454, R473): the next sequence number sent and expected, frames sent
and unacknowledged, frames that wait for room, and consecutive timeouts of the oldest. -/
structure RelChan where
  tx : Nat
  rx : Nat
  unacked : List Frame
  waiting : List Frame
  tries : Nat
  deriving DecidableEq, Repr

/-- A channel after an entry into TRAINING. -/
def RelChan.reset : RelChan := ⟨0, 0, [], [], 0⟩

/-- One packet of a remote window write: number, first granule, LAST, data, and whether it is committed; `retryAt` is the
time from which a refused-for-retry packet is resent, plus 1 (R470). -/
structure PPacket where
  n : Nat
  woff : Nat
  last : Bool
  data : List Byte
  done : Bool
  retryAt : Nat
  deriving DecidableEq, Repr

/-- A remote window write of this device in progress (R470). -/
structure PWrite where
  core : Nat
  eng : Nat
  tag : Nat
  dev : Nat
  cls : Nat
  win : Nat
  notify : Bool
  own : Nat
  packets : List PPacket
  /-- The command has ended with an error; the answers to its packets are still awaited (R170). -/
  ended : Bool
  deriving DecidableEq, Repr

/-- A window write of another device that arrives: first granule, granules committed, the end once LAST has come, and
whether a packet was refused. -/
structure InWrite where
  first : Nat
  count : Nat
  last : Option Nat
  refused : Bool
  deriving DecidableEq, Repr

/-- A peer link beside its objects: since when one lane alone has been UP, the FENCE exchange in progress (cluster mask
and time it was sent). -/
structure PeerLink where
  soloSince : Nat
  fenceSent : Option Nat
  fenceAt : Nat
  deriving DecidableEq, Repr

/-- A peer link that is down. -/
def PeerLink.reset : PeerLink := ⟨0, none, 0⟩

/-! ### Mapped contexts (R347) -/

/-- A core program as mapped onto a physical core: its logical core, the commands and slot entries of the five engines, the
physical numbers of its views, geometry entries and stream descriptors with their words, and its footprint: scratchpad from
offset 0 and cluster memory from `cmBase`, in KiB. -/
structure MapProg where
  lcore : Nat
  core : Nat
  cmds : List (List Cmd)
  slots : List (List W32)
  views : List (Nat × List W32)
  geos : List (Nat × List W32)
  descs : List (Nat × List W32)
  spadKib : Nat
  cmBase : Nat
  cmKib : Nat
  deriving DecidableEq, Repr

/-- The mapping of a context that is not STOPPED: its code-object slot, the key of the variant in use, its class, its core
programs, and its logical queues with the unit and physical queue assigned to each. -/
structure Mapped where
  slot : Nat
  key : Nat
  rt : Bool
  progs : List MapProg
  queues : List (Nat × Nat × Nat)
  deriving DecidableEq, Repr

/-- One logged event (R568). -/
structure LogRec where
  cls : Nat
  utype : Nat
  unit : Nat
  eng : Nat
  own : Option Nat
  ctx : Option Nat
  time : Nat
  addr : Nat
  supp : Nat
  frame : Nat
  status : Nat
  detail : Nat
  number : Nat
  deriving DecidableEq, Repr

/-! ### Firmware, fuses, power (R516 to R546, R594 to R608) -/

/-- Firmware: the images in the flash slots, the slot and hash of the PMC part loaded at the last power-on and whether the
PMC runs from its ROM (R537), FW.BANKc (R522), and a handoff: the time of its first record write plus 1, F1, the time of
SWITCH_ARM while the loop does not run, its record (R522), and whether the new image has confirmed (R525). -/
structure Firmware where
  images : Tbl (List Byte)
  pmcSlot : Nat
  pmcHash : List Byte
  pmcRom : Bool
  banks : Tbl W32
  startedAt : Nat
  f1 : Nat
  armedAt : Nat
  handoff : List Byte
  confirmed : Bool
  /-- Cause of a revert that falls due at the next frame start; 0: none (R526). -/
  revert : Nat
  /-- The PMC restarts: it serves nothing (R518). -/
  pmcDown : Bool
  deriving DecidableEq, Repr

/-- No firmware image in flash. -/
def Firmware.reset : Firmware :=
  { images := [], pmcSlot := 0xFF, pmcHash := [], pmcRom := true, banks := [], startedAt := 0, f1 := 0, armedAt := 0,
    handoff := [], confirmed := false, revert := 0, pmcDown := false }

/-- The fuses: the life-cycle rows of 38 bits (R541), the test-entry fuse (R540), and the owner key slots by owner × 4 +
slot, each its key and the count of its 0 bits (R544). -/
structure Fuses where
  rows : Tbl Nat
  testEntry : Bool
  keys : Tbl (Option (List Byte × Nat))
  deriving DecidableEq, Repr

/-- Unblown fuses. -/
def Fuses.reset : Fuses := ⟨[], false, []⟩

/-- A shape-changing repair decided and not yet applied (R57, R61): a core, and the column to bypass or none where the core
is retired; whether its variant's images are placed. -/
structure Repair where
  core : Nat
  col : Option Nat
  placed : Bool
  deriving DecidableEq, Repr

/-- An adaptation context beside its objects (R361 to R368): the batch being filled and the rows accepted in it; batches
that await their closing, with their rows; the SEQ of the batch that last filled each half, 0 none; the region-table entry
firmware holds for its halves; a publication's phase (0 none, 1 composed, 2 frame F requested, 3 frame F + 1 requested,
4 plan in force requested again, 5 done and its data in place), its frame F and its target. -/
structure AdaptSt where
  batch : Nat
  rows : Nat
  closing : List (Nat × Nat)
  lastSeq : Tbl Nat
  entry : Option Nat
  phase : Nat
  frame : Nat
  target : Nat
  deriving DecidableEq, Repr

/-- Nothing submitted, nothing published. -/
def AdaptSt.reset : AdaptSt := ⟨0, 0, [], [], none, 0, 0, 0⟩

/-- An accepted submission whose row is not written yet: context, batch, row, NUMBER, and the record (R382). -/
structure Submission where
  ctx : Nat
  batch : Nat
  row : Nat
  number : Nat
  data : List Byte
  deriving DecidableEq, Repr

/-- Boot and power. -/
structure Power where
  /-- How far boot has come: 0 always-on reset, 1 minimal dictionary, 2 setpoints met and self-tests running, 3 self-tests
  done (R534). -/
  stage : Nat
  /-- VHUB or VFL holds boot (R608). -/
  hubHeld : Bool
  /-- Cores whose self-test run is due. -/
  testing : List Nat
  /-- Contexts that restart after a partition or package reset. -/
  restart : List Nat
  /-- Contexts that the entry into P3 pre-empted, for resumption (R597). -/
  marked : List Nat
  /-- The device power state being entered, 3 or 4; 0: no entry in progress (R599). -/
  entering : Nat
  /-- P4 was entered by a thermal trip (R604). -/
  tripped : Bool
  /-- Accumulator of device time, plus 1, at the PMC cycle of the last wake-timer expiry (R503). -/
  timerAt : Nat
  /-- Partitions that run at 500 MHz under a thermal reduction, and the contexts it pre-empted (R603). -/
  slow : List Nat
  cooled : List Nat
  /-- Contexts whose START (false) or RESUME (true) waits for clusters to leave P2 (R599). -/
  waiting : List (Nat × Bool)
  /-- Time since which a die has been above TJ_WARN, of what is not counted yet, plus 1; time since which each die has been
  above 95 °C, plus 1; time of the last such excess of more than 10 s, plus 1 (R55). -/
  warnFrom : Nat
  hotFrom : Tbl Nat
  excessAt : Nat
  /-- Time since which each partition has been idle, plus 1; since which each cluster has been in retention, plus 1; the
  last exit from P2 of each die, plus 1 (R596, R602). -/
  idleFrom : Tbl Nat
  stopFrom : Tbl Nat
  p2Exit : Tbl Nat
  setpointFrom : Nat
  /-- Times of the power cycles requested, newest first, in device time of this power-on period (R564), and whether the
  hold-off has kept back a request. -/
  cycles : List Int
  cycleHeld : Bool
  /-- A DRAM channel has been retired and the map is not rebuilt yet (R52). -/
  channelLost : Bool
  /-- Channels that are retired and still in the map in use, which the rebuild replaces (R52, R406). -/
  lost : List Nat
  /-- The resets that R52 asks for have been requested, and the rebuild waits for their fences. -/
  rebuilding : Bool
  /-- Clusters that an access or their addition to a partition wakes from P2 (R590, R596). -/
  wakes : List Nat
  deriving DecidableEq, Repr

/-- No rail applied. -/
def Power.reset : Power :=
  { stage := 0, hubHeld := false, testing := [], restart := [], marked := [], entering := 0, tripped := false, timerAt := 0,
    slow := [], cooled := [], waiting := [], warnFrom := 0, hotFrom := [], excessAt := 0, idleFrom := [], stopFrom := [],
    p2Exit := [], setpointFrom := 0, cycles := [], cycleHeld := false, channelLost := false, lost := [], rebuilding := false, wakes := [] }

/-- The repair state as it stands in flash while a newer one has not been written (R64): objects, ME.CFG of each core, retired
clusters, channels in service, retired rows, repairs pending, and the rows remapped of each channel. -/
structure RepairImage where
  objs : Tbl (Option Nat)
  cfg : Tbl W32
  clusters : Nat
  channels : Nat
  rows : List Nat
  repairs : List Repair
  remaps : Tbl (List Nat)
  deriving DecidableEq, Repr

/-- What flash holds beside images and pins: the kept store (R500), the last summary record (R569: its
number, time and bytes) and the repair state (R64: ME.CFG of each core, retired clusters, channels in service,
retired rows, repairs pending). -/
structure Flash where
  kept : Tbl (Option Nat)
  keptDom : Tbl (Option (List Byte))
  recnum : Nat
  sumAt : Nat
  sumDue : Bool
  /-- The record itself (R569), and objects that persist with it and have no place in it. -/
  summary : List Byte
  extra : Tbl (Option Nat)
  /-- With no sector left the record stands in the always-on island (R570). -/
  island : Bool
  /-- The wrapped-secret store: part, wrapping key and secret (R538, R539). -/
  wrapped : List (Nat × List Byte × List Byte)
  cfg : Tbl W32
  clusters : Nat
  channels : Nat
  rows : List Nat
  repairs : List Repair
  /-- Writes of the repair state made, and what flash still holds of it where the last one failed (R64). -/
  tries : Nat
  unsaved : Option RepairImage
  /-- The loop was enabled when the rails were removed, and no summary has been written since (R49). -/
  served : Bool
  deriving DecidableEq, Repr

/-- Flash as delivered: nothing kept. -/
def Flash.reset : Flash :=
  { kept := [], keptDom := [], recnum := 0, sumAt := 0, sumDue := false, summary := [], extra := [],
    island := false, wrapped := [], cfg := [], clusters := 0, channels := 0xFF, rows := [], repairs := [],
    tries := 0, unsaved := none, served := false }


/-! ### Camera streams and the tokenizer (R386 to R396) -/

/-- A camera frame under way: its number in delivery order, the camera's frame number, the device times of its first and
last line, and the pixels of its lines as they arrived. -/
structure CamFrame where
  seq : Nat
  frame : Nat
  tSof : Nat
  tEof : Nat
  lines : List (List Nat)
  deriving DecidableEq, Repr

/-- A camera stream: the frame being received, the frames whose last line has arrived and that await delivery, oldest first,
and the RELEASE_SEQ last accepted (R391). -/
structure Camera where
  cur : Option CamFrame
  ready : List CamFrame
  released : Nat
  /-- WRITE_SEQ of R390 as the pipeline keeps it. -/
  writeSeq : Nat
  deriving DecidableEq, Repr

/-- No frame. -/
def Camera.reset : Camera := ⟨none, [], 0, 0⟩

/-- The tokenizer between transfers (R394, R395): an open ( or ; comment, whether the last byte let through is a collapsed
space, a 0x0D that may precede a 0x0A, the normalised bytes held, and the transfers accepted and not yet processed, each with
whether it is a FLUSH. -/
structure Tokenizer where
  paren : Bool
  semi : Bool
  space : Bool
  cr : Bool
  held : List Byte
  jobs : List (List Byte × Bool)
  /-- WRITE_SEQ of R396 as the tokenizer keeps it. -/
  writeSeq : Nat
  /-- The last RELEASE_SEQ it has read. -/
  released : Nat
  deriving DecidableEq, Repr

/-- An idle tokenizer at the start of a text. -/
def Tokenizer.reset : Tokenizer := ⟨false, false, false, false, [], [], 0, 0⟩

/-! ### The whole device -/

/-- The clocks (log 3): hub cycles since the always-on reset, device time as the 32.32 accumulator of R370 with its
increment INC (R372), the phase of the 24 MHz clock in 125ths of its cycle, and the increment by which the hub's replica
rises over the present cycle (R371). -/
structure Clocks where
  hub : Nat
  phase : Nat
  acc : Nat
  inc : Nat
  slope : Nat
  deriving DecidableEq, Repr

/-- A trace record (R616): device time, class, unit, engine, GAP, context, ARG, frame and DETAIL. -/
structure TraceRec where
  time : Nat
  cls : Nat
  unit : Nat
  eng : Nat
  gap : Bool
  ctx : Option Nat
  arg : Nat
  frame : Nat
  detail : Nat
  deriving DecidableEq, Repr

/-- The log, the persistent summary's class counts, trace and counters. -/
structure Observe where
  /-- Non-sticky log entries, oldest first (R568). -/
  log : List LogRec
  /-- The first 16 entries (R568). -/
  sticky : List LogRec
  /-- Time + 1 of the last logged entry of a class and unit (R567). -/
  lastLogged : Tbl Nat
  /-- Events suppressed since (R567). -/
  suppressed : Tbl Nat
  /-- CLASS_COUNTS of 0x8002:01. -/
  classCounts : Tbl Nat
  /-- The trace ring, oldest first (R618). -/
  ring : List TraceRec
  /-- Records written into the ring since it was emptied, for WRAPS (R619). -/
  written : Nat
  /-- Selections of COUNTER_SELECT that differ from those of R621. -/
  ctrSel : Tbl (Option Nat)
  /-- Counter n with its wrap count above bit 48. -/
  counts : Tbl Nat
  deriving DecidableEq, Repr

/-- The observation unit after a power cycle (R568, R618, R621). -/
def Observe.reset : Observe :=
  { log := [], sticky := [], lastLogged := [], suppressed := [], classCounts := [], ring := [], written := 0,
    ctrSel := [], counts := [] }

/-- The state of the device. -/
structure State where
  /-- Commands waiting, first in first out (the host's queue). -/
  pending : List Instr
  /-- Counter from which free values are drawn (the model's own field, log 11). -/
  free : Nat
  clk : Clocks
  cores : Tbl Core
  clusters : Tbl Cluster
  hqs : Tbl HQueue
  forwards : List Transit
  credits : List Transit
  /-- Memory by physical address (R37). -/
  mem : List Host.Cell
  /-- Condition of each 128-bit SRAM word: 0 clean, 1 one error, 2 uncorrectable, 3 poisoned,
  4 one error corrected by a read, its write-back pending (R272, R273). -/
  ecc : Tbl Nat
  /-- DRAM line sideband: bit 0 POISON, bits 2:1 FRT, bit 3 CLR, bit 4 uncorrectable ECC, bit 5 TAG does not verify,
  bit 6 correctable error (R407 to R410). -/
  line : Tbl Nat
  omap : Tbl W32
  /-- Window descriptors, words 0 and 1. -/
  wins : Tbl (W32 × W32)
  /-- Windows being closed (step 1 of R32). -/
  closingWins : List Nat
  rgns : Tbl W32
  /-- Region-table entries being closed: the words that take effect when the accesses admitted have drained (R32). -/
  rgnNext : Tbl (Option (W32 × W32 × Nat))
  /-- Holder of a DRAM page or hub SRAM granule: 0 none, w + 1 owner w (R413). -/
  holders : Tbl Nat
  retiredPages : List Nat
  /-- DRAM rows retired for want of a spare, as channel × 2^19 + bank × 2^15 + row (R419). -/
  retiredRows : List Nat
  /-- Region-table entries that firmware holds for loop buffers (R304). -/
  loopRgns : List Nat
  ctxTab : Tbl W32
  scrubCfg : W32
  /-- Scrub position of each bank, by memory × 16 + bank (R275). -/
  scrubPos : Tbl Nat
  /-- Start of the present scrub pass of each memory, and the memories whose pass is late (R276). -/
  scrubStart : Tbl Nat
  scrubLate : List Nat
  /-- Dictionary objects that differ from their defaults, by key (R483). -/
  obj : Tbl (Option Nat)
  /-- DOMAIN objects that differ from their defaults. -/
  dom : Tbl (Option (List Byte))
  obs : Observe
  chans : Tbl Channel
  ceRows : List CeRow
  /-- Last die temperature read, by die, and the dies whose t_REFI is halved (R402). -/
  dieTemp : Tbl Int
  dieHot : List Nat
  tempAt : Nat
  /-- The answer of the last access at a hub-side port: its status (0 OK) and data. -/
  reply : Option (Nat × List Byte)
  loop : Loop
  /-- Sources of R374, by number. -/
  sources : Tbl Source
  boot : Boot
  /-- DRAM patrol passes that are late (R422). -/
  patrolLate : Bool
  lanes : Tbl Lane
  /-- Reliable channels, by 2 × lane + channel (A, B of a drive lane; class 0, 1 of a peer lane). -/
  rels : Tbl RelChan
  /-- The last frame of each type sent outside a reliable channel, by lane × 256 + type: its payload (peer frames: words 2
  and 3). The management port is lane 12. -/
  sent : Tbl (List Byte)
  /-- Channel C counters: sent by lane, and next expected by 16 + lane (R453). -/
  cyclic : Tbl Nat
  /-- Time + 1 of the last NOT_READY of each drive link (R456). -/
  notReadyAt : Tbl Nat
  peers : Tbl PeerLink
  writes : List PWrite
  inWrites : Tbl (Option InWrite)
  /-- Masters whose attention flag is set: 0 main host, 1 management port, 2 DL2, 3 DL3 (R62, R486). -/
  attn : List Nat
  /-- Hang events and reset requests raised to the PMC and not yet served, in arrival order (R149, R518). -/
  reqs : List ResetReq
  /-- Reset steps in progress. -/
  steps : List ResetStep
  /-- Steps begun: code, target and time, newest first (R550). -/
  stepLog : List (Nat × Nat × Nat)
  inject : Option Injection
  /-- Frames a link holds under REORDER (R513): received, and sent (lane, type, payload). -/
  heldRx : Option RxFrame
  heldTx : Option (Nat × Nat × List Byte)
  masters : Tbl Master
  /-- Open transfers, by master × 256 + TID. -/
  transfers : Tbl (Option Transfer)
  /-- The status that the next request on a transfer number receives, by master × 256 + TID (R490, R493, R495). -/
  aborted : Tbl Nat
  mgmtSources : List MgmtSource
  /-- Management frames received and not yet served (R576). -/
  mgmtHeld : List (MgmtFrame × Env)
  /-- The mapping of each context that has one (R347). -/
  maps : Tbl (Option Mapped)
  /-- SEQ + 1 of the invocation that runs in a best-effort context; 0: none (R352). -/
  invocations : Tbl Nat
  /-- Cores of a PREEMPTING context whose save is complete, one bit each (R331); from 64 on, by 32 × context + core, the
  WIDTH of the core at its last save, plus 1 (R334). -/
  saved : Tbl Nat
  /-- Contexts that STOP has reached and whose commands have not all retired. -/
  stoppingCtx : List Nat
  /-- Bytes of an IMAGE transfer received, by code-object slot (R354). -/
  loading : Tbl (List Byte)
  /-- The pinned store of the flash: images by slot (R355). -/
  pins : Tbl (Option (List Byte))
  /-- Slots whose pinned image is to be read back (R356). -/
  reloads : List Nat
  /-- Number of the per-boot key's draw (R247, log 11). -/
  bootKey : Nat
  fw : Firmware
  fuses : Fuses
  power : Power
  flash : Flash
  /-- Shape-changing repairs decided and not yet applied (R61). -/
  repairs : List Repair
  adapts : Tbl AdaptSt
  /-- Accepted submissions, oldest first (R382). -/
  submissions : List Submission
  /-- The camera streams. -/
  cameras : Tbl Camera
  tokenizer : Tokenizer
  /-- The last response to each master, header and data (R486). -/
  responses : Tbl (List Byte)
  /-- Owner fields (R499) that have been written: no other session may claim them (R485). -/
  owned : List Nat
  deriving DecidableEq, Repr

/-- The device right after its rails are applied, before the always-on reset is released: every register at its reset value,
every object at its default, memory empty, nothing in flash, no fuse blown. The values the spec does not give: SCRUB.CFG
as R276 says, CORE.FRAME.PERIOD 0 (log 14), the counter of free values 0 (log 11). -/
def State.reset : State :=
  { pending := [], free := 0, clk := ⟨0, 0, 0, 0x29AAAAAAAB, 0x29AAAAAAAB⟩, cores := [], clusters := [], hqs := [], forwards := [],
    credits := [], mem := [], ecc := [], line := [], omap := [], wins := [], closingWins := [], rgns := [], rgnNext := [],
    holders := [], retiredPages := [], retiredRows := [], loopRgns := [], ctxTab := [], scrubCfg := 0x4064, scrubPos := [],
    scrubStart := [], scrubLate := [], obj := [], dom := [], obs := Observe.reset, chans := [], ceRows := [], dieTemp := [],
    dieHot := [], tempAt := 0, reply := none, loop := Loop.reset, sources := [], boot := Boot.reset, patrolLate := false,
    lanes := [], rels := [], sent := [], cyclic := [], notReadyAt := [], peers := [], writes := [], inWrites := [], attn := [],
    reqs := [], steps := [], stepLog := [], inject := none, heldRx := none, heldTx := none, masters := [], transfers := [],
    aborted := [], mgmtSources := [], mgmtHeld := [], maps := [], invocations := [], saved := [], stoppingCtx := [], loading := [], pins := [],
    reloads := [], bootKey := 0, fw := Firmware.reset, fuses := Fuses.reset, power := Power.reset, flash := Flash.reset,
    repairs := [], adapts := [], submissions := [], cameras := [],
    tokenizer := Tokenizer.reset, responses := [], owned := [] }

end Sys2Proof.Machine
end

