-- ==== Sys2Proof/Machine/Ops.lean ====
section
/-! DEFINITION. The named operations over the state: units, dictionary objects, time, the address map, memory with its
protection, the region table, the log, the trace and the counters. -/

namespace Sys2Proof.Machine

/-! ### Units -/

/-- The ENG code of an engine (R160). -/
def engCode : Eng → Nat
  | .me => 0 | .ve => 1 | .se0 => 2 | .se1 => 3 | .seq => 4

/-- Core `c`. -/
def State.core (s : State) (c : Nat) : Core := Tbl.get Core.reset s.cores c

/-- The state with core `c` replaced. -/
def State.setCore (s : State) (c : Nat) (x : Core) : State := { s with cores := Tbl.set Core.reset s.cores c x }

/-- Engine `e` (an ENG code) of a core. -/
def Core.engine (x : Core) (e : Nat) : Engine := Tbl.get Engine.reset x.engines e

/-- The core with engine `e` replaced. -/
def Core.setEngine (x : Core) (e : Nat) (y : Engine) : Core :=
  { x with engines := Tbl.set Engine.reset x.engines e y }

/-- Engine `e` of core `c`. -/
def State.engine (s : State) (c e : Nat) : Engine := (s.core c).engine e

/-- The state with engine `e` of core `c` replaced. -/
def State.setEngine (s : State) (c e : Nat) (y : Engine) : State := s.setCore c ((s.core c).setEngine e y)

/-- Cluster `k`. -/
def State.cluster (s : State) (k : Nat) : Cluster := Tbl.get Cluster.reset s.clusters k

/-- The state with cluster `k` replaced. -/
def State.setCluster (s : State) (k : Nat) (x : Cluster) : State :=
  { s with clusters := Tbl.set Cluster.reset s.clusters k x }

/-- The unit number of the hub in handle-queue addresses (TCL and SCL of R290). -/
def hubUnit : Nat := 7

/-- Handle queue `q` of unit `u` (a cluster, or 7 the hub). -/
def State.hq (s : State) (u q : Nat) : HQueue := Tbl.get HQueue.reset s.hqs (u * 32 + q)

/-- The state with a handle queue replaced. -/
def State.setHq (s : State) (u q : Nat) (x : HQueue) : State :=
  { s with hqs := Tbl.set HQueue.reset s.hqs (u * 32 + q) x }

/-! ### Time -/

/-- Device time in ns, which steps with the always-on clock (R370). -/
def State.deviceTime (s : State) : Nat := s.clk.acc / 2 ^ 32 % 2 ^ 64

/-- The hub's replica of device time: the accumulator extended over the present always-on cycle (R371). Arrival times, frame
starts and the hub's timestamps are read from it. -/
def State.now (s : State) : Nat := (s.clk.acc + s.clk.slope * s.clk.phase / 125) / 2 ^ 32 % 2 ^ 64

/-- The cycle count of a cluster, or of the hub for unit 7. -/
def State.unitCycle (s : State) (u : Nat) : Nat := if u = hubUnit then s.clk.hub else (s.cluster u).cyc

/-- The cycle count of a core: that of its cluster. -/
def State.coreCycle (s : State) (c : Nat) : Nat := (s.cluster (c / 4)).cyc

/-! ### Dictionary objects -/

/-- The value of an object. -/
def State.o (s : State) (k : Nat) : Nat := (Tbl.get none s.obj k).getD (objDflt k)

/-- The state with an object set. -/
def State.setO (s : State) (k v : Nat) : State :=
  { s with obj := Tbl.set none s.obj k (if v = objDflt k then none else some v) }

/-- The largest value of an object's type. -/
def objMax (k : Nat) : Nat :=
  match objRowOf k with
  | some r => 2 ^ (8 * r.ty.size) - 1
  | none => 0

/-- An object that counts up by `n` and stops at its maximum (R577). -/
def State.incO (s : State) (k n : Nat) : State := s.setO k (satAdd (objMax k) (s.o k) n)

/-- An object set where the condition holds. -/
def State.setOIf (s : State) (b : Bool) (k v : Nat) : State := if b then s.setO k v else s

/-- One bit of an object. -/
def State.oBit (s : State) (k i : Nat) : Bool := nbit (s.o k) i

/-- The state with one bit of an object set or cleared. -/
def State.setOBit (s : State) (k i : Nat) (b : Bool) : State := s.setO k (nput (s.o k) i 1 (b01 b))

/-- The key of an object of index `i`, sub-index `sub`. -/
def ok (i sub : Nat) : Nat := i * 256 + sub

/-- The default contents of a DOMAIN object (the object tables; the identity of CCM is the 3 × 3 unit matrix). -/
def domDflt (k : Nat) : List Byte :=
  let i := k % 2 ^ 24 / 256
  let b := k % 256
  if 0x3000 ≤ i ∧ i < 0x3040 ∧ b = 0x10 then List.replicate 32 0
  else if 0x3040 ≤ i ∧ i < 0x3060 ∧ b = 6 then List.replicate 32 0
  else if 0x5140 ≤ i ∧ i < 0x5144 then List.replicate 4096 0
  else if 0x7010 ≤ i ∧ i < 0x701C ∧ b = 0x10 then List.replicate 32 0
  else if 0xB010 ≤ i ∧ i < 0xB014 ∧ b = 2 then List.replicate 16 0
  else if i = 0x1080 then 0xFF :: List.replicate 15 0
  else if i = 0x1081 ∨ i = 0x1082 then List.replicate 16 0
  else if i = 0x1018 then "Zilvaom ZV-2460".toList.map (fun c => BitVec.ofNat 8 c.toNat)
  else if i = 0x8000 ∧ b = 9 then List.replicate 20 0
  else if 0xA000 ≤ i ∧ i < 0xA002 ∧ b = 4 then List.replicate 32 0
  else if 0x5200 ≤ i ∧ i < 0x5204 ∧ b = 0xC then (List.replicate 3300 (leBytes 2 0x1000)).flatten
  else if 0x5200 ≤ i ∧ i < 0x5204 ∧ b = 0xF then
    [0x1000, 0, 0, 0, 0x1000, 0, 0, 0, 0x1000, 0, 0, 0].flatMap (leBytes 2)
  else if 0x5200 ≤ i ∧ i < 0x5204 ∧ b = 0x10 then (List.range 1025).flatMap (fun j => leBytes 2 (min 65535 (64 * j)))
  else []

/-- The contents of a DOMAIN object. -/
def State.d (s : State) (k : Nat) : List Byte := (Tbl.get none s.dom k).getD (domDflt k)

/-- The state with a DOMAIN object set. -/
def State.setD (s : State) (k : Nat) (v : List Byte) : State :=
  { s with dom := Tbl.set none s.dom k (if v = domDflt k then none else some v) }

/-! ### Cluster clocks -/

/-- The partition of a cluster, if it belongs to one. -/
def State.partOfCluster (s : State) (k : Nat) : Option Nat :=
  (List.range 4).find? (fun p => s.oBit (ok (0x2100 + p) 1) k)

/-- The frequency of a cluster's clock in MHz: its partition's, 500 under a thermal reduction (R55, R580). -/
def State.clusterMhz (s : State) (k : Nat) : Nat :=
  match s.partOfCluster k with
  | some p => if s.power.slow.contains p then 500 else s.o (ok (0x2100 + p) 2)
  | none => 0

/-! ### Free values -/

/-- A free value and the state with the counter advanced (log 11). -/
def State.fresh (s : State) : Nat × State := (Config.freeValue s.free, { s with free := s.free + 1 })

/-! ### Observation -/

/-- The selection of counter `n`: EVENT, UNIT and EN as in COUNTER_SELECT, by default that of R621. -/
def State.selection (s : State) (n : Nat) : Nat :=
  (Tbl.get none s.obs.ctrSel n).getD (if n < 384 then n % 16 + n / 16 * 2 ^ 10 + 2 ^ 16 else 0)

/-- Counter `n` counts `k` more events; 48 bits with a 16-bit wrap count above them, which stays at its maximum (R508,
R620). -/
def Observe.bump (o : Observe) (n k : Nat) : Observe :=
  let v := Tbl.get 0 o.counts n + k
  { o with counts := Tbl.set 0 o.counts n (if v < 2 ^ 64 then v else 0xFFFF * 2 ^ 48 + v % 2 ^ 48) }

/-- `k` events of a code and unit reach every counter that selects them (R616, R620). -/
def State.event (s : State) (code unit k : Nat) : State :=
  let want := code + unit * 2 ^ 10 + 2 ^ 16
  let dflt := if code < 16 ∧ unit < 24 ∧ (Tbl.get none s.obs.ctrSel (16 * unit + code)).isNone
    then [16 * unit + code] else []
  let picked := (s.obs.ctrSel.filter (fun e => e.2 == some want)).map (fun e => e.1)
  { s with obs := (dflt ++ picked).foldl (fun o n => o.bump n k) s.obs }

/-- A trace record enters the ring under 0x9000 MODE: 0 overwrites the oldest, 1 stops when full (R618, R619). -/
def State.traceRec (s : State) (r : TraceRec) : State :=
  let full := decide (262144 ≤ s.obs.ring.length)
  if s.o 0x900002 = 1 ∧ full = true then s.incO 0x900006 1
  else
    let ring := (if full then s.obs.ring.drop 1 else s.obs.ring) ++ [r]
    let w := s.obs.written + 1
    let s1 := { s with obs := { s.obs with ring := ring, written := w } }
    if full = true ∧ w % 262144 = 0 then s1.incO 0x900007 1 else s1

/-- A TIME record where device time [63:48] differs from that of the previous record (R617). -/
def State.traceTime (s : State) : State :=
  let prev := (s.obs.ring.getLast?).map (fun r => r.time / 2 ^ 48)
  if prev == some (s.now / 2 ^ 48) then s
  else s.traceRec ⟨s.now, 0, 0, 7, false, none, 0, s.o 0x400007 % 2 ^ 16, s.now / 2 ^ 32⟩

/-- An event of a trace class, where ENABLE is 1 and the class is enabled (R616, R617). -/
def State.trace (s : State) (cls unit eng : Nat) (ctx : Option Nat) (arg detail : Nat) : State :=
  if s.o 0x900001 = 1 ∧ s.oBit 0x900004 cls = true then
    s.traceTime.traceRec
      ⟨s.now, cls, unit, eng, false, ctx, arg % 256, s.o 0x400007 % 2 ^ 16, detail % 2 ^ 32⟩
  else s

/-- The classes marked L in R566. -/
def logLimited (cls : Nat) : Bool :=
  [0x01, 0x03, 0x04, 0x07, 0x08, 0x09, 0x0C, 0x0D, 0x0E, 0x11, 0x12, 0x18, 0x1C, 0x23, 0x26].contains cls

/-- What a log entry says of its event beside the class and unit. -/
structure LogInfo where
  eng : Nat := 7
  own : Option Nat := none
  ctx : Option Nat := none
  addr : Nat := 0
  status : Nat := 0
  detail : Nat := 0
  deriving DecidableEq, Repr

/-- R566 to R568: the event counts in CLASS_COUNTS; within 1 ms of the last logged entry of its class and unit it is
only suppressed where the class is marked L; otherwise it becomes an entry, sticky among the first 16, else in the ring of
1,008 in which the oldest is overwritten. -/
def State.logEv (s : State) (cls utype unit : Nat) (i : LogInfo) : State :=
  let key := cls * 2 ^ 16 + utype * 2 ^ 8 + unit % 256
  let cc := Tbl.set 0 s.obs.classCounts cls (satAdd (2 ^ 32 - 1) (Tbl.get 0 s.obs.classCounts cls) 1)
  let last := Tbl.get 0 s.obs.lastLogged key
  if logLimited cls = true ∧ last ≠ 0 ∧ s.now + 1 < last + 1000000 then
    let supp := Tbl.set 0 s.obs.suppressed key (satAdd 0xFFFF (Tbl.get 0 s.obs.suppressed key) 1)
    { s with obs := { s.obs with classCounts := cc, suppressed := supp } }
  else
    let total := s.o 0x800102
    let r : LogRec := ⟨cls, utype, unit, i.eng, i.own, i.ctx, s.deviceTime, i.addr, Tbl.get 0 s.obs.suppressed key,
      s.o 0x400007, i.status, i.detail % 2 ^ 24, total % 2 ^ 32⟩
    let stick := decide (s.obs.sticky.length < 16)
    let ring := if stick then s.obs.log
      else (if 1008 ≤ s.obs.log.length then s.obs.log.drop 1 else s.obs.log) ++ [r]
    let stk := if stick then s.obs.sticky ++ [r] else s.obs.sticky
    let lastT := Tbl.set 0 s.obs.lastLogged key (s.now + 1)
    let supp := Tbl.set 0 s.obs.suppressed key 0
    let s1 := { s with obs := { s.obs with classCounts := cc, log := ring, sticky := stk, lastLogged := lastT, suppressed := supp } }
    let s2 := (s1.setO 0x800102 (total + 1)).setO 0x800101 (s1.obs.sticky.length + s1.obs.log.length)
    s2.trace 4 utype 7 i.ctx cls (total % 2 ^ 32)

/-! ### The address map (R37) -/

/-- What a physical address names. -/
inductive Place where
  | dram (a : Nat)
  | cm (k off : Nat)
  | spad (c off : Nat)
  | aperture (dev off : Nat)
  | hubSram (off : Nat)
  | hubReg (off : Nat)
  | absent
  deriving DecidableEq, Repr

/-- The DRAM channels in service, ascending: the list L of R398. -/
def State.channels (s : State) : List Nat := (List.range 8).filter (fun c => nbit (s.o 0x600001) c)

/-- The channels that the map in use lists: until the rebuild of R52, one that was retired stays among them. -/
def State.mapped (s : State) : List Nat := (List.range 8).filter (fun c => nbit (s.o 0x600001) c || s.power.lost.contains c)

/-- R37: the unit an address names. Cluster memories and scratchpads fill the first 4 MiB and 2 MiB of their spans. -/
def State.place (s : State) (a : Nat) : Place :=
  if 0x800000000 ≤ a ∧ a < 0x800000000 + 6 * 0x1000000 ∧ a % 0x1000000 < 0x400000 then
    .cm ((a - 0x800000000) / 0x1000000) (a % 0x1000000)
  else if 0x900000000 ≤ a ∧ a < 0x900000000 + 24 * 0x400000 ∧ a % 0x400000 < 0x200000 then
    .spad ((a - 0x900000000) / 0x400000) (a % 0x400000)
  else if 0xA00000000 ≤ a ∧ a < 0xE00000000 then .aperture ((a - 0xA00000000) / 0x100000000) (a % 0x100000000)
  else if 0xF00000000 ≤ a ∧ a < 0xF00800000 then .hubSram (a - 0xF00000000)
  else if 0xF80000000 ≤ a ∧ a < 0x1000000000 then .hubReg (a - 0xF80000000)
  else if a < s.mapped.length * 2 ^ 30 then .dram a
  else .absent

/-- The physical address of a scratchpad offset. -/
def spadAddr (c off : Nat) : Nat := 0x900000000 + c * 0x400000 + off
/-- The physical address of a cluster-memory offset. -/
def cmAddr (k off : Nat) : Nat := 0x800000000 + k * 0x1000000 + off
/-- The physical address of a hub SRAM offset. -/
def hubAddr (off : Nat) : Nat := 0xF00000000 + off

/-- The memory number of the memory counters, owner maps and scrubber: scratchpad of core n is n, cluster memory k is
24 + k, hub SRAM is 30 (the event-code table of R620). -/
def memBase (m : Nat) : Nat :=
  if m < 24 then spadAddr m 0 else if m < 30 then cmAddr (m - 24) 0 else hubAddr 0

/-- Bytes of a memory. -/
def memSize (m : Nat) : Nat := if m < 24 then 0x200000 else if m < 30 then 0x400000 else 0x800000

/-- Bytes of one owner-map region of a memory. -/
def regionUnit (m : Nat) : Nat := if m < 24 then 0x8000 else 0x10000

/-- The memory a place lies in and its offset there, for an SRAM. -/
def Place.sram : Place → Option (Nat × Nat)
  | .spad c off => some (c, off)
  | .cm k off => some (24 + k, off)
  | .hubSram off => some (30, off)
  | _ => none

/-- A place in DRAM. -/
def Place.isDram : Place → Bool
  | .dram _ => true
  | _ => false

/-- The memory an address lies in and its offset there, for an SRAM. -/
def State.sram (s : State) (a : Nat) : Option (Nat × Nat) := (s.place a).sram

/-! ### Bytes -/

/-- What a byte of memory that nothing has written reads as (log 2). -/
def Memory.dflt : Byte := 0

/-- The memory is in its canonical form. -/
def Memory.wf (m : List Host.Cell) : Bool := Tbl.wf Memory.dflt m

/-- One byte of memory. -/
def State.byte (s : State) (a : Nat) : Byte := Tbl.get Memory.dflt s.mem a

/-- The bytes from address `a` on. -/
def State.bytes (s : State) (a n : Nat) : List Byte := Tbl.getList Memory.dflt s.mem a n

/-- The state with bytes stored from address `a` on, without protection. -/
def State.poke (s : State) (a : Nat) (l : List Byte) : State :=
  { s with mem := Tbl.setList Memory.dflt s.mem a l }

/-- The state with `n` bytes from `a` on back at zero (a hardware clear). -/
def State.wipe (s : State) (a n : Nat) : State := { s with mem := Tbl.clear s.mem a n }

/-- The state with the bytes at every address of a set back at zero. -/
def State.dropBytes (s : State) (p : Nat → Bool) : State := { s with mem := s.mem.filter (fun e => !p e.1) }

/-! ### The entries of the region table (R412) -/

/-- The granule of an address and its space: DRAM pages of 2 MiB, hub SRAM granules of 4 KiB. -/
def regionGranule (dram : Bool) (a : Nat) : Nat := if dram then a / 0x200000 else a / 0x1000

/-- Word `w` of region-table entry `e`. -/
def State.rgn (s : State) (e w : Nat) : W32 := Tbl.get 0 s.rgns (e * 2 + w)

/-- Entry `e` is valid and covers a granule of a space. -/
def State.covers (s : State) (e : Nat) (dram : Bool) (g : Nat) : Bool :=
  let w := s.rgn e 0
  bit w 31 && (bit w 24 == !dram) && decide (fld w 0 12 ≤ g) && decide (g ≤ fld w 0 12 + fld w 12 12)

/-- The entry that covers a granule. -/
def State.coverOf (s : State) (dram : Bool) (g : Nat) : Option Nat :=
  (List.range 64).find? (fun e => s.covers e dram g)

/-! ### SRAM protection (R272 to R274) -/

/-- The owner of an offset of a memory: by its owner map in a scratchpad or cluster memory, by the entry of the region table
that covers it in hub SRAM; none where no region is assigned (R273, R571). -/
def State.omapOwner (s : State) (m off : Nat) : Option Nat :=
  if m < 30 then
    let w := Tbl.get 0 s.omap (m * 64 + off / regionUnit m)
    if bit w 2 then some (fld w 0 2) else none
  else (s.coverOf false (regionGranule false off)).map (fun e => fld (s.rgn e 0) 25 2)

/-- The words of a range that are not clean, with their condition. -/
def State.dirtyWords (s : State) (a n : Nat) : List (Nat × Nat) :=
  s.ecc.filter (fun e => decide (a / 16 ≤ e.1) && decide (e.1 * 16 < a + n))

/-- The log entry of a word of an SRAM: UTYPE and UNIT of R568 with its offset and owner. -/
def State.logSram (s : State) (cls word : Nat) : Option (Nat × Nat) → State
  | some (m, off) =>
    s.logEv cls (if m < 24 then 1 else if m < 30 then 2 else 7) (if m < 24 then m else if m < 30 then m - 24 else 0)
      { addr := word * 16, own := s.omapOwner m off }
  | none => s

/-- The log entry of a word. -/
def State.logWord (s : State) (cls word : Nat) : State := s.logSram cls word (s.sram (word * 16))

/-- The memory number of a word of an SRAM. -/
def State.wordMem (s : State) (word : Nat) : Nat := ((s.sram (word * 16)).map (fun x => x.1)).getD 0

/-- One word met by a read (R273): one error is corrected and counted, and its write-back becomes pending; an
uncorrectable word is poisoned; an uncorrectable or poisoned word is logged. -/
def State.readWord (s : State) (e : Nat × Nat) : State :=
  match e.2 with
  | 2 => (({ s with ecc := Tbl.set 0 s.ecc e.1 3 }).logWord 0x02 e.1).event 0x081 (s.wordMem e.1) 1
  | 3 => s.logWord 0x02 e.1
  | _ => (({ s with ecc := Tbl.set 0 s.ecc e.1 4 }).logWord 0x01 e.1).event 0x080 (s.wordMem e.1) 1

/-- A word that no read returns data of. -/
def badWord (e : Nat × Nat) : Bool := e.2 == 2 || e.2 == 3

/-- A read of SRAM bytes: the state after it, and whether a word was uncorrectable or poisoned (R273). -/
def State.sramRead (s : State) (a n : Nat) : State × Bool :=
  let w := s.dirtyWords a n
  (w.foldl State.readWord s, w.any badWord)

/-- One word met by a write of the range `a`, `n` (R261, R273, R274): a pending write-back is cancelled; covered whole
the word is clean again; covered in part, one error is corrected by the merge, and an uncorrectable or poisoned word
stays poisoned, is logged as a read of it would be, and the write is logged. -/
def State.writeWord (a n : Nat) (s : State) (e : Nat × Nat) : State :=
  let s1 := if e.2 = 4 then s.event 0x082 (s.wordMem e.1) 1 else s
  if a ≤ e.1 * 16 ∧ e.1 * 16 + 16 ≤ a + n then { s1 with ecc := Tbl.set 0 s1.ecc e.1 0 }
  else match e.2 with
    | 2 => (s1.readWord e).logWord 0x03 e.1
    | 3 => (s1.readWord e).logWord 0x03 e.1
    | _ => let s2 := s1.readWord e
           { s2 with ecc := Tbl.set 0 s2.ecc e.1 0 }

/-- A write of SRAM bytes. -/
def State.sramWrite (s : State) (a : Nat) (l : List Byte) : State :=
  ((s.dirtyWords a l.length).foldl (State.writeWord a l.length) s).poke a l

/-- A hardware clear of SRAM bytes: zero with correct check bits; it removes poison and pending write-backs (R266). -/
def State.sramClear (s : State) (a n : Nat) : State :=
  ({ (s.wipe a n) with ecc := Tbl.clear s.ecc (a / 16) (n / 16) }).event 0x083 (s.wordMem (a / 16)) (n / 64)

/-! ### The region table (R31, R264, R412) -/

/-- The key of sub-index `b` of LOOP_GROUP g. -/
def groupObj (g b : Nat) : Nat := ok (0x4008 + g) b

/-- The ingress buffer of a group: offset in hub SRAM and bytes (R304). -/
def State.inBuffer (s : State) (g : Nat) : Nat × Nat := (s.o (groupObj g 1), 64 + 32 * s.o (groupObj g 2))

/-- The egress buffer of a group (R304). -/
def State.outBuffer (s : State) (g : Nat) : Nat × Nat := (s.o (groupObj g 3), 32 * s.o (groupObj g 4))

/-- R38: offset `off` of hub SRAM lies in a granule that holds bytes of the ingress or the egress buffer of a group in use; the
other bytes of such a granule are reachable with the same rights (R304). -/
def State.inLoopBuffers (s : State) (off : Nat) : Bool :=
  (List.range 8).any (fun g => s.o (groupObj g 9) != 0 &&
    [s.inBuffer g, s.outBuffer g].any (fun b =>
      decide (b.1 / 0x1000 ≤ off / 0x1000) && decide (off / 0x1000 * 0x1000 < b.1 + b.2)))

/-- The answer of the region table to an access. -/
inductive Permit where
  | granted
  | retry
  | refused
  deriving DecidableEq, Repr

/-- A granule of entry `e` is not accessible for now: the entry is closing, or the granule waits to be cleared (R32, R413). -/
def State.granuleHeld (s : State) (e : Nat) (dram : Bool) (g : Nat) : Bool :=
  bit (s.rgn e 1) 8 ||
    (bit (s.rgn e 1) 9 && Tbl.get 0 s.holders (if dram then g else 4096 + g) != fld (s.rgn e 0) 25 2 + 1)

/-- R412 at one granule: owner, partition (none for a hub unit) and direction. -/
def State.permits (s : State) (dram : Bool) (g owner : Nat) (part : Option Nat) (write : Bool) : Permit :=
  if dram ∧ s.retiredPages.contains g = true then .refused
  else match s.coverOf dram g with
    | none => .refused
    | some e =>
      let w0 := s.rgn e 0
      let w1 := s.rgn e 1
      if s.granuleHeld e dram g then .retry
      else
        let own := fld w0 25 2 == owner
        let okr := (bit w0 27 && own) || nbit (fld w1 0 4) owner
        let okw := bit w0 28 && own && !bit w0 30
        let okp := match part with
          | some p => nbit (fld w1 4 4) p
          | none => true
        if (if write then okw else okr) && okp then .granted else .refused

/-- A refusal of the region table is counted by the covering entry and logged with its owner and address (R31). -/
def State.regionRefusal (s : State) (dram : Bool) (g owner addr : Nat) : State :=
  let s1 := match s.coverOf dram g with
    | some e => s.incO (ok (0x6100 + e) 5) 1
    | none => s
  s1.logEv 0x0C 7 0 { own := some owner, addr := addr }

/-- What a hub-side read of `n` bytes at offset `off` of hub SRAM under an owner returns: no data where the region table
does not permit it or a word is uncorrectable or poisoned (R31, R273). -/
def State.hubLook (s : State) (own off n : Nat) : Option (List Byte) :=
  if s.permits false (regionGranule false off) own none false == .granted &&
      !(s.dirtyWords (hubAddr off) n).any badWord then some (s.bytes (hubAddr off) n)
  else none

/-- What that read leaves: a refusal is logged, words with errors are corrected or poisoned and logged. -/
def State.hubSee (s : State) (own off n : Nat) : State :=
  match s.permits false (regionGranule false off) own none false with
  | .granted => (s.sramRead (hubAddr off) n).1
  | .retry => s
  | .refused => s.regionRefusal false (regionGranule false off) own (hubAddr off)

/-- The clocks of a cluster are stopped by power state P2, P3 or P4 (R580, R594). -/
def State.stopped (s : State) (k : Nat) : Bool := (s.cluster k).p2 || s.o 0x1F2002 != 0

/-- The merged wake flag of a cluster in P2 is set (R590, R596). A cluster in no partition stays in P2 (R319). -/
def State.wakeFor (s : State) (k : Nat) : State :=
  if (s.cluster k).p2 && (s.partOfCluster k).isSome && !s.power.wakes.contains k then
    { s with power := { s.power with wakes := k :: s.power.wakes } }
  else s

/-- The clocks of a core run: its PLL is locked, its cluster is not stopped, and its clock is not gated (R580 to R583). -/
def State.clockRuns (s : State) (c : Nat) : Bool :=
  (s.cluster (c / 4)).pllLocked && !s.stopped (c / 4) && !(s.core c).clockGated

/-- The core or cluster that holds a memory is fenced, in self-test or stopped, so that its accesses are answered with a
retry status (R155, R551, R596). -/
def State.memHeld (s : State) (m : Nat) : Bool :=
  if m < 24 then (s.core m).fenced || (s.core m).selfTest || (s.cluster (m / 4)).fenced || s.stopped (m / 4)
  else (s.cluster (m - 24)).fenced || s.stopped (m - 24)

/-- The owner map's answer for a range of a scratchpad or cluster memory (R31, R265): every region it reaches must be
valid and owned, and none clearing. -/
def State.omapPermits (s : State) (m off n owner : Nat) : Permit :=
  let rs := (List.range 64).filter (fun r =>
    decide (r * regionUnit m < off + n) && decide (off < (r + 1) * regionUnit m))
  let ws := rs.map (fun r => Tbl.get 0 s.omap (m * 64 + r))
  if ws.any (fun w => bit w 5) || s.memHeld m then .retry
  else if ws.all (fun w => bit w 2 && fld w 0 2 == owner) then .granted
  else .refused

end Sys2Proof.Machine
end

