-- ==== Sys2Proof/Machine/Peer.lean ====
section
/-! DEFINITION. Lanes and the reliable channels of drive and peer links (R426, R453, R454, R471 to R473), and what is sent
to another device. -/

namespace Sys2Proof.Machine

/-! ### Lanes -/

/-- Lane `i` of R426. -/
def State.lane (s : State) (i : Nat) : Lane := Tbl.get Lane.reset s.lanes i

/-- The state with a lane replaced. -/
def State.putLane (s : State) (i : Nat) (x : Lane) : State := { s with lanes := Tbl.set Lane.reset s.lanes i x }

/-- The key of sub-index `b` of LANE i. -/
def laneObj (i b : Nat) : Nat := ok (0x7010 + i) b

/-- STATE of a lane (R431): 0 OFF, 1 NO_LIGHT, 2 SEATING, 3 TRAINING, 4 UP, 5 LOS, 6 REFUSED, 7 FAILED. -/
def State.laneState (s : State) (i : Nat) : Nat := s.o (laneObj i 1)

/-- The lane is UP. -/
def State.laneUp (s : State) (i : Nat) : Bool := s.laneState i == 4

/-- The key of sub-index `b` of PEER_LINK n. -/
def peerObj (n b : Nat) : Nat := ok (0x7200 + n) b

/-- Peer link `n`. -/
def State.peer (s : State) (n : Nat) : PeerLink := Tbl.get PeerLink.reset s.peers n

/-- The state with a peer link replaced. -/
def State.setPeer (s : State) (n : Nat) (x : PeerLink) : State := { s with peers := Tbl.set PeerLink.reset s.peers n x }

/-! ### Sending, with fault injection (R513, R514) -/

/-- LINK of a lane, as FAULT_INJECT numbers links. -/
def linkOfLane (lane : Nat) : Nat := if lane < 6 then lane else 6 + (lane - 6) / 2

/-- The kind of the armed injection that acts on a lane in a direction: 1 DROP, 2 CORRUPT, 3 REORDER; 0 none. -/
def State.injects (s : State) (lane dir : Nat) : Nat :=
  match s.inject with
  | some j => if lane < 12 ∧ j.link = linkOfLane lane ∧ j.dir = dir then j.kind else 0
  | none => 0

/-- The injection has acted on a frame; a nonzero COUNT reached stops it. -/
def State.acted (s : State) : State :=
  let n := s.o 0xC00006 + 1
  let s1 := s.setO 0xC00006 (n % 2 ^ 32)
  match s.inject with
  | some j => if j.count ≠ 0 ∧ j.count ≤ n then { s1 with inject := none } else s1
  | none => s1

/-- A payload with bit 0 of its first byte inverted. -/
def corrupted : List Byte → List Byte
  | [] => []
  | b :: r => (b ^^^ 1) :: r

/-- The channel of a frame sent outside the reliable channels: C for RESULTS and TIME, else N. -/
def cyclicType (lane typ : Nat) : Bool := decide (lane < 6) && (typ == 0x03 || typ == 0x30)

/-- A frame is on the fibre. -/
def State.putSent (s : State) (lane typ : Nat) (d : List Byte) : State :=
  { s with sent := Tbl.set [] s.sent (lane * 256 + typ) d }

/-- A frame leaves; one that REORDER holds back for its channel follows it. -/
def State.release (s : State) (lane typ : Nat) (d : List Byte) : State :=
  let s1 := s.putSent lane typ d
  match s.heldTx with
  | some (l, t, e) =>
    if l = lane ∧ cyclicType l t = cyclicType lane typ then { (s1.putSent l t e) with heldTx := none } else s1
  | none => s1

/-- A frame sent outside the reliable channels: identity records and swap notices are never injected. -/
def State.transmit (s : State) (lane typ : Nat) (d : List Byte) : State :=
  if typ = 0x20 ∨ typ = 0x21 ∨ (6 ≤ lane ∧ typ = 0x06) then s.putSent lane typ d
  else match s.injects lane 1 with
    | 1 => s.acted
    | 2 => s.acted.release lane typ (corrupted d)
    | 3 => if s.heldTx.isNone then { s.acted with heldTx := some (lane, typ, d) } else s.release lane typ d
    | _ => s.release lane typ d

/-! ### Reliable channels -/

/-- Channel `ch` of a lane. -/
def State.rel (s : State) (lane ch : Nat) : RelChan := Tbl.get RelChan.reset s.rels (2 * lane + ch)

/-- The state with a channel replaced. -/
def State.setRel (s : State) (lane ch : Nat) (x : RelChan) : State :=
  { s with rels := Tbl.set RelChan.reset s.rels (2 * lane + ch) x }

/-- Frames a sender keeps unacknowledged: 8 ACYC, 32 BULK (R454), 32 of each class of a peer lane (R473). -/
def relLimit (lane ch : Nat) : Nat := if lane < 6 ∧ ch = 0 then 8 else 32

/-- Waiting frames are sent while there is room. -/
def RelChan.pump (limit now : Nat) : Nat → RelChan → RelChan
  | 0, x => x
  | n + 1, x =>
    match x.waiting with
    | [] => x
    | f :: r =>
      if x.unacked.length < limit then
        RelChan.pump limit now n
          { x with tx := (x.tx + 1) % 2 ^ 16, unacked := x.unacked ++ [{ f with seq := x.tx, sentAt := now }], waiting := r }
      else x

/-- A frame goes to a reliable channel. -/
def State.sendRel (s : State) (lane ch : Nat) (f : Frame) : State :=
  let x := s.rel lane ch
  let s1 := s.setRel lane ch (RelChan.pump (relLimit lane ch) s.now 33 { x with waiting := x.waiting ++ [f] })
  if s.injects lane 1 = 0 then s1 else s1.acted

/-- An acknowledgement names the next sequence number expected: every frame before it is released (R454, R473). -/
def State.ackRel (s : State) (lane ch next : Nat) : State :=
  let x := s.rel lane ch
  match x.unacked with
  | [] => s
  | f :: _ =>
    let n := (next + 2 ^ 16 - f.seq) % 2 ^ 16
    if n = 0 ∨ x.unacked.length < n then s
    else s.setRel lane ch (RelChan.pump (relLimit lane ch) s.now 33 { x with unacked := x.unacked.drop n, tries := 0 })

/-- The oldest frame has waited `t` ns: it and every later one of its channel are sent again (R454, R473); the number
resent, 0 where nothing was due. -/
def State.resendRel (s : State) (lane ch t : Nat) : State × Nat :=
  let x := s.rel lane ch
  match x.unacked with
  | [] => (s, 0)
  | f :: _ =>
    if s.now < f.sentAt + t then (s, 0)
    else
      (s.setRel lane ch
        { x with unacked := x.unacked.map (fun g => { g with sentAt := s.now }), tries := x.tries + 1 }, x.unacked.length)

/-! ### Peer traffic (R466 to R472) -/

/-- The link in UP that faces device `d` (R466). -/
def State.linkTo (s : State) (d : Nat) : Option Nat :=
  (List.range 3).find? (fun n => s.o (peerObj n 1) != 0 && s.o (peerObj n 2) == d)

/-- Frames of a pair or command are waiting or unacknowledged on a lane. -/
def State.carries (s : State) (lane key : Nat) : Bool :=
  (List.range 2).any (fun c => ((s.rel lane c).unacked ++ (s.rel lane c).waiting).any (fun f => f.key == key))

/-- R472: the lane of a link for a pair or command; `odd` chooses lane b in two-lane mode, and a lane that still carries
frames of the pair or command keeps it. -/
def State.peerLane (s : State) (n key : Nat) (odd : Bool) : Nat :=
  let a := 6 + 2 * n
  match s.o (peerObj n 1) with
  | 2 => a
  | 3 => a + 1
  | _ =>
    let want := if odd then a + 1 else a
    let other := if odd then a else a + 1
    if s.carries other key then other else want

/-- The key of a forwarding pair. -/
def pairKey (su sq tu tq : Nat) : Nat := 2 ^ 20 + su + sq * 2 ^ 3 + tu * 2 ^ 8 + tq * 2 ^ 11

/-- A HANDLE (0x03) or CREDIT (0x04) frame of a pair whose ends are on this device and device `d` (R469, R472); whether a
link takes it. The source of the pair is unit `su`, queue `sq`. -/
def State.sendPair (s : State) (typ d w2 su sq tu tq : Nat) : State × Bool :=
  match s.linkTo d with
  | none => (s, false)
  | some n =>
    let key := pairKey su sq tu tq
    let w3 := tq + tu * 2 ^ 5 + sq * 2 ^ 8 + su * 2 ^ 13
    (s.sendRel (s.peerLane n key ((sq + su) % 2 == 1)) 0 ⟨typ, w2, w3, [], key, 0, 0⟩, true)

end Sys2Proof.Machine
end

