-- ==== Sys2Proof/Machine/Handles.lean ====
section
/-! DEFINITION. Handles and handle queues: pushes, pops, forwarding and credits (R289 to R297), and the events and writes
that act on them. -/

namespace Sys2Proof.Machine

/-- BIDX of a handle (R289). -/
def hBidx (h : W32) : Nat := fld h 0 12
/-- GEN of a handle. -/
def hGen (h : W32) : Nat := fld h 12 12
/-- OWN of a handle. -/
def hOwn (h : W32) : Nat := fld h 24 2
/-- LAST of a handle. -/
def hLast (h : W32) : Bool := bit h 26
/-- SKIP of a handle. -/
def hSkip (h : W32) : Bool := bit h 27
/-- INVALID of a handle. -/
def hInvalid (h : W32) : Bool := bit h 28

/-- A handle (R289); reserved bits are written 0. -/
def mkHandle (bidx gen own : Nat) (last skip invalid : Bool) : W32 :=
  BitVec.ofNat 32 (bidx % 2 ^ 12 + gen % 2 ^ 12 * 2 ^ 12 + own % 4 * 2 ^ 24 + b01 last * 2 ^ 26 + b01 skip * 2 ^ 27 +
    b01 invalid * 2 ^ 28)

/-- A handle with its flags replaced: LAST, SKIP and INVALID as given. -/
def withFlags (h : W32) (last skip invalid : Bool) : W32 :=
  mkHandle (hBidx h) (hGen h) (hOwn h) last skip invalid

/-- DEPTH of a queue (R290). -/
def HQueue.depth (x : HQueue) : Nat := fld x.w0 0 5
/-- The queue forwards. -/
def HQueue.isForward (x : HQueue) : Bool := fld x.w0 5 2 == 1
/-- OWN of a queue. -/
def HQueue.own (x : HQueue) : Nat := fld x.w0 17 2
/-- SEN of a queue: it is the target of the source named. -/
def HQueue.sen (x : HQueue) : Bool := bit x.w1 10

/-- The queue is off, or forwards: as INQ or FREEQ it satisfies the gate test, and the command is then refused (R133,
R291). -/
def HQueue.badGate (x : HQueue) : Bool := x.depth == 0 || x.isForward

/-- The device's own number: 0x7000:08, or 0 while none is provisioned (log 15). -/
def State.devNum (s : State) : Nat := if s.o 0x700008 = 0xFF then 0 else s.o 0x700008

/-- Who pushes a handle: an engine, by its order of R292 (core × 8 + ENG) and the context of its command, or a hub unit
(`none`); a forwarding source; the announcement of a window; or the hub's ingress unit creating a handle (R292, R295,
R296). -/
inductive Pusher where
  | local_ (engine : Option (Nat × Nat))
  | forwarded (dev unit q : Nat)
  | announcement (window : Nat)
  | created
  deriving DecidableEq, Repr

/-- The place of a pusher in the order of R292: engines in ascending core and ENG number, then arrivals. -/
def Pusher.order : Pusher → Nat
  | .local_ (some e) => e.1
  | _ => 192

/-- The context a push is logged against (R293). -/
def Pusher.ctx : Pusher → Option Nat
  | .local_ (some e) => some e.2
  | _ => none

/-- DETAIL of the log entry of a push to queue `q`: the queue, and for an announcement the window and 1 from bit 8 on (R271,
R293; log 169). -/
def Pusher.detail (q : Nat) : Pusher → Nat
  | .announcement n => q + (n + 1) * 2 ^ 8
  | _ => q

/-- A queue applies pushes of one cycle in the order of R292: one of place `k` comes too late after one of a later place. -/
def HQueue.pushTurn (x : HQueue) (cycle k : Nat) : Bool := x.pushCycle != cycle || decide (x.pushKey ≤ k)

/-- A queue serves the pops of one cycle in the order of R134. -/
def HQueue.popTurn (x : HQueue) (cycle k : Nat) : Bool := x.popCycle != cycle || decide (x.popKey ≤ k)

/-- The pushes of a queue in the current cycle find the occupancy that stood at its start (R292): the handles held plus
those popped, or credited, in this cycle. -/
def HQueue.startOcc (x : HQueue) (cycle : Nat) : Nat :=
  (if x.isForward then x.occ else x.items.length) + (if x.popCycle = cycle then x.popCount else 0)

/-- The source named by a target queue is the pusher (R296); a queue with SEN = 1 accepts nothing else. -/
def HQueue.acceptsFrom (x : HQueue) : Pusher → Bool
  | .forwarded d u q => x.sen && fld x.w1 0 2 == d && fld x.w1 2 3 == u && fld x.w1 5 5 == q
  | .created => true
  | .local_ _ => !x.sen
  | .announcement _ => !x.sen

/-- The queue accepts a handle (R292, R293, R296). -/
def HQueue.accepts (x : HQueue) (cycle : Nat) (h : W32) (p : Pusher) : Bool :=
  decide (x.startOcc cycle < x.depth) && hOwn h == x.own && x.acceptsFrom p

/-- A refused push (R293): the handle is discarded, VIOL increments and the event is logged against the pushing context and
the queue. -/
def State.refusePush (s : State) (u q : Nat) (h : W32) (p : Pusher) : State :=
  let x := s.hq u q
  let s1 := (s.setHq u q { x with viol := satAdd 255 x.viol 1 }).event 0x062 u 1
  s1.logEv 0x11 (if u = hubUnit then 7 else 2) u { own := some (hOwn h), ctx := p.ctx, detail := p.detail q }

/-- An accepted push (R292, R294, R295): a FORWARD queue counts it and passes it on; a LOCAL queue holds it, INVALID
where its generation is not the one the queue expects. A handle pushed in a cluster satisfies gates from t_HQ = 12 cycles
later (R144); a forwarded arrival is present from the first cycle that begins at its arrival or later (R297). -/
def State.acceptPush (s : State) (u q : Nat) (h : W32) (p : Pusher) : State :=
  let z := s.hq u q
  let cyc := s.unitCycle u
  let x := { z with pushCycle := cyc, pushKey := if z.pushCycle = cyc then max z.pushKey p.order else p.order }
  let s0 := (s.event 0x060 u 1).trace 3 u 7 none (q + 128) h.toNat
  if x.isForward then
    let t : Transit := ⟨u, q, fld x.w0 7 2, fld x.w0 9 3, fld x.w0 12 5, h⟩
    let s1 := s0.setHq u q { x with occ := x.occ + 1 }
    if t.dev = s.devNum then { s1 with forwards := s1.forwards ++ [t] }
    else
      let r := s1.sendPair 0x03 t.dev h.toNat u q t.unit t.q
      if r.2 then r.1 else s0.setHq u q { x with viol := satAdd 255 x.viol 1 }
  else
    let stale := bit x.w0 19 && hGen h != fld x.w0 20 12
    let h1 := if stale then withFlags h (hLast h) (hSkip h) true else h
    let vis := match p with
      | .forwarded _ _ _ => if u = hubUnit ∨ (s.cluster u).frac = 0 then cyc else cyc + 1
      | _ => if u = hubUnit then cyc else cyc + 12
    let fwd := match p with
      | .forwarded _ _ _ => true
      | _ => false
    let y := { x with items := x.items ++ [⟨h1, vis, fwd⟩], genbad := if stale then satAdd 255 x.genbad 1 else x.genbad }
    let s1 := s0.setHq u q y
    if stale then
      (s1.event 0x063 u 1).logEv 0x11 (if u = hubUnit then 7 else 2) u { own := some (hOwn h), ctx := p.ctx, detail := p.detail q }
    else s1

/-- One handle pushed to queue `q` of unit `u`. -/
def State.push (s : State) (u q : Nat) (h : W32) (p : Pusher) : State :=
  if (s.hq u q).accepts (s.unitCycle u) h p then s.acceptPush u q h p else s.refusePush u q h p

/-- Several handles pushed in order. -/
def State.pushAll (s : State) (u q : Nat) (l : List W32) (p : Pusher) : State :=
  l.foldl (fun s h => s.push u q h p) s

/-- The handles of a queue that satisfy a gate now. -/
def State.ready (s : State) (u q : Nat) : Nat :=
  ((s.hq u q).items.filter (fun x => decide (x.vis ≤ s.unitCycle u))).length

/-- The credit that the pop of a forwarded handle sends back (R295). -/
def creditOf (x : HQueue) (u q : Nat) (i : QHandle) : List Transit :=
  if i.fwd then [⟨u, q, fld x.w1 0 2, fld x.w1 2 3, fld x.w1 5 5, 0⟩] else []

/-- A credit sets out for its source: within the device, or in a CREDIT frame; one for a device that no link in UP faces
is discarded and counted in VIOL (R467). -/
def State.sendCredit (s : State) (t : Transit) : State :=
  if t.dev = s.devNum then { s with credits := s.credits ++ [t] }
  else
    let r := s.sendPair 0x04 t.dev 1 t.unit t.q t.srcUnit t.srcQ
    if r.2 then r.1
    else
      let x := s.hq t.srcUnit t.srcQ
      s.setHq t.srcUnit t.srcQ { x with viol := satAdd 255 x.viol 1 }

/-- The oldest `n` handles of a queue taken (R291) by the engine of place `k` in the order of R134; each that came by
forwarding sends a credit back. -/
def State.pop (s : State) (u q n k : Nat) : List W32 × State :=
  let x := s.hq u q
  let got := x.items.take n
  let cyc := s.unitCycle u
  let y := { x with items := x.items.drop n, popCycle := cyc, popKey := k,
                    popCount := (if x.popCycle = cyc then x.popCount else 0) + got.length }
  let s1 := (got.flatMap (creditOf x u q)).foldl State.sendCredit (s.setHq u q y)
  (got.map (fun i => i.h), s1.event 0x061 u got.length)

/-- The first element of a list that satisfies a test, and the list without it. -/
def takeFirst {α : Type} (p : α → Bool) : List α → Option (α × List α)
  | [] => none
  | x :: r => if p x then some (x, r) else (takeFirst p r).map (fun y => (y.1, x :: y.2))

/-- A handle that a peer's HANDLE frame or this device's own forwarding brings to its target queue (R295, R296). -/
def State.arrive (s : State) (srcDev srcUnit srcQ unit q : Nat) (h : W32) : State :=
  s.push unit q h (.forwarded srcDev srcUnit srcQ)

/-- A credit that arrives at its source: OCC falls by one, which pushes of the same cycle do not find yet (R292, R295). -/
def State.credit (s : State) (u q : Nat) : State :=
  let x := s.hq u q
  let cyc := s.unitCycle u
  s.setHq u q { x with occ := x.occ - 1, popCycle := cyc, popKey := 0,
                       popCount := (if x.popCycle = cyc then x.popCount else 0) + min 1 x.occ }

/-- HANDLE_FORWARD_ARRIVAL (R295): the oldest handle on its way from queue `q` of unit `u` to a queue of this device
arrives there. At a cluster in retention it waits (R596). -/
def State.forwardArrival (s : State) (u q : Nat) : State :=
  match takeFirst (fun t : Transit => t.srcUnit == u && t.srcQ == q && t.dev == s.devNum) s.forwards with
  | some (t, r) =>
    if t.unit < 6 ∧ s.stopped t.unit = true then s else ({ s with forwards := r }).arrive s.devNum u q t.unit t.q t.h
  | none => s

/-- CREDIT_ARRIVAL (R295): the oldest credit on its way to FORWARD queue `q` of unit `u` of this device arrives. -/
def State.creditArrival (s : State) (u q : Nat) : State :=
  match takeFirst (fun t : Transit => t.unit == u && t.q == q && t.dev == s.devNum) s.credits with
  | some (_, r) => if u < 6 ∧ s.stopped u = true then s else ({ s with credits := r }).credit u q
  | none => s

/-- The configured target of a FORWARD queue names it back with SEN = 1: the pair is complete (R296). -/
def State.pairComplete (s : State) (u q : Nat) : Bool :=
  let x := s.hq u q
  let y := s.hq (fld x.w0 9 3) (fld x.w0 12 5)
  x.isForward && fld x.w0 7 2 == s.devNum && !y.isForward &&
    y.acceptsFrom (.forwarded s.devNum u q)

/-- The pair of a FORWARD queue, if complete, is no deeper at its source than at its target (R296). -/
def State.pairFits (s : State) (u q : Nat) : Bool :=
  let x := s.hq u q
  !s.pairComplete u q || decide (x.depth ≤ (s.hq (fld x.w0 9 3) (fld x.w0 12 5)).depth)

/-- Every complete pair that has queue `q` of unit `u` at an end fits. -/
def State.endsFit (s : State) (u q : Nat) : Bool :=
  let y := s.hq u q
  s.pairFits u q && s.pairFits (fld y.w1 2 3) (fld y.w1 5 5)

/-- A configuration word is legal: DEPTH at most 16, MODE LOCAL or FORWARD, TCL not 6, TQ at most 30, reserved bits 0 (R15,
R290). -/
def hqWordOk (w : Nat) (v : W32) : Bool :=
  if w = 0 then decide (fld v 0 5 ≤ 16) && decide (fld v 5 2 ≤ 1) && fld v 9 3 != 6 && fld v 12 5 != 31
  else fld v 11 21 == 0

/-- HANDLE_QUEUE_CONFIG (R290, R296): the word is written, or, where it is illegal or a complete pair would have too deep a
source, it is refused and logged and the queue keeps its value. Changing the configuration
of a queue keeps its contents. A cluster has queues 0 to 30, the hub also queue 31 (R304). -/
def State.configQueue (s : State) (u q w : Nat) (v : W32) : State :=
  let x := s.hq u q
  let t := s.setHq u q (if w = 0 then { x with w0 := v } else { x with w1 := v })
  if hqWordOk w v && (q != 31 || u == hubUnit) && t.endsFit u q then t
  else s.logEv 0x26 (if u = hubUnit then 7 else 2) u { detail := q }

end Sys2Proof.Machine
end

