-- ==== Sys2Proof/Machine/Operands.lean ====
section
/-! DEFINITION. The operands of engine commands: the common words (R160), the reserved bits of each opcode (R168), views,
geometries and their effective bases (R162 to R167), the shapes, the bytes a command reaches (R169) and the reading and
writing of its elements. -/

namespace Sys2Proof
open Machine

/-! ### The common words (R160) -/

/-- OPC. -/
def Cmd.opc (c : Cmd) : Nat := fld c.w0 0 8
/-- ENG. -/
def Cmd.eng (c : Cmd) : Nat := fld c.w0 8 3
/-- PNEG. -/
def Cmd.pneg (c : Cmd) : Bool := bit c.w0 11
/-- PSEL. -/
def Cmd.psel (c : Cmd) : Nat := fld c.w0 12 4
/-- CTX. -/
def Cmd.ctx (c : Cmd) : Nat := fld c.w0 16 6
/-- OWN. -/
def Cmd.own (c : Cmd) : Nat := fld c.w0 22 2
/-- MARK flag. -/
def Cmd.markFlag (c : Cmd) : Bool := bit c.w0 24
/-- SLOT_END. -/
def Cmd.slotEnd (c : Cmd) : Bool := bit c.w0 25
/-- RAMP_EXEMPT. -/
def Cmd.rampExempt (c : Cmd) : Bool := bit c.w0 26
/-- B of R147, in cycles. -/
def Cmd.budget (c : Cmd) : Nat := 16 * fld c.w1 0 16
/-- AT, in units of 4 cycles. -/
def Cmd.at_ (c : Cmd) : Nat := fld c.w1 16 16
/-- INQ and IN_N. -/
def Cmd.inq (c : Cmd) : Nat := fld c.w2 0 5
/-- IN_N. -/
def Cmd.inN (c : Cmd) : Nat := fld c.w2 5 3
/-- FREEQ. -/
def Cmd.freeq (c : Cmd) : Nat := fld c.w2 8 5
/-- FREE_N. -/
def Cmd.freeN (c : Cmd) : Nat := fld c.w2 13 3
/-- OUTQ. -/
def Cmd.outq (c : Cmd) : Nat := fld c.w2 16 5
/-- OUT_N. -/
def Cmd.outN (c : Cmd) : Nat := fld c.w2 21 3
/-- RETQ. -/
def Cmd.retq (c : Cmd) : Nat := fld c.w2 24 5
/-- RET_N. -/
def Cmd.retN (c : Cmd) : Nat := fld c.w2 29 3

/-- The opcodes, by the map of R161. -/
def opcOf : Nat → Option Eng
  | 0x00 => some .seq | 0x01 => some .seq | 0x02 => some .seq | 0x03 => some .seq | 0x04 => some .seq
  | 0x05 => some .seq
  | 0x10 => some .me | 0x11 => some .me | 0x12 => some .me | 0x13 => some .me | 0x14 => some .me
  | n => if 0x30 ≤ n ∧ n ≤ 0x3E then some .ve
         else if (0x50 ≤ n ∧ n ≤ 0x54) ∨ (0x60 ≤ n ∧ n ≤ 0x62) then some .se0
         else none

/-- R161: the opcode executes on the engine the command names; the stream opcodes on either stream engine. -/
def Cmd.opcodeOk (c : Cmd) : Bool :=
  match opcOf c.opc with
  | some .se0 => c.eng == 2 || c.eng == 3
  | some e => c.eng == engCode e
  | none => false

/-- The operand bits each opcode uses in words 3 to 7 (R171, R173, R177, R181, R183, R188). -/
def operandMask : Nat → List Nat
  | 0x00 => [0, 0, 0, 0, 0]
  | 0x01 => [0x7, 0xFFFFFFFF, 0, 0, 0]
  | 0x02 => [0x7, 0xFFFFFFFF, 0, 0, 0]
  | 0x03 => [0x773, 0xFFFFFFFF, 0, 0, 0]
  | 0x04 => [0xFFF, 0, 0, 0, 0]
  | 0x05 => [0xFFFFFFFF, 0xFFFFFFFF, 0xFFFFF, 0, 0]
  | 0x10 => [0x7FFFFFFF, 0xFFFFFFFF, 0x07FF07FF, 0, 0]
  | 0x11 => [0x7FFFFFFF, 0xFFFFFFFF, 0x07FF07FF, 0, 0]
  | 0x12 => [0x7FFFFFFF, 0xFFFFFFFF, 0x07FF7FFF, 0xFFFFFFFF, 0x0FFFFFFF]
  | 0x13 => [0x3F, 0x07FF07FF, 0, 0, 0]
  | 0x14 => [0, 0, 0, 0, 0]
  | 0x30 => [0x07FFFFFF, 0xFFFFFFFF, 0x7F, 0xFFFFFFFF, 0]
  | 0x31 => [0x07FFFFFF, 0xFFFFFFFF, 0xF7, 0xFFFFFFFF, 0]
  | 0x32 => [0x07FFFFFF, 0xFFFFFFFF, 0, 0xFFFFFFFF, 0]
  | 0x33 => [0x07FFFFFF, 0xFFFFFFFF, 0x3, 0xFFFFFFFF, 0]
  | 0x34 => [0x07FFFFFF, 0xFFFFFFFF, 0, 0xFFFFFFFF, 0xFFFFFFFF]
  | 0x35 => [0x07FFFFFF, 0xFFFFFFFF, 0xFFFF, 0xFFFFFFFF, 0xFFFF]
  | 0x36 => [0x07FFFFFF, 0xFFFFFFFF, 0xFFFF0FFF, 0xFFFFFFFF, 0xFFFF]
  | 0x37 => [0x07FFFFFF, 0xFFFFFFFF, 0xFFFF0FFF, 0xFFFFFFFF, 0xFFFF]
  | 0x38 => [0x07FFFFFF, 0, 0x0FFF07FF, 0xFFFFFF, 0]
  | 0x39 => [0x07FFFFFF, 0xFFFFFFFF, 0x3FFFF, 0xFFFFFFFF, 0xFFFFFFFF]
  | 0x3A => [0x07FFFFFF, 0xFFFFFFFF, 0x1FFFF, 0xFFFFFFFF, 0xFFFFFFFF]
  | 0x3B => [0x07FFFFFF, 0xFFFFFFFF, 0xFFFFFFFF, 0xFFFF07FF, 0xFFFFFFFF]
  | 0x3C => [0x07FFFFFF, 0xFFFFFFFF, 0x7F, 0, 0]
  | 0x3D => [0x07FFFFFF, 0xFFFFFFFF, 0x7FFF, 0, 0]
  | 0x3E => [0x07FFFFFF, 0xFFFFFFFF, 0x17FFF, 0, 0]
  | 0x50 => [0x1FFF, 0xFFFF, 0, 0, 0]
  | 0x51 => [0x1FFF, 0xFFFF, 0, 0, 0]
  | 0x52 => [0x3F, 0xFFFF, 0xFFFFFFFF, 0, 0]
  | 0x53 => [0xFFF, 0xFFFF, 0, 0, 0]
  | 0x54 => [0x7FFF, 0xFFFF, 0xFFFFF, 0, 0]
  | 0x60 => [0x1FF, 0xFFFFFF, 0, 0, 0]
  | _ => [0, 0, 0, 0, 0]

/-- No bit of `v` stands outside `mask`. -/
def withinMask (v : W32) (mask : Nat) : Bool := v &&& BitVec.ofNat 32 (2 ^ 32 - 1 - mask) == 0

/-- Every reserved operand bit is 0. -/
def Cmd.reservedOk (c : Cmd) : Bool :=
  ([c.w3, c.w4, c.w5, c.w6, c.w7].zip (operandMask c.opc)).all (fun p => withinMask p.1 p.2)

/-! ### Fields of the operand words -/

/-- The six-bit view number `i` of word 3: AV or XV, BV or YV, CV or ZV, XV or SV (R173, R180). -/
def Cmd.viewNo (c : Cmd) (i : Nat) : Nat := fld c.w3 (6 * i) 6
/-- INIT of a matrix command. -/
def Cmd.init (c : Cmd) : Nat := fld c.w3 24 2
/-- DRAIN = HOLD. -/
def Cmd.hold (c : Cmd) : Bool := bit c.w3 26
/-- TA. -/
def Cmd.ta (c : Cmd) : Bool := bit c.w3 27
/-- TB. -/
def Cmd.tb (c : Cmd) : Bool := bit c.w3 28
/-- SATF of a matrix command. -/
def Cmd.meSatf (c : Cmd) : Bool := bit c.w3 29
/-- BI32: the bias elements are INT32. -/
def Cmd.bi32 (c : Cmd) : Bool := bit c.w3 30
/-- M. -/
def Cmd.m (c : Cmd) : Nat := fld c.w4 0 16
/-- K of MMA and MMA_CHIVE, CI of CONV_TAPS. -/
def Cmd.k (c : Cmd) : Nat := fld c.w4 16 16
/-- N. -/
def Cmd.n (c : Cmd) : Nat := fld c.w5 0 11 + 1
/-- CH_BASE of a matrix command. -/
def Cmd.chBase (c : Cmd) : Nat := fld c.w5 16 11
/-- RND of a vector command. -/
def Cmd.rnd (c : Cmd) : Nat := fld c.w3 24 2
/-- SATF of a vector command. -/
def Cmd.veSatf (c : Cmd) : Bool := bit c.w3 26
/-- Row length of a vector command. -/
def Cmd.len (c : Cmd) : Nat := fld c.w4 0 16 + 1
/-- Row count of a vector command. -/
def Cmd.rows (c : Cmd) : Nat := fld c.w4 16 16 + 1
/-- FUNC of ELEM. -/
def Cmd.func (c : Cmd) : Nat := fld c.w5 0 6
/-- YS of ELEM. -/
def Cmd.ys (c : Cmd) : Bool := bit c.w5 6
/-- SUB of a random or rounding command (R181). -/
def Cmd.sub (c : Cmd) : Nat :=
  match c.opc with
  | 0x35 => fld c.w5 0 16 | 0x36 => fld c.w5 16 16 | 0x37 => fld c.w5 16 16 | 0x39 => fld c.w5 0 16
  | 0x3A => fld c.w5 0 16 | 0x3B => fld c.w6 16 16 | _ => 0
/-- IBASE (R181, R183). -/
def Cmd.ibase (c : Cmd) : Nat :=
  match c.opc with
  | 0x35 => c.w6.toNat + fld c.w7 0 16 * 2 ^ 32 | 0x36 => c.w6.toNat + fld c.w7 0 16 * 2 ^ 32
  | 0x37 => c.w6.toNat + fld c.w7 0 16 * 2 ^ 32 | 0x39 => c.w6.toNat + fld c.w7 0 16 * 2 ^ 32
  | 0x3A => c.w6.toNat + fld c.w7 0 16 * 2 ^ 32 | 0x3B => c.w7.toNat | _ => 0
/-- The granule count of FILL, COPY and WIN_WRITE (R186). -/
def Cmd.granules (c : Cmd) : Nat := fld c.w4 0 16 + 1

/-- ELEM functions that read X only (R193). -/
def unaryFunc (f : Nat) : Bool := f == 6 || f == 7 || (0xB ≤ f && f ≤ 0xF)

/-- The views an opcode uses, of the four of word 3 (R164, R173, R177, R181, R185 to R187). -/
def Cmd.usesViews (c : Cmd) : List Bool :=
  match c.opc with
  | 0x10 => [true, true, true, c.init == 1]
  | 0x11 => [true, true, true, c.init == 1]
  | 0x12 => [true, true, true, c.init == 1]
  | 0x13 => [true, false, false, false]
  | 0x30 => [true, !c.ys && !unaryFunc c.func, true, c.func == 3 || c.func == 0xA]
  | 0x31 => [true, false, true, false]
  | 0x32 => [true, false, true, false]
  | 0x33 => [true, bit c.w5 1, true, bit c.w5 1]
  | 0x34 => [true, false, true, true]
  | 0x35 => [true, false, true, false]
  | 0x36 => [true, false, true, false]
  | 0x37 => [true, false, true, false]
  | 0x39 => [false, false, true, false]
  | 0x3A => [true, bit c.w5 16, true, false]
  | 0x3B => [true, false, true, false]
  | 0x3C => [true, false, true, false]
  | 0x3D => [true, true, true, false]
  | 0x3E => [true, true, true, false]
  | 0x50 => [true, false, false, false]
  | 0x51 => [true, false, false, false]
  | 0x52 => [true, false, false, false]
  | 0x53 => [true, true, false, false]
  | 0x54 => [true, false, false, false]
  | _ => [false, false, false, false]

/-- A matrix or vector command: word 3 holds four view fields, and one not used must be 0 (R164). -/
def Cmd.fourViews (c : Cmd) : Bool := (0x10 ≤ c.opc && c.opc ≤ 0x12) || (0x30 ≤ c.opc && c.opc ≤ 0x3E)

/-- A view not used by the opcode is not 0 (R164). -/
def Cmd.strayView (c : Cmd) : Bool :=
  c.fourViews && ((List.range 4).zip c.usesViews).any (fun p => !p.2 && c.viewNo p.1 != 0)

/-- SUB or IBASE is not 0 where R183 requires 0. -/
def Cmd.strayIndex (c : Cmd) : Bool :=
  (0x35 ≤ c.opc && c.opc ≤ 0x37) && c.rnd == 0 && (c.sub != 0 || c.ibase != 0)

/-- The geometry entry a command names, if its opcode names one (R166). -/
def Cmd.geoNo (c : Cmd) : Option Nat :=
  match c.opc with
  | 0x12 => some (fld c.w5 11 4)
  | 0x3C => some (fld c.w5 0 4)
  | _ => none

end Sys2Proof

namespace Sys2Proof.Machine

/-! ### Views and geometries -/

/-- The view of all zeros, for a view a command does not use. -/
def View.none_ : View := ⟨0, 0, 0, false, 0, 0, 0⟩

/-- Word `w` of view entry `n` of a core. -/
def Core.viewWord (x : Core) (n w : Nat) : W32 := Tbl.get 0 x.views (n * 4 + w)

/-- HSEL of view entry `n`. -/
def Core.viewHsel (x : Core) (n : Nat) : Nat := fld (x.viewWord n 1) 25 3

/-- The buffer index that selects a view's buffer (R163): that of handle HSEL, or 0. -/
def Core.viewBuf (x : Core) (n : Nat) (hs : List W32) : Nat :=
  if x.viewHsel n = 0 then 0 else ((hs[x.viewHsel n - 1]?).map hBidx).getD 0

/-- The view as latched at issue (R163, R165). -/
def Core.latch (x : Core) (n : Nat) (hs : List W32) : View :=
  let w0 := x.viewWord n 0
  let w1 := x.viewWord n 1
  let w2 := x.viewWord n 2
  let w3 := x.viewWord n 3
  let b := x.viewBuf n hs
  { base := fld w0 0 21 + b01 (bit w1 28) * 2 ^ 21 + b * 1024 * fld w2 21 11
    sbase := fld w3 0 21 + b01 (bit w1 29) * 2 ^ 21 + b * 64 * fld w3 21 11
    fmt := fld w0 21 4
    cm := bit w0 25
    stride := fld w1 0 21
    pitch := fld w2 0 21
    bufn := fld w1 21 4 }

/-- VIEW of R163 and R164: the entry is not valid, is another context's, names a handle beyond those popped, or a buffer
beyond BUFN. -/
def Core.viewBad (x : Core) (n : Nat) (ctx handles : Nat) (hs : List W32) : Bool :=
  !bit (x.viewWord n 1) 31 || fld (x.viewWord n 0) 26 6 != ctx || decide (handles < x.viewHsel n) ||
    decide (fld (x.viewWord n 1) 21 4 < x.viewBuf n hs)

/-- Word `w` of geometry entry `n`. -/
def Core.geoWord (x : Core) (n w : Nat) : W32 := Tbl.get 0 x.geos (n * 8 + w)

/-- VIEW of R167: the entry is not valid, is another context's, or holds a zero stride, dilation or dimension. -/
def Core.geoBad (x : Core) (n ctx : Nat) : Bool :=
  !bit (x.geoWord n 5) 31 || fld (x.geoWord n 5) 8 6 != ctx ||
    [0, 1, 3, 4].any (fun w => fld (x.geoWord n w) 0 16 == 0 || fld (x.geoWord n w) 16 16 == 0)

/-- A geometry as latched (R166). -/
structure Geo where
  sy : Nat
  sx : Nat
  dy : Nat
  dx : Nat
  py : Nat
  px : Nat
  ih : Nat
  iw : Nat
  oh : Nat
  ow : Nat
  ky : Nat
  kx : Nat
  padv : Nat
  deriving DecidableEq, Repr

/-- The geometry that eight words describe; `ky` and `kx` are the tap counts. -/
def geoOf (w : List W32) : Geo :=
  let f (i lo : Nat) := fld (w.getD i 0) lo 16
  { sy := f 0 0, sx := f 0 16, dy := f 1 0, dx := f 1 16, py := f 2 0, px := f 2 16, ih := f 3 0, iw := f 3 16
    oh := f 4 0, ow := f 4 16, ky := fld (w.getD 5 0) 0 4 + 1, kx := fld (w.getD 5 0) 4 4 + 1
    padv := (w.getD 6 0).toNat }

/-- R209: the input position of an output position and tap, or none for a pad position. -/
def Geo.input (g : Geo) (oy ox ky kx : Nat) : Option (Nat × Nat) :=
  let iy := oy * g.sy + ky * g.dy
  let ix := ox * g.sx + kx * g.dx
  if g.py ≤ iy ∧ iy - g.py < g.ih ∧ g.px ≤ ix ∧ ix - g.px < g.iw then some (iy - g.py, ix - g.px) else none

/-- The format of a view, with INT8 in place of a reserved code (which FORMAT has refused). -/
def View.format (v : View) : Fmt := (Fmt.ofCode v.fmt).getD .int8

/-- The format code is ACC40 or reserved (R69). -/
def View.badFormat (v : View) : Bool := decide (13 ≤ v.fmt)

/-! ### Elements in memory -/

/-- The code of element `j` of a row of a format that starts at byte address `a` (R71). -/
def State.elem (s : State) (f : Fmt) (a j : Nat) : Nat :=
  let lo := j * f.bits
  nfld (leNat (s.bytes (a + lo / 8) (cdiv (lo % 8 + f.bits) 8))) (lo % 8) f.bits

/-- The bytes of a row of codes, packed from the least significant end and padded with zeros to a packing group or, in a
block format, to a whole block (R71, R72, R75). -/
def packRow (f : Fmt) (l : List Nat) : List Byte :=
  leBytes (f.padBytes l.length) (l.foldr (fun c acc => c % 2 ^ f.bits + acc * 2 ^ f.bits) 0)

/-- The address of a byte offset of a view's memory, as the command's core sees it. -/
def View.addr (v : View) (c off : Nat) : Nat := if v.cm then cmAddr (c / 4) off else spadAddr c off

/-- The scale byte of the block that begins at offset `o` from the effective base (R75, R174). -/
def State.scaleByte (s : State) (c : Nat) (v : View) (o : Nat) : Nat :=
  if v.format.isBlock then (s.byte (v.addr c (v.sbase + o / v.format.blockBytes))).toNat else 0

/-- The operand at element `j` of the run that starts at offset `o` from the effective base of a view. -/
def State.operand (s : State) (c : Nat) (v : View) (o j : Nat) : Operand :=
  { fmt := v.format, code := s.elem v.format (v.addr c (v.base + o)) j
    scale := s.scaleByte c v (o + j / 32 * v.format.blockBytes) }

/-- The exact value at element `j` of the run at offset `o`. -/
def State.value (s : State) (c : Nat) (v : View) (o j : Nat) : Num := (s.operand c v o j).value

/-! ### Extents (R169) -/

/-- A set of bytes of one memory: runs of offset and length. -/
structure Extent where
  cm : Bool
  runs : List (Nat × Nat)
  deriving DecidableEq, Repr

/-- `n` runs of `len` bytes, `step` apart. -/
def runsOf (base step n len : Nat) : List (Nat × Nat) := (List.range n).map (fun i => (base + i * step, len))

/-- The bytes that hold `n` elements of a format, without padding. -/
def Fmt.span (f : Fmt) (n : Nat) : Nat := cdiv (n * f.bits) 8

/-- The runs of the scale bytes that belong to element runs given as offsets from the effective base and counts. -/
def scaleRuns (v : View) (l : List (Nat × Nat)) : List (Nat × Nat) :=
  if v.format.isBlock then l.map (fun p => (v.sbase + p.1 / v.format.blockBytes, cdiv p.2 32)) else []

/-- The extent of a view for element runs given as offsets from the effective base and element counts. -/
def View.extent (v : View) (l : List (Nat × Nat)) : Extent :=
  { cm := v.cm, runs := (l.filter (fun p => p.2 != 0)).map (fun p => (v.base + p.1, v.format.span p.2)) ++
      scaleRuns v (l.filter (fun p => p.2 != 0)) }

/-- The extent that a command writes through a view: element runs with their padding (R72, R75), and the scale bytes. -/
def View.written (v : View) (l : List (Nat × Nat)) : Extent :=
  { cm := v.cm, runs := (l.filter (fun p => p.2 != 0)).map (fun p => (v.base + p.1, v.format.padBytes p.2)) ++
      scaleRuns v (l.filter (fun p => p.2 != 0)) }

/-- The extent reaches beyond the memory present (ADDRESS of R168): 2 MiB of a scratchpad, 4 MiB of a cluster memory. -/
def Extent.outside (x : Extent) : Bool :=
  x.runs.any (fun p => decide ((if x.cm then 0x400000 else 0x200000) < p.1 + p.2))

/-- The region table's answer over an extent, for a command of an owner on core `c`. -/
def State.extentPermits (s : State) (c own : Nat) (x : Extent) : Permit :=
  let ps := x.runs.map (fun p => s.omapPermits (if x.cm then 24 + c / 4 else c) p.1 p.2 own)
  if ps.any (· == .refused) then .refused else if ps.any (· == .retry) then .retry else .granted

/-- Two extents share a byte (R192). -/
def Extent.meets (x y : Extent) : Bool :=
  x.cm == y.cm && x.runs.any (fun p => y.runs.any (fun q => decide (p.1 < q.1 + q.2) && decide (q.1 < p.1 + p.2)))

/-- Reads a whole extent: the state after it and whether it met a poisoned or uncorrectable word (R273). -/
def State.readExtent (s : State) (c : Nat) (x : Extent) : State × Bool :=
  x.runs.foldl (fun acc p =>
    let r := acc.1.sramRead (if x.cm then cmAddr (c / 4) p.1 else spadAddr c p.1) p.2
    (r.1, acc.2 || r.2)) (s, false)

/-- The alignment of R96 for a slice of `s` bytes: the smaller of 64 and the least power of two that is at least s. -/
def sliceAlign (s : Nat) : Nat := min 64 (2 ^ (bitLength (s - 1)))

/-- Every number of a list is a multiple of `a`. -/
def aligned (a : Nat) (l : List Nat) : Bool := l.all (fun x => x % a == 0)

/-! ### The array (R116) -/

/-- The physical columns in use, upward: those that no enabled bypass slot names. -/
def Core.columns (x : Core) : List Nat :=
  (List.range 32).filter (fun j =>
    !(bit x.meCfg 5 && fld x.meCfg 0 5 == j) && !(bit x.meCfg 13 && fld x.meCfg 8 5 == j))

/-- W: the array width. -/
def Core.width (x : Core) : Nat := x.columns.length

/-- ME.CFG.RETIRED. -/
def Core.retired (x : Core) : Bool := bit x.meCfg 17

/-- ME.CFG.FILL_MODE. -/
def Core.fillMode (x : Core) : Bool := bit x.meCfg 16

end Sys2Proof.Machine
end

