-- ==== Sys2Proof/Machine/Flags.lean ====
section
/-! DEFINITION. Flags: predicate bits and comparators (R150 to R154), the outcome of a command at issue (R138) and the
flags of the handles it pushes (R136, R138, R188). -/

namespace Sys2Proof.Machine

/-- The predicate bank of a class: bank 0 for real-time commands, bank 1 for best-effort ones (R150). -/
def Core.pred (x : Core) (rt : Bool) : PredBank := Tbl.get PredBank.reset x.preds (if rt then 0 else 1)

/-- The core with a class's predicate bank replaced. -/
def Core.setPred (x : Core) (rt : Bool) (b : PredBank) : Core :=
  { x with preds := Tbl.set PredBank.reset x.preds (if rt then 0 else 1) b }

/-- Counter `n` of a bank. -/
def PredBank.counter (b : PredBank) (n : Nat) : W32 := Tbl.get 0 b.counters n

/-- The bank with counter `n` set. -/
def PredBank.setCounter (b : PredBank) (n : Nat) (v : W32) : PredBank :=
  { b with counters := Tbl.set 0 b.counters n v }

/-- Comparator `i` (0 for comparator 1). -/
def PredBank.comparator (b : PredBank) (i : Nat) : Comparator := Tbl.get Comparator.reset b.comparators i

/-- The relation of a comparator holds between a counter and its limit (R154, R171). -/
def relHolds (rel : Nat) (a b : W32) : Bool :=
  match rel with
  | 0 => a == b
  | 1 => a != b
  | 2 => decide (a.toNat < b.toNat)
  | 3 => decide (b.toNat ≤ a.toNat)
  | 4 => decide (a.toInt < b.toInt)
  | _ => decide (b.toInt ≤ a.toInt)

/-- Predicate bit Pn (R152): P1 to P4 are the live outputs of the comparators, P5 to P8 are stored. -/
def PredBank.bit (b : PredBank) (n : Nat) : Bool :=
  if n ≤ 4 then
    let c := b.comparator (n - 1)
    relHolds c.rel (b.counter c.cnt) c.limit
  else nbit b.p58 (n - 5)

/-- The bank about to be written in cycle `now`: what stands at the start of the cycle is kept beside it (R151). -/
def PredBank.latch (b : PredBank) (now : Nat) : PredBank :=
  if b.changedAt = now + 1 then b else { b with changedAt := now + 1, was := (b.counters, b.comparators, b.p58) }

/-- The bank as it stood at the start of cycle `now` (R131, R151, R154: t_PV is 1). -/
def PredBank.atStart (b : PredBank) (now : Nat) : PredBank :=
  if b.changedAt = now + 1 then { b with counters := b.was.1, comparators := b.was.2.1, p58 := b.was.2.2 } else b

/-- The bank with P(5 + i) set to a value. -/
def PredBank.setBit (b : PredBank) (i : Nat) (v : Bool) : PredBank := { b with p58 := nput b.p58 i 1 (b01 v) }

/-- A SETP has written P(5 + i) in this cycle, so no other writer of the cycle does (R152). -/
def PredBank.setpWins (b : PredBank) (i now : Nat) : Bool := b.setpAt == now + 1 && nbit b.setpMask i

/-- SETP: sets, clears or inverts each of P5 to P8 (R153, R171); the masks share no bit (R172). `p` are the bits as they
stand, `start` those at the start of the cycle, which a bit inverted is taken from (R151). -/
def setpBits (p start setm clrm invm : Nat) : Nat :=
  (List.range 4).foldl (fun acc i =>
    let new := if nbit setm i then true else if nbit clrm i then false else if nbit invm i then !nbit start i else nbit p i
    acc + b01 new * 2 ^ i) 0

/-- The command's predicate holds in cycle `now`: it is read once, from the bank as the cycle began (R151). -/
def Core.predicate (x : Core) (c : Cmd) (rt : Bool) (now : Nat) : Bool :=
  c.psel == 0 || (((x.pred rt).atStart now).bit c.psel != c.pneg)

/-- What becomes of a command at issue, by the first row of R138 that applies. -/
inductive Outcome where
  | refused (status : Nat)
  | invalid
  | skipped
  | executes
  deriving DecidableEq, Repr

/-- R138: refused under R135; a popped input carries INVALID; a popped input carries SKIP; the predicate is false;
otherwise the command executes. -/
def outcomeOf (status : Nat) (ins : List W32) (pred : Bool) : Outcome :=
  if status ≠ 0 then .refused status
  else if ins.any hInvalid then .invalid
  else if ins.any hSkip then .skipped
  else if !pred then .skipped
  else .executes

/-- The output handles of a command (R136, R138, R188): the free handles in the order popped, with LAST of any popped
input and the flag of the outcome; HMARK sets LAST on each, HBUMP raises each generation by one. -/
def outHandles (c : Cmd) (ins frees : List W32) (skip invalid : Bool) (executed : Bool) : List W32 :=
  let last := ins.any hLast || (executed && c.opc == 0x61)
  frees.map (fun h =>
    mkHandle (hBidx h) (if executed && c.opc == 0x62 then hGen h + 1 else hGen h) (hOwn h) last skip invalid)

/-- Every queue that a command pushes to takes a push of its engine in this cycle (R292). -/
def State.pushTurn (s : State) (core : Nat) (c : Cmd) : Bool :=
  ([c.outq, c.retq] ++ (if c.opc = 0x60 then [fld c.w3 0 5] else [])).all (fun q =>
    q == 31 || (s.hq (core / 4) q).pushTurn (s.coreCycle core) (core * 8 + c.eng))

/-- Every queue that a command pops serves a pop of its engine in this cycle (R134). -/
def State.popTurn (s : State) (core : Nat) (c : Cmd) : Bool :=
  [c.inq, c.freeq].all (fun q => q == 31 || (s.hq (core / 4) q).popTurn (s.coreCycle core) (core * 8 + c.eng))

/-- The handles of a command pushed at its retirement: outputs to OUTQ, consumed handles to RETQ with their flags
unchanged, and the handles an executed HINIT creates to HQ (R136, R188). -/
def State.pushOutputs (s : State) (core : Nat) (c : Cmd) (ins frees : List W32) (skip invalid executed : Bool) : State :=
  let u := core / 4
  let p := Pusher.local_ (some (core * 8 + c.eng, c.ctx))
  let s1 := s.pushAll u c.outq (outHandles c ins frees skip invalid executed) p
  let s2 := s1.pushAll u c.retq ins p
  if executed && c.opc == 0x60 then
    let cnt := fld c.w3 5 4 + 1
    s2.pushAll u (fld c.w3 0 5)
      ((List.range cnt).map (fun i => mkHandle (fld c.w4 0 12 + i) (fld c.w4 12 12) c.own false false false)) p
  else s2

end Sys2Proof.Machine
end

