-- ==== Sys2Proof/Machine/Shapes.lean ====
section
/-! DEFINITION. The shapes of engine commands: tiles, granules and cycle formulas (R94, R100, R110, R111, R115, R123,
R177, R181, R186, R213, R214), and the bytes each command reads and writes (R95, R104, R176, R205, R208, R215, R217, R280). -/

namespace Sys2Proof.Machine

/-- Everything latched at issue that the shape of a command depends on. -/
structure Bound where
  cmd : Cmd
  views : List View
  geo : List W32
  sdesc : List W32
  /-- Columns of one tile: W, or 8W in Chive mode. -/
  width : Nat
  deriving DecidableEq, Repr

/-- The view of field `i` of word 3. -/
def Bound.v (b : Bound) (i : Nat) : View := b.views.getD i View.none_

/-- The geometry. -/
def Bound.g (b : Bound) : Geo := geoOf b.geo

/-- The command is one of MMA, MMA_CHIVE and CONV_TAPS. -/
def isMatrix (c : Cmd) : Bool := 0x10 ≤ c.opc && c.opc ≤ 0x12

/-! ### Matrix shapes -/

/-- GROUPS + 1 of CONV_TAPS; 1 for MMA. -/
def Bound.groups (b : Bound) : Nat := if b.cmd.opc = 0x12 then fld b.cmd.w7 16 12 + 1 else 1

/-- Output channels of one group. -/
def Bound.ng (b : Bound) : Nat := b.cmd.n / b.groups

/-- Columns of one tile. -/
def Bound.tileCols (b : Bound) : Nat := if b.cmd.opc = 0x11 then 8 * b.width else b.width

/-- Row tiles (R94, R109). -/
def Bound.rowTiles (b : Bound) : Nat := if b.cmd.opc = 0x11 then 1 else cdiv b.cmd.m 32

/-- Column tiles of one group (R94, R109, R211). -/
def Bound.colTiles (b : Bound) : Nat := cdiv b.ng b.tileCols

/-- Tiles of the command. -/
def Bound.tiles (b : Bound) : Nat := b.groups * b.colTiles * b.rowTiles

/-- The first output position of CONV_TAPS: m0 of R210. -/
def Bound.m0 (b : Bound) : Nat := fld b.cmd.w6 0 16 * b.g.ow + fld b.cmd.w6 16 16

/-- The taps of CONV_TAPS, ky-major (R176, R211). -/
def Bound.taps (b : Bound) : List (Nat × Nat) :=
  let ky0 := fld b.cmd.w7 0 4
  let kx0 := fld b.cmd.w7 4 4
  (List.range (fld b.cmd.w7 8 4 + 1)).flatMap (fun y =>
    (List.range (fld b.cmd.w7 12 4 + 1)).map (fun x => (ky0 + y, kx0 + x)))

/-- Input channels of one group of CONV_TAPS. -/
def Bound.cg (b : Bound) : Nat := b.cmd.k / b.groups

/-- The reduction length K of one pass. -/
def Bound.kLen (b : Bound) : Nat := if b.cmd.opc = 0x12 then b.taps.length * b.cg else b.cmd.k

/-- The passes of each tile (R82). -/
def Bound.passes (b : Bound) : List (Nat × Nat) := Machine.passes (b.v 0).format (b.v 1).format

/-- A transpose flag is set. -/
def transposed (c : Cmd) : Bool := c.ta || c.tb

/-- Granules of a run of `n` elements, with one for its scale bytes where the format has them (R98, R111). -/
def Fmt.granules (f : Fmt) (n : Nat) : Nat := cdiv (f.span n) 64 + b01 f.isBlock

/-- t_BIAS of R105. -/
def Bound.tBias (b : Bound) : Nat := if b.cmd.init = 1 then cdiv b.cmd.n 64 else 0

/-- t_PRE of R110, with the granules of the A-buffer copy. -/
def Bound.preGranules (b : Bound) : Nat :=
  let f := (b.v 0).format
  b.cmd.m * (cdiv (f.span b.cmd.k) 64 + (if f.isBlock then cdiv (cdiv b.cmd.k 32) 64 else 0))

/-- Distinct values of a list, counted. -/
def distinct (l : List Nat) : Nat := (l.foldl (fun acc x => if acc.contains x then acc else x :: acc) []).length

/-- The input offset of a non-pad output position and tap in its plane (R176, R209). -/
def Bound.inputOff (b : Bound) (m ky kx : Nat) : Option Nat :=
  (b.g.input (m / b.g.ow) (m % b.g.ow) ky kx).map (fun p => p.1 * (b.v 0).pitch + p.2 * (b.v 0).format.bits / 8)

/-- The output positions of row tile `u` of CONV_TAPS. -/
def Bound.positions (b : Bound) (u : Nat) : List Nat :=
  (List.range (min 32 (b.cmd.m - 32 * u))).map (fun i => b.m0 + 32 * u + i)

/-- g_A of R213. -/
def Bound.gA (b : Bound) (u : Nat) (t : Nat × Nat) : Nat :=
  distinct ((b.positions u).filterMap (fun m => (b.inputOff m t.1 t.2).map (fun o => ((b.v 0).base + o) / 64)))

/-- F of R213 for a pass over row tile `u`. -/
def Bound.feedTime (b : Bound) (u : Nat) : Nat :=
  (b.taps.map (fun t => b.cg * max 1 (cdiv (b.gA u t + (b.v 1).format.granules 32) 4))).sum

/-- The feed times of the passes of CONV_TAPS, in order (R211). -/
def Bound.feedTimes (b : Bound) : List Nat :=
  ((List.range (b.groups * b.colTiles)).flatMap (fun _ => List.range b.rowTiles)).flatMap (fun u =>
    List.replicate b.passes.length (b.feedTime u))

/-- Duration and feed-end offset of a matrix command with a ramp of `ramp` cycles (R100, R111, R115, R214). -/
def Bound.matrixTime (b : Bound) (ramp : Nat) : Nat × Nat :=
  if b.kLen = 0 then (64 * b.tiles, 64 * b.tiles)
  else if b.cmd.opc = 0x12 then
    let fs := b.feedTimes
    let pre := b.tBias + ramp + 8
    let capped := (fs.map (fun f => max f 32)).sum
    let last := fs.getLastD 0
    (pre + (capped - max last 32) + last + 64, pre + capped)
  else
    let p := b.colTiles * b.rowTiles * b.passes.length
    if b.cmd.opc = 0x11 then
      let gB := max ((b.v 1).format.granules b.tileCols) 4
      let cK := cdiv (gB * b.cmd.k) 4
      let s := max cK 32
      let pre := b.tBias + cdiv b.preGranules 4 + ramp
      (pre + 260 + cK + (p - 1) * s, pre + p * s)
    else
      let s := max b.cmd.k (if transposed b.cmd then 64 else 32)
      let pre := b.tBias + (if transposed b.cmd then 32 else 0) + ramp
      (pre + 64 + b.cmd.k + (p - 1) * s, pre + p * s)

/-! ### Vector durations (R181) -/

/-- Granules per group of 64 elements. -/
def View.groupGranules (v : View) : Nat :=
  match v.format with
  | .fp32 => 4 | .fp16 => 2 | .bf16 => 2 | .int16 => 2 | .bs8 => 2 | .bs4 => 2
  | .e4m3 => 1 | .e5m2 => 1 | .e3m2 => 1 | .e2m1 => 1 | .int8 => 1 | .uint8 => 1 | .int4 => 1 | .acc40 => 4

/-- The group cost c = max(f, ceil(gr / 2), ceil(gw / 2)). -/
def groupCost (f : Nat) (reads writes : List View) : Nat :=
  max f (max (cdiv ((reads.map View.groupGranules).sum) 2) (cdiv ((writes.map View.groupGranules).sum) 2))

/-- T of a vector command. SCATTER with ACC = 1 reads the rows of Z it adds to, and their granules count in gr (DEDUCED,
log 178). -/
def Bound.vectorTime (b : Bound) : Nat :=
  let c := b.cmd
  let g := cdiv c.len 64
  let x := b.v 0
  let y := b.v 1
  let z := b.v 2
  let sv := b.v 3
  match c.opc with
  | 0x30 =>
    let rd := x :: ((if c.ys || unaryFunc c.func then [] else [y]) ++ (if c.func = 3 ∨ c.func = 0xA then [sv] else []))
    16 + c.rows * g * groupCost (if 0xB ≤ c.func ∧ c.func ≤ 0xE then 2 else 1) rd [z]
  | 0x31 => 24 + c.rows * g * groupCost 1 [x] []
  | 0x32 => 32 + 3 * c.rows * g * groupCost 2 [x] [z]
  | 0x33 => 32 + 2 * c.rows * g * groupCost 1 [x] [z] + (if bit c.w5 1 then cdiv c.len 16 else 0)
  | 0x34 => 24 + c.rows * g * groupCost 1 [x] [z]
  | 0x35 => 16 + c.rows * g * groupCost 1 [x] [z]
  | 0x36 => 16 + c.rows * g * groupCost 1 [x] [z]
  | 0x37 => 16 + c.rows * g * groupCost 1 [x] [z]
  | 0x38 => 16 + cdiv (fld c.w5 16 11 + 1) 4
  | 0x39 => 16 + c.rows * g * groupCost (if fld c.w5 16 2 = 1 then 2 else 1) [] [z]
  | 0x3A => 16 + c.rows * g * groupCost 1 [x] (z :: (if bit c.w5 16 then [y] else []))
  | 0x3B => 96 + 4 * g * groupCost 2 [x] []
  | 0x3C => 16 + c.len * cdiv (b.g.oh * b.g.ow) 64 * b.g.ky * b.g.kx
  | 0x3D => 16 + c.rows * (1 + g * groupCost 1 [x] [z])
  | 0x3E => 16 + c.rows * (1 + g * groupCost 1 (x :: (if bit c.w5 16 then [z] else [])) [z])
  | _ => 4

/-- The duration of a command that has a formula and executes, with its feed-end offset. A stream command has none: its
bound is t_SSU (R171, R177, R178, R181, R186, R188, R288). -/
def Bound.time (b : Bound) (ramp : Nat) : Nat × Nat :=
  let c := b.cmd
  if isMatrix c then b.matrixTime ramp
  else if c.opc = 0x13 then let t := 16 + (fld c.w4 16 11 + 1); (t, t)
  else if c.opc = 0x52 ∨ c.opc = 0x53 then (8 + c.granules, 8 + c.granules)
  else if 0x50 ≤ c.opc ∧ c.opc ≤ 0x54 then (8, 8)
  else if 0x30 ≤ c.opc ∧ c.opc ≤ 0x3E then (b.vectorTime, b.vectorTime)
  else (4, 4)

/-! ### Extents -/

/-- Rows of `len` elements, `stride` apart, as element runs from the effective base. -/
def rowRuns (rows stride len : Nat) : List (Nat × Nat) := runsOf 0 stride rows len

/-- The element runs of A of an MMA (R95, R98, R110). -/
def Bound.aRuns (b : Bound) : List (Nat × Nat) :=
  let a := b.v 0
  let c := b.cmd
  if c.opc = 0x11 then rowRuns c.m a.stride c.k
  else if c.ta then
    (List.range c.m).map (fun r => (r / 32 * a.pitch + r % 32 * a.stride, c.k))
  else (List.range b.rowTiles).flatMap (fun u =>
    (List.range c.k).map (fun k => (k * a.stride + u * a.pitch, min 32 (c.m - 32 * u))))

/-- The element runs of A of a CONV_TAPS: what its non-pad positions reach (R215). -/
def Bound.convRuns (b : Bound) : List (Nat × Nat) :=
  let offs := (List.range b.rowTiles).flatMap (fun u => (b.positions u).flatMap (fun m =>
    b.taps.filterMap (fun t => b.inputOff m t.1 t.2)))
  (List.range b.cmd.k).flatMap (fun ci => offs.map (fun o => (ci * (b.v 0).stride + o, 1)))

/-- The offset of element `j` of weight row `k` in B (R95, R98, R176, R211). -/
def Bound.bOff (b : Bound) (k j : Nat) : Nat × Nat :=
  let w := b.v 1
  if b.cmd.tb then (j / b.tileCols * w.pitch + j % b.tileCols * w.stride, k)
  else (k * w.stride + j / b.tileCols * w.pitch, j % b.tileCols)

/-- The weight rows a matrix command reads. -/
def Bound.weightRows (b : Bound) : List Nat :=
  if b.cmd.opc = 0x12 then
    b.taps.flatMap (fun t => (List.range b.cmd.k).map (fun ci => (t.1 * b.g.kx + t.2) * b.cmd.k + ci))
  else List.range b.cmd.k

/-- The element runs of B. -/
def Bound.bRuns (b : Bound) : List (Nat × Nat) :=
  let w := b.v 1
  if b.cmd.tb then (List.range b.ng).map (fun j => (j / b.tileCols * w.pitch + j % b.tileCols * w.stride, b.cmd.k))
  else b.weightRows.flatMap (fun k => (List.range b.colTiles).map (fun t =>
    (k * w.stride + t * w.pitch, min b.tileCols (b.ng - t * b.tileCols))))

/-- The offset from the effective base of C of output row `r` of column tile `t` (R104, R109). -/
def Bound.cOff (b : Bound) (r t : Nat) : Nat := r * (b.v 2).stride + t * (b.v 2).pitch

/-- The element runs of C (R104, R109, R208). -/
def Bound.cRuns (b : Bound) : List (Nat × Nat) :=
  if b.cmd.hold then []
  else if b.cmd.opc = 0x12 then
    (List.range b.cmd.n).map (fun n => (n * (b.v 2).stride + b.m0 * (b.v 2).format.bits / 8, b.cmd.m))
  else (List.range b.cmd.m).flatMap (fun r => (List.range b.colTiles).map (fun t =>
    (b.cOff r t, min b.tileCols (b.cmd.n - t * b.tileCols))))

/-- The effective mode of SAMPLE, given HOST_MODE (R257). -/
def sampleMode (c : Cmd) (hostMode : Nat) : Nat := if hostMode = 1 ∨ hostMode = 2 then hostMode else fld c.w6 9 2

/-- Record bytes of SAMPLE (R258). -/
def sampleBytes (mode v : Nat) : Nat := match mode with | 0 => 64 | 1 => 2112 | _ => 64 + 4 * v

/-- The input offsets POOL reaches in one plane, over all its outputs and taps. -/
def Bound.poolOffs (b : Bound) : List Nat :=
  (List.range (b.g.oh * b.g.ow)).flatMap (fun m => (List.range b.g.ky).flatMap (fun ky =>
    (List.range b.g.kx).filterMap (fun kx => b.inputOff m ky kx)))

/-- COUNTn of a stream descriptor (R278). -/
def sdCount (w : List W32) (n : Nat) : Nat := fld (w.getD (7 + n / 2) 0) (16 * (n % 2)) 16
/-- STRIDEn of a stream descriptor, signed. -/
def sdStride (w : List W32) (n : Nat) : Int := (w.getD (2 + n) 0).toInt
/-- NDIM + 1. -/
def sdDims (w : List W32) : Nat := fld (w.getD 1 0) 22 3 + 1
/-- ADDR. -/
def sdAddr (w : List W32) : Nat := (w.getD 0 0).toNat + fld (w.getD 1 0) 0 16 * 2 ^ 32
/-- FMT. -/
def sdFmt (w : List W32) : Nat := fld (w.getD 1 0) 16 4
/-- FRT. -/
def sdFrt (w : List W32) : Nat := fld (w.getD 1 0) 20 2
/-- PLANEW. -/
def sdPlaneW (w : List W32) : Nat := fld (w.getD 9 0) 16 16
/-- The count of a dimension, 1 for one not in use. -/
def sdN (w : List W32) (n : Nat) : Nat := if n < sdDims w then sdCount w n else 1

/-- The rows of a stream, in order: (i1, i2, i3, i4) (R280). -/
def sdRows (w : List W32) : List (Nat × Nat × Nat × Nat) :=
  (List.range (sdN w 4)).flatMap (fun i4 => (List.range (sdN w 3)).flatMap (fun i3 =>
    (List.range (sdN w 2)).flatMap (fun i2 => (List.range (sdN w 1)).map (fun i1 => (i1, i2, i3, i4)))))

/-- The local offset of a row of a stream (R280). -/
def sdLocal (w : List W32) (v : View) (r : Nat × Nat × Nat × Nat) : Nat :=
  r.1 * v.stride + (r.2.1 + sdN w 2 * (r.2.2.1 + sdN w 3 * r.2.2.2)) * v.pitch

/-- The local element runs of a stream (R280, R282). -/
def Bound.streamRuns (b : Bound) : List (Nat × Nat) :=
  if sdFrt b.sdesc = 0 then (sdRows b.sdesc).map (fun r => (sdLocal b.sdesc (b.v 0) r, sdN b.sdesc 0))
  else (List.range (sdCount b.sdesc 2)).flatMap (fun i2 => (List.range (sdCount b.sdesc 1)).map (fun i1 =>
    (i1 * (b.v 0).stride + i2 * (b.v 0).pitch, sdCount b.sdesc 0)))

/-- The extent of plain bytes of a view. -/
def View.raw (v : View) (n : Nat) : Extent := { cm := v.cm, runs := [(v.base, n)] }

/-- The extent of element runs of a view without scale bytes: what a stream moves (log 21). -/
def View.plain (v : View) (l : List (Nat × Nat)) : Extent :=
  { cm := v.cm, runs := l.map (fun p => (v.base + p.1, v.format.rowBytes p.2)) }

/-- The extents a command reads and those it writes, of its local views (R169). The local side of an accumulator spill or
restore is the accumulator bank (R185, log 22). -/
def Bound.extents (b : Bound) (hostMode : Nat) : List Extent × List Extent :=
  let c := b.cmd
  let x := b.v 0
  let y := b.v 1
  let z := b.v 2
  let sv := b.v 3
  let bias := if c.init = 1 then [sv.raw (4 * c.n)] else []
  match c.opc with
  | 0x10 => ((if c.k = 0 then [] else [x.extent b.aRuns, y.extent b.bRuns]) ++ bias, [z.written b.cRuns])
  | 0x11 => ((if c.k = 0 then [] else [x.extent b.aRuns, y.extent b.bRuns]) ++ bias, [z.written b.cRuns])
  | 0x12 => ((if b.kLen = 0 then [] else [x.extent b.convRuns, y.extent b.bRuns]) ++ bias, [z.written b.cRuns])
  | 0x13 => ([x.raw (16 * (fld c.w4 16 11 + 1))], [])
  | 0x30 =>
    (x.extent (rowRuns c.rows x.stride c.len) ::
      ((if c.ys || unaryFunc c.func then [] else [y.extent (rowRuns c.rows y.stride c.len)]) ++
       (if c.func = 3 ∨ c.func = 0xA then [sv.extent (rowRuns c.rows sv.stride c.len)] else [])),
     [z.written (rowRuns c.rows z.stride c.len)])
  | 0x31 => ([x.extent (rowRuns c.rows x.stride c.len)], [z.written (rowRuns c.rows z.stride 1)])
  | 0x32 => ([x.extent (rowRuns c.rows x.stride c.len)], [z.written (rowRuns c.rows z.stride c.len)])
  | 0x33 =>
    (x.extent (rowRuns c.rows x.stride c.len) ::
      (if bit c.w5 1 then [y.raw (4 * c.len), sv.raw (4 * c.len)] else []),
     [z.written (rowRuns c.rows z.stride c.len)])
  | 0x34 => ([x.extent (rowRuns c.rows x.stride c.len), sv.raw 1024], [z.written (rowRuns c.rows z.stride c.len)])
  | 0x35 => ([x.extent (rowRuns c.rows x.stride c.len)], [z.written (rowRuns c.rows z.stride c.len)])
  | 0x36 => ([x.extent (rowRuns c.rows x.stride c.len)], [z.written (rowRuns c.rows z.stride c.len)])
  | 0x37 => ([x.extent (rowRuns c.rows x.stride c.len)], [z.written (rowRuns c.rows z.stride c.len)])
  | 0x39 => ([], [z.written (rowRuns c.rows z.stride c.len)])
  | 0x3A =>
    ([x.extent (rowRuns c.rows x.stride c.len)],
     z.written (rowRuns c.rows z.stride c.len) ::
      (if bit c.w5 16 then [y.written (rowRuns c.rows y.stride c.len)] else []))
  | 0x3B => ([x.extent [(0, c.len)]], [z.raw (sampleBytes (sampleMode c hostMode) c.len)])
  | 0x3C =>
    ([x.extent ((List.range c.len).flatMap (fun ch => b.poolOffs.map (fun o => (ch * x.stride + o, 1))))],
     [z.written (rowRuns c.len z.stride (b.g.oh * b.g.ow))])
  | 0x3D =>
    ([x.extent (rowRuns (fld c.w5 0 15 + 1) x.stride c.len), y.extent [(0, c.rows)]],
     [z.written (rowRuns c.rows z.stride c.len)])
  | 0x3E =>
    ([x.extent (rowRuns c.rows x.stride c.len), y.extent [(0, c.rows)]],
     [z.written (rowRuns (fld c.w5 0 15 + 1) z.stride c.len)])
  | 0x50 => ([], if bit c.w3 12 then [] else [x.plain b.streamRuns])
  | 0x51 => (if bit c.w3 12 then [] else [x.plain b.streamRuns], [])
  | 0x52 => ([], [x.raw (64 * c.granules)])
  | 0x53 => ([x.raw (64 * c.granules)], [y.raw (64 * c.granules)])
  | 0x54 => ([x.raw (64 * c.granules)], [])
  | _ => ([], [])

/-! ### The far side of a stream (R280 to R282, R288) -/

/-- The granules of a run of bytes. -/
def granulesOf (off len : Nat) : List Nat :=
  if len = 0 then [] else (List.range ((off + len - 1) / 64 - off / 64 + 1)).map (fun i => off / 64 + i)

/-- A run of bytes cut at 64 B boundaries, as address and length: the accesses of a stream. -/
def accessRuns (a n : Nat) : List (Nat × Nat) :=
  if n = 0 then []
  else (List.range ((a + n - 1) / 64 + 1 - a / 64)).map (fun i =>
    let lo := max a ((a / 64 + i) * 64)
    (lo, min (a + n) ((a / 64 + i) * 64 + 64) - lo))

/-- The far address of a signed byte offset, in 48-bit arithmetic (R280). -/
def farAt (w : List W32) (off : Int) : Nat := trunc 48 ((sdAddr w : Int) + off)

/-- The far offset of a row (R280). -/
def sdFar (w : List W32) (r : Nat × Nat × Nat × Nat) : Int :=
  sdStride w 1 * r.1 + sdStride w 2 * r.2.1 + sdStride w 3 * r.2.2.1 + sdStride w 4 * r.2.2.2

/-- The far runs of a row of `n` elements of `b` bytes, with the byte offset of each in the row: one run where the
elements lie in order, else one per element. -/
def elementRuns (w : List W32) (off : Int) (n b : Nat) : List (Nat × Nat × Nat) :=
  if sdStride w 0 = (b : Int) then [(farAt w off, 0, n * b)]
  else (List.range n).map (fun (i : Nat) => (farAt w (off + sdStride w 0 * (i : Int)), i * b, b))

/-- The moves of a plain stream: far address, local offset, bytes (R280, R281). -/
def Bound.moves (b : Bound) : List (Nat × Nat × Nat) :=
  let w := b.sdesc
  let f := (b.v 0).format
  let n := sdN w 0
  (sdRows w).flatMap (fun r =>
    let loc := (b.v 0).base + sdLocal w (b.v 0) r
    if f.bits < 8 then [(farAt w (sdFar w r), loc, f.rowBytes n)]
    else (elementRuns w (sdFar w r) n f.bytes).map (fun p => (p.1, loc + p.2.1, p.2.2)))

/-- A tile row of an FRT stream: channel and row of tiles (R225). -/
def tileRows (w : List W32) : List (Nat × Nat) :=
  (List.range (sdCount w 2)).flatMap (fun c => (List.range (cdiv (sdCount w 1) 8)).map (fun t => (c, t)))

/-- The far address and the length of a tile row; `tb` is the tile size (R225). FCSTRIDE stands in STRIDE2, which R278 calls
signed; it is read as the unsigned distance of two channels' planes (DEDUCED, log 168). -/
def tileRun (w : List W32) (tb : Nat) (ct : Nat × Nat) : Nat × Nat :=
  let tw := cdiv (sdPlaneW w) 8
  let ty := (w.getD 3 0).toNat / 8 + ct.2
  (farAt w (((w.getD 4 0).toNat * ct.1 + (ty * tw + (w.getD 2 0).toNat / 8) * tb : Nat) : Int), cdiv (sdCount w 0) 8 * tb)

/-- The far runs of the 1,032 elements of an image, with the byte offset of each in it. -/
def Bound.imageRuns (b : Bound) : List (Nat × Nat × Nat) :=
  (sdRows b.sdesc).zipIdx.flatMap (fun p =>
    (elementRuns b.sdesc (sdFar b.sdesc p.1) (sdN b.sdesc 0) 8).map (fun q =>
      (q.1, p.2 * sdN b.sdesc 0 * 8 + q.2.1, q.2.2)))

/-- The local granules of a stream, row by row in the order it moves them; a row that spans part of a granule costs the whole
slot (R285, R288). The accumulator forms have the bank as their local side (log 22). -/
def Bound.localPieces (b : Bound) : List Nat :=
  if bit b.cmd.w3 12 then []
  else b.streamRuns.flatMap (fun p => granulesOf ((b.v 0).base + p.1) ((b.v 0).format.rowBytes p.2))

/-- The far runs of a stream. -/
def Bound.farRuns (b : Bound) : List (Nat × Nat) :=
  if bit b.cmd.w3 12 then b.imageRuns.map (fun m => (m.1, m.2.2))
  else if sdFrt b.sdesc ≠ 0 then
    (tileRows b.sdesc).map (tileRun b.sdesc (frtTileBytes ((frtResidual (sdFrt b.sdesc) (b.v 0).format).getD 0)))
  else b.moves.map (fun m => (m.1, m.2.2))

/-- The distinct far granules of a stream, by address, in the order it reaches them (R284, R288). -/
def Bound.farPieces (b : Bound) : List Nat :=
  (b.farRuns.flatMap (fun m => granulesOf m.1 m.2)).foldl (fun acc x => if acc.contains x then acc else acc ++ [x]) []

/-- The index that row `r` of a GATHER or SCATTER names, where it lies in the range of NROWS (R184, R205). -/
def rowIndex (core : Nat) (src : State) (b : Bound) (r : Nat) : Option Nat :=
  let y := b.v 1
  let code := src.elem y.format (y.addr core y.base) r
  let i : Int := if y.format == .int16 then sext 16 code else (code : Int)
  if 0 ≤ i ∧ i ≤ (fld b.cmd.w5 0 15 : Nat) then some i.toNat else none

/-- The operands of an executing command. -/
def Flight.bound (f : Flight) (width : Nat) : Bound :=
  { cmd := f.cmd, views := f.views, geo := f.geo, sdesc := f.sdesc, width := width }

end Sys2Proof.Machine
end

