-- ==== Sys2Proof/Machine/Checks.lean ====
section
/-! DEFINITION. The checks of a command at issue (R135, R168, R169), in the order of the status codes: the first that fails
is the command's status. -/

namespace Sys2Proof.Machine

/-- The hold record of a matrix command (R106). -/
def Bound.holdOf (b : Bound) (bank : Nat) : Hold :=
  { ctx := b.cmd.ctx, conv := b.cmd.opc == 0x12, chive := b.cmd.opc == 0x11, m := b.cmd.m, n := b.cmd.n,
    chBase := b.cmd.chBase, tile := if b.cmd.opc = 0x12 then b.m0 else (b.v 2).base,
    groups := if b.cmd.opc = 0x12 then b.groups else 1, bank := bank }

/-- A hold record matches a command that keeps it (R106, R212). -/
def holdMatches (h : Option Hold) (b : Bound) : Bool :=
  match h with
  | some r => decide (r = b.holdOf r.bank)
  | none => false

/-- ACC_STATE of a matrix command (R106): HOLD on more than one tile, or KEEP without a matching held bank. -/
def Bound.accBad (b : Bound) (h : Option Hold) : Bool :=
  (b.cmd.hold && b.tiles != 1) || (b.cmd.init == 2 && !holdMatches h b)

/-- FORMAT of a matrix command (R175, R207). -/
def Bound.matrixFormatBad (b : Bound) : Bool :=
  let a := b.v 0
  let w := b.v 1
  let wide (v : View) : Bool := [8, 16, 32].contains v.format.bits && v.format != .bs4
  a.badFormat || w.badFormat || (b.v 2).badFormat || (b.cmd.ta && !wide a) || (b.cmd.tb && !wide w) ||
    (b.cmd.opc == 0x12 && (!wide a || a.format.isBlock))

/-- RANGE of a matrix command (R109, R110, R113, R173, R175, R210). -/
def Bound.matrixRangeBad (b : Bound) : Bool :=
  let c := b.cmd
  c.init == 3 || c.m == 0 || decide (2047 < c.chBase + c.n - 1) ||
    (c.opc != 0x10 && transposed c) ||
    (c.opc == 0x11 && (decide (4 < c.m) || decide (16384 < 64 * b.preGranules))) ||
    (c.opc == 0x12 &&
      (c.k % b.groups != 0 || c.n % b.groups != 0 ||
        decide (b.g.ky < fld c.w7 0 4 + fld c.w7 8 4 + 1) || decide (b.g.kx < fld c.w7 4 4 + fld c.w7 12 4 + 1) ||
        decide (b.g.oh ≤ fld c.w6 0 16) || decide (b.g.ow ≤ fld c.w6 16 16) ||
        decide (b.g.oh * b.g.ow < b.m0 + c.m)))

/-- ALIGN of a matrix command (R96 to R98, R104, R105, R110, R207, R208). -/
def Bound.matrixAlignBad (b : Bound) : Bool :=
  let c := b.cmd
  let a := b.v 0
  let w := b.v 1
  let z := b.v 2
  let al (f : Fmt) (n : Nat) : Nat := sliceAlign (f.span n)
  let blockPitch (v : View) : Bool := v.format.isBlock && v.pitch % v.format.blockBytes != 0
  let aOk :=
    if c.opc = 0x12 then aligned a.format.bytes [a.base, a.pitch] && aligned 64 [a.stride]
    else if c.opc = 0x11 then aligned 64 [a.base, a.stride]
    else if c.ta then aligned 64 [a.base, a.stride, a.pitch]
    else aligned (al a.format 32) [a.base, a.stride, a.pitch] && !blockPitch a
  let wOk :=
    if c.tb then aligned 64 [w.base, w.stride, w.pitch]
    else aligned (al w.format 32) [w.base, w.stride, w.pitch] && !blockPitch w
  let zOk :=
    if c.opc = 0x12 then
      (8 * z.base + b.m0 * z.format.bits) % (8 * al z.format 32) == 0 && aligned (al z.format 32) [z.stride]
    else aligned (al z.format 32) [z.base, z.stride, z.pitch]
  !(aOk && wOk && zOk && (c.init != 1 || (b.v 3).base % 64 == 0))

/-- A view's format code is ACC40 or reserved, of the views the command uses. -/
def Bound.anyBadFormat (b : Bound) : Bool :=
  (b.cmd.usesViews.zip b.views).any (fun p => p.1 && p.2.badFormat)

/-- FORMAT of a vector command (R182); ZV of SAMPLE is not checked. -/
def Bound.vectorFormatBad (b : Bound) : Bool :=
  let c := b.cmd
  let x := b.v 0
  let y := b.v 1
  let z := b.v 2
  let sv := b.v 3
  (if c.opc = 0x3B then x.badFormat || !(x.format == .fp32 || x.format == .fp16 || x.format == .bf16)
   else b.anyBadFormat) ||
  (c.opc == 0x31 && (fld c.w5 0 3 == 3 || fld c.w5 0 3 == 4) && z.format != .fp32) ||
  (c.opc == 0x34 && sv.format != .fp32) ||
  (c.opc == 0x33 && bit c.w5 1 && (y.format != .fp32 || sv.format != .fp32)) ||
  (c.opc == 0x3A && bit c.w5 16 && y.format != .uint8) ||
  ((c.opc == 0x3D || c.opc == 0x3E) && !(y.format == .int16 || y.format == .uint8)) ||
  (c.opc == 0x3E && bit c.w5 16 && z.format != .fp32)

/-- R192: commands that may write in place, over their first source. -/
def mayWriteInPlace (opc : Nat) : Bool := [0x30, 0x34, 0x35, 0x36, 0x37, 0x3A, 0x32, 0x33].contains opc

/-- R192: a written extent meets an extent that is read, and the write is not a legal in-place write. -/
def Bound.overlapBad (b : Bound) (hostMode : Nat) : Bool :=
  let (rd, wr) := b.extents hostMode
  let x := b.v 0
  let z := b.v 2
  let inPlace := mayWriteInPlace b.cmd.opc && x.base == z.base && x.stride == z.stride &&
    x.format.bits == z.format.bits
  if inPlace then wr.any (fun w => (rd.drop 1).any w.meets) || (wr.drop 1).any (fun w => rd.any w.meets)
  else wr.any (fun w => rd.any w.meets)

/-- An FP16 field is negative, zero or not finite. -/
def fp16NotPositive (c : Nat) : Bool := !(Num.zero.lt (fmtFp16.decode c)) || (fmtFp16.decode c).isInf

/-- The granules of element `j` of the row at offset `o` of a view; an element of a sub-byte format may stand in two. -/
def View.elementGranules (v : View) (o j : Nat) : List Nat :=
  granulesOf (v.base + o + j * v.format.bits / 8) (cdiv ((j + 1) * v.format.bits) 8 - j * v.format.bits / 8)

/-- R219: POOL is legal only when each group of 64 positions reaches few enough granules. The granules of a block format's
scale bytes are not counted: R219 counts granules of X and of Z and does not say whether it means those too (DESIGN CHOICE,
log 176). -/
def Bound.poolBad (b : Bound) : Bool :=
  let x := b.v 0
  let z := b.v 2
  let total := b.g.oh * b.g.ow
  (List.range (cdiv total 64)).any (fun gi =>
    let ms := (List.range (min 64 (total - 64 * gi))).map (fun i => 64 * gi + i)
    (List.range b.g.ky).any (fun ky =>
      decide (2 * b.g.kx < distinct (ms.flatMap (fun m => (List.range b.g.kx).flatMap (fun kx =>
        ((b.g.input (m / b.g.ow) (m % b.g.ow) ky kx).map (fun p => x.elementGranules (p.1 * x.pitch) p.2)).getD []))))) ||
    decide (2 * b.g.kx * b.g.ky < distinct (ms.flatMap (z.elementGranules 0))))

/-- RANGE of a vector command; PDST of REDUCE is 0 or 5 to 7 (log 177) (R181, R182, R192, R193, R217, R219, R248, R251). -/
def Bound.vectorRangeBad (b : Bound) (hostMode : Nat) : Bool :=
  let c := b.cmd
  let span := if bit c.w5 11 then c.rows else c.len
  decide (2 ≤ c.rnd) ||
  (c.opc == 0x30 && (decide (0xF < c.func) || (unaryFunc c.func && c.ys))) ||
  (c.opc == 0x31 && (decide (5 < fld c.w5 0 3) || (fld c.w5 4 3 != 0 && decide (fld c.w5 4 3 < 5)))) ||
  (c.opc == 0x33 && bit c.w5 1 && decide (4096 < c.len)) ||
  ((c.opc == 0x36 || c.opc == 0x37) && decide (2047 < fld c.w5 0 11 + span - 1)) ||
  (c.opc == 0x38 && (decide (2047 < fld c.w5 0 11 + fld c.w5 16 11) || fld c.w6 16 8 == 0)) ||
  (c.opc == 0x39 && (fld c.w5 16 2 == 3 || (fld c.w5 16 2 == 0 && fld c.w7 16 16 != 0) ||
    (fld c.w5 16 2 != 0 && fp16NotPositive (fld c.w7 16 16)))) ||
  ([0x39, 0x3A, 0x3B].contains c.opc && c.rnd == 1) ||
  (c.opc == 0x3B && (fld c.w6 9 2 == 3 || decide (256 < fld c.w6 0 9) || c.rows != 1 ||
    (let t := fmtFp16.decode (fld c.w5 0 16); t.isNan || t.isInf || t.lt .zero) ||
    (let p := fmtFp16.decode (fld c.w5 16 16); p.isNan || !(Num.zero.lt p) || (Num.fin false 1 0).lt p))) ||
  (c.opc == 0x3C && (c.rows != 1 || fld c.w5 4 2 == 3 || b.poolBad)) ||
  b.overlapBad hostMode

/-- ALIGN of a vector command (R180, R217): XV.PITCH of POOL is a whole number of elements, for a sub-byte format too. -/
def Bound.vectorAlignBad (b : Bound) : Bool :=
  (b.cmd.usesViews.zip b.views).any (fun p => p.1 && (p.2.base % 64 != 0 || p.2.stride % 64 != 0)) ||
  (b.cmd.opc == 0x3C && (b.v 0).pitch % (b.v 0).format.group != 0)

/-- VIEW of a stream descriptor (R279). -/
def sdBad (w : List W32) (ctx : Nat) : Bool := !bit (w.getD 1 0) 31 || fld (w.getD 1 0) 25 6 != ctx

/-- The elements a stream descriptor describes. -/
def sdElements (w : List W32) : Nat := ((List.range 5).map (sdN w)).prod

/-- RANGE of a stream command (R185, R220, R225, R278, R279, R282). -/
def Bound.streamRangeBad (b : Bound) : Bool :=
  let w := b.sdesc
  let n := sdDims w
  let frt := sdFrt w
  let unusedSet := (List.range 5).any (fun i =>
    decide (n ≤ i) && (sdCount w i != 0 || ((w.getD (2 + i) 0) != 0 && !(decide (frt ≠ 0) && i == 3))))
  let frtBad :=
    match frtResidual frt (b.v 0).format with
    | none => true
    | some r =>
      let x0 := (w.getD 2 0).toNat
      let y0 := (w.getD 3 0).toNat
      let h := (w.getD 5 0).toNat
      let pw := sdPlaneW w
      fld (w.getD 1 0) 22 3 != 2 || x0 % 8 != 0 || y0 % 8 != 0 ||
        !((x0 + sdCount w 0) % 8 == 0 || x0 + sdCount w 0 == pw) || decide (pw < x0 + sdCount w 0) ||
        !((y0 + sdCount w 1) % 8 == 0 || y0 + sdCount w 1 == h) || decide (h < y0 + sdCount w 1) ||
        frtTileBytes r == 0 || decide (0x200000000 ≤ sdAddr w)
  decide (5 < n) || (List.range 5).any (fun i => decide (i < n) && sdCount w i == 0) || unusedSet ||
    (frt == 0 && sdPlaneW w != 0) || (frt != 0 && frtBad) ||
    (bit b.cmd.w3 12 && (sdElements w != 1032 || frt != 0))

/-- ALIGN of a stream command (R225, R281). -/
def Bound.streamAlignBad (b : Bound) : Bool :=
  let w := b.sdesc
  let f := (b.v 0).format
  let used := (List.range 5).filter (fun i => i < sdDims w)
  let localOk := (b.streamRuns).all (fun p => ((b.v 0).base + p.1) % f.group == 0)
  if bit b.cmd.w3 12 then !(sdAddr w % 8 == 0 && used.all (fun i => sdStride w i % 8 == 0))
  else if sdFrt w ≠ 0 then !(aligned 64 [sdAddr w, (w.getD 4 0).toNat]) || !localOk
  else if f.bits < 8 then
    !(sdStride w 0 == 0 && sdAddr w % f.group == 0 &&
      used.all (fun i => i == 0 || sdStride w i % (f.group : Int) == 0) && localOk)
  else
    !(sdAddr w % f.bytes == 0 && used.all (fun i => sdStride w i % (f.bytes : Int) == 0) && localOk)

/-- FORMAT of a stream command (R69, R185): ACC = 1 exactly with ACC40, and the far format equal to the local one unless FRT
compresses or expands. -/
def Bound.streamFormatBad (b : Bound) : Bool :=
  let v := b.v 0
  decide (14 ≤ v.fmt) || decide (14 ≤ sdFmt b.sdesc) || (bit b.cmd.w3 12 != (v.fmt == 13)) ||
    (v.fmt != sdFmt b.sdesc && sdFrt b.sdesc == 0)

/-- A window's word. -/
def State.win (s : State) (n w : Nat) : W32 :=
  let p := Tbl.get (0, 31) s.wins n
  if w = 0 then p.1 else p.2

/-- R269: a write of `len` bytes at offset `off` of window `n` by owner `own` of device `dev` lands. -/
def State.windowAdmits (s : State) (n dev own off len : Nat) : Bool :=
  let w := s.win n 0
  bit w 31 && nbit (fld w 18 4) dev && nbit (fld w 22 4) own && decide (off + len ≤ (fld w 12 6 + 1) * 0x10000)

/-- A window being closed refuses writes with WINDOW (R268). -/
def State.windowClosing (s : State) (n : Nat) : Bool := s.closingWins.contains n

/-- Local window writes that have been admitted to a window at issue and have not landed (R32, R187). -/
def State.windowAdmitted (s : State) (n : Nat) : Nat :=
  ((List.range 24).map (fun c => ((List.range 2).map (fun e =>
    ((s.engine c (2 + e)).flights.filter (fun f => f.cmd.opc == 0x54 && !f.done && f.status == 0 &&
      fld f.cmd.w3 12 2 == s.devNum && fld f.cmd.w3 6 6 == n)).length)).sum)).sum

/-- A window's descriptor reads closed (step 3 of R32). -/
def State.windowShut (s : State) (n : Nat) : State :=
  { s with wins := Tbl.set (0, 31) s.wins n (put32 (s.win n 0) 31 1 0, s.win n 1),
           closingWins := s.closingWins.filter (fun m => m != n) }

/-- Every window being closed whose last admitted write has landed or ended is shut (R32, R268). -/
def State.drainWindows (s : State) : State :=
  s.closingWins.foldl (fun t n => if t.windowAdmitted n = 0 then t.windowShut n else t) s

/-- The hold record of the core and an executing ME command decide ACC_STATE of a spill or restore (R185). -/
def Core.spillBad (x : Core) (c : Cmd) : Bool :=
  let busy := !(x.engine 0).flights.isEmpty
  bit c.w3 12 && (busy ||
    (c.opc == 0x51 && !(x.held.any (fun h => h.ctx == c.ctx))) || (c.opc == 0x50 && x.held.isSome))

/-- Everything a check needs: the state, core, command, popped handles, and the bound operands. -/
structure Issue where
  s : State
  core : Nat
  b : Bound
  ins : List W32
  frees : List W32
  deriving DecidableEq, Repr

/-- The statuses of R168 with the test that raises each, in code order, for a command at issue. -/
def Issue.tests (i : Issue) : List (Nat × Bool) :=
  let c := i.b.cmd
  let x := i.s.core i.core
  let u := i.core / 4
  let hostMode := i.s.o (ok (0x5540 + c.ctx) 1)
  let matrix := isMatrix c
  let vector : Bool := 0x30 ≤ c.opc && c.opc ≤ 0x3E
  let stream := c.opc == 0x50 || c.opc == 0x51
  let handles := c.inN + c.freeN
  let usedViews := (c.usesViews.zip ((List.range 4).map c.viewNo)).filter (fun p => p.1)
  let exts := (i.b.extents hostMode).1 ++ (i.b.extents hostMode).2
  let badQueue (q : Nat) : Bool := q != 31 && (i.s.hq u q).depth == 0
  let badGate (q : Nat) : Bool := q != 31 && (i.s.hq u q).badGate
  [ (0x01, !c.opcodeOk),
    (0x02, !c.reservedOk || c.strayView || c.strayIndex ||
      (c.opc == 0x12 && (i.b.v 2).pitch != 0)),
    (0x03, usedViews.any (fun p => x.viewBad p.2 c.ctx handles (i.ins ++ i.frees)) ||
      (match c.geoNo with | some n => x.geoBad n c.ctx | none => false) ||
      (stream && sdBad i.b.sdesc c.ctx)),
    (0x04, (matrix && i.b.matrixFormatBad) || (vector && i.b.vectorFormatBad) || (stream && i.b.streamFormatBad) ||
      ((c.opc == 0x52 || c.opc == 0x53 || c.opc == 0x54) && i.b.anyBadFormat)),
    (0x05, badGate c.inq || badGate c.freeq || badQueue c.outq || badQueue c.retq ||
      (matrix && i.b.matrixRangeBad) || (vector && i.b.vectorRangeBad hostMode) || (stream && i.b.streamRangeBad) ||
      (c.opc == 0x13 && decide (2047 < fld c.w4 0 11 + fld c.w4 16 11)) ||
      (c.opc == 0x53 && (i.b.v 0).cm != (i.b.v 1).cm) ||
      (c.opc == 0x03 && decide (5 < fld c.w3 8 3)) ||
      (c.opc == 0x04 && (fld c.w3 0 4 &&& fld c.w3 4 4 != 0 || fld c.w3 0 4 &&& fld c.w3 8 4 != 0 ||
        fld c.w3 4 4 &&& fld c.w3 8 4 != 0)) ||
      (c.opc == 0x60 && (fld c.w3 0 5 == 31 || decide (4095 < fld c.w4 0 12 + fld c.w3 5 4))) ||
      ((c.opc == 0x61 || c.opc == 0x62) && c.freeN == 0)),
    (0x06, (matrix && i.b.matrixAlignBad) || (vector && i.b.vectorAlignBad) || (stream && i.b.streamAlignBad) ||
      (c.opc == 0x13 && (i.b.v 0).base % 64 != 0) ||
      ((c.opc == 0x52 || c.opc == 0x53 || c.opc == 0x54) && (i.b.v 0).base % 64 != 0) ||
      (c.opc == 0x53 && (i.b.v 1).base % 64 != 0)),
    (0x07, (matrix && i.b.accBad x.held) || (stream && x.spillBad c)),
    (0x08, (i.ins ++ i.frees).any (fun h => hOwn h != c.own)),
    (0x09, ((matrix || vector || stream || c.opc == 0x13) && (c.usesViews.zip i.b.views).any (fun p => p.1 && p.2.cm)) ||
      exts.any Extent.outside),
    (0x0A, exts.any (fun t =>
      match i.s.extentPermits i.core c.own t with
      | .granted => false
      | .refused => true
      | .retry => matrix || vector || c.opc == 0x13)),
    (0x0B, c.opc == 0x14 && (x.engine 1).flights.any (fun f => f.cmd.opc == 0x38)),
    (0x0C, c.opc == 0x54 && fld c.w3 12 2 == i.s.devNum &&
      (i.s.windowClosing (fld c.w3 6 6) ||
       !i.s.windowAdmits (fld c.w3 6 6) i.s.devNum c.own (fld c.w5 0 20 * 64) (c.granules * 64))) ]

/-- The status of a command at issue: the first test that fails, or OK (R169). -/
def Issue.status (i : Issue) : Nat := ((i.tests.find? (fun p => p.2)).map (fun p => p.1)).getD 0

end Sys2Proof.Machine
end

