-- ==== Sys2Proof/Machine/Banks.lean ====
section
/-! DEFINITION. The banks of scratchpads and cluster memories (R99, R146, R206, R259 to R262, R285 to R287): what each
executing command asks of them in each of its cycles, who is served, and what a loss costs. Where in a command's duration
each of its accesses falls is log 167. -/

namespace Sys2Proof.Machine

/-- Nothing. -/
def Ask.none_ : Ask := ⟨[], [], []⟩

/-- Nothing is asked for. -/
def Ask.isNone (a : Ask) : Bool := a.rd.isEmpty && a.wr.isEmpty && a.cm.isEmpty

/-- Two asks of one engine. -/
def Ask.join (a b : Ask) : Ask := ⟨a.rd ++ b.rd, a.wr ++ b.wr, a.cm ++ b.cm⟩

/-- The elements `j` to `j + n - 1` of the run at offset `o` of a view, with the granules of their scale bytes. -/
def View.pieces (v : View) (o j n : Nat) : List Nat :=
  if n = 0 then []
  else
    let f := v.format
    granulesOf (v.base + o + j * f.bits / 8) (cdiv ((j + n) * f.bits) 8 - j * f.bits / 8) ++
      (if f.isBlock then granulesOf (v.sbase + o / f.blockBytes + j / 32) (cdiv (j % 32 + n) 32) else [])

/-- Where offset `t` falls in consecutive spans: the span and the offset in it. -/
def spanAt : List Nat → Nat → Option (Nat × Nat)
  | [], _ => none
  | d :: r, t => if t < d then some (0, t) else (spanAt r (t - d)).map (fun p => (p.1 + 1, p.2))

/-- The elements from index `4 * y` on, four of them: what four read slots take of a list in cycle `y`. -/
def fourOf (l : List Nat) (y : Nat) : List Nat := (l.drop (4 * y)).take 4

/-! ### The matrix engine -/

/-- Cycles before the first feed (R100, R110, R123, R213). -/
def Bound.preTime (b : Bound) (ramp : Nat) : Nat :=
  b.tBias + ramp + (if b.cmd.opc = 0x12 then 8 else if b.cmd.opc = 0x11 then cdiv b.preGranules 4
    else if transposed b.cmd then 32 else 0)

/-- The feed of one pass and its slot, in cycles (R100, R111, R213). -/
def Bound.passTimes (b : Bound) : List (Nat × Nat) :=
  if b.cmd.opc = 0x12 then b.feedTimes.map (fun f => (f, max f 32))
  else
    let f := if b.cmd.opc = 0x11 then cdiv (max ((b.v 1).format.granules b.tileCols) 4 * b.cmd.k) 4 else b.cmd.k
    let s := max f (if b.cmd.opc = 0x10 ∧ transposed b.cmd = true then 64 else 32)
    List.replicate (b.tiles * b.passes.length) (f, s)

/-- The granules that the transposer reads of an operand in cycle `k` of a pass: of each block of 32 k-steps one stored row
or column after another, spread over the block's cycles; `n` rows are present (R98). -/
def View.transposedRead (v : View) (o n len k : Nat) : List Nat :=
  let q := k / 32
  let c := if len ≤ 32 then 32 else min 32 (len - 32 * q)
  if len ≤ 32 * q then []
  else ((List.range 32).filter (fun r => decide (r * c / 32 = k % 32) && decide (r < n))).flatMap (fun r =>
    v.pieces (o + r * v.stride) (32 * q) (min 32 (len - 32 * q)))

/-- The granules of A and of B read in cycle `y` of the feed of pass `p` of an MMA without transposition, MMA_CHIVE or
CONV_TAPS; a transposed operand is read 32 cycles ahead of the others. -/
def Bound.feedReads (b : Bound) (tile y : Nat) (staged : Bool) : List Nat :=
  let t := tile / b.rowTiles % b.colTiles
  let u := tile % b.rowTiles
  let a := b.v 0
  let w := b.v 1
  let cols := min b.tileCols (b.ng - t * b.tileCols)
  if b.cmd.opc = 0x10 then
    (if b.cmd.ta != staged then [] else
      if b.cmd.ta then a.transposedRead (u * a.pitch) (min 32 (b.cmd.m - 32 * u)) b.cmd.k y
      else a.pieces (y * a.stride + u * a.pitch) 0 (min 32 (b.cmd.m - 32 * u))) ++
    (if b.cmd.tb != staged then [] else
      if b.cmd.tb then w.transposedRead (t * w.pitch) cols b.cmd.k y
      else w.pieces (y * w.stride + t * w.pitch) 0 cols)
  else if staged then []
  else if b.cmd.opc = 0x11 then
    let g := w.format.granules b.tileCols
    let row (k : Nat) : List Nat := w.pieces (k * w.stride + t * w.pitch) 0 cols
    if g ≤ 4 then row y
    else (List.range 4).filterMap (fun i =>
      let n := 4 * y + i
      if n / g < b.cmd.k then (row (n / g))[n % g]? else none)
  else
    let gr := tile / (b.rowTiles * b.colTiles)
    match spanAt (b.taps.map (fun tap => b.cg * max 1 (cdiv (b.gA u tap + w.format.granules 32) 4))) y with
    | some (i, z) =>
      let tap := b.taps.getD i (0, 0)
      let d := max 1 (cdiv (b.gA u tap + w.format.granules 32) 4)
      let ci := gr * b.cg + z / d
      let ins := (b.positions u).filterMap (fun m => (b.inputOff m tap.1 tap.2).map (fun o => (a.base + ci * a.stride + o) / 64))
      let distinctIns := ins.foldl (fun acc x => if acc.contains x then acc else acc ++ [x]) []
      let k := (tap.1 * b.g.kx + tap.2) * b.cmd.k + ci
      let cell := b.bOff k (t * b.tileCols)
      fourOf (distinctIns ++ w.pieces cell.1 cell.2 cols) (z % d)
    | none => []

/-- Cycles from issue to the first drain cycle of tile `i`, stalls not counted (R100, R104, R111, R115, R214). -/
def Bound.drainAt (b : Bound) (ramp i : Nat) : Nat :=
  if b.kLen = 0 then 64 * i + 32
  else
    let ps := b.passTimes
    let last := (i + 1) * b.passes.length - 1
    b.preTime ramp + ((ps.map (fun p => p.2)).take last).sum + (ps.getD last (0, 0)).1 +
      (if b.cmd.opc = 0x11 then 228 else 32)

/-- What the drain of a tile writes in its cycle `r` of 32: a row of a regular tile, an eighth of a Chive row, a column of a
CONV_TAPS tile (R104, R109, R208). -/
def Bound.drainWrites (b : Bound) (tile r : Nat) : List Nat :=
  let ct := tile / b.rowTiles
  let t := ct % b.colTiles
  let u := tile % b.rowTiles
  let z := b.v 2
  let cols := min b.tileCols (b.ng - t * b.tileCols)
  if b.cmd.hold then []
  else if b.cmd.opc = 0x12 then
    if cols ≤ r then []
    else z.pieces (((ct / b.colTiles) * b.ng + t * b.tileCols + r) * z.stride) (b.m0 + 32 * u) (min 32 (b.cmd.m - 32 * u))
  else if b.cmd.opc = 0x11 then
    if b.cmd.m ≤ r / 8 then []
    else z.pieces (b.cOff (r / 8) t) (r % 8 * b.width) (min b.width (cols - r % 8 * b.width))
  else if b.cmd.m ≤ 32 * u + r then []
  else z.pieces (b.cOff (32 * u + r) t) 0 cols

/-- What a matrix command asks for `n` cycles after its issue, stalls not counted: the bias, the A-buffer copy, the feeds, and
the drains, the last of which ends with the command (R100 to R105, R110, R115). -/
def Bound.matrixAsk (b : Bound) (ramp n : Nat) : Ask :=
  let bias := if b.cmd.init = 1 ∧ n < b.tBias then fourOf (granulesOf (b.v 3).base (4 * b.cmd.n)) n else []
  if b.kLen = 0 then
    ⟨bias, if n / 64 < b.tiles ∧ 32 ≤ n % 64 then b.drainWrites (n / 64) (n % 64 - 32) else [], []⟩
  else
    let pre := b.preTime ramp
    let ps := b.passTimes
    let slots := ps.map (fun p => p.2)
    let pp := b.passes.length
    let copy :=
      if b.cmd.opc = 0x11 ∧ b.tBias ≤ n ∧ n < pre - ramp then
        fourOf ((List.range b.cmd.m).flatMap (fun i => (b.v 0).pieces (i * (b.v 0).stride) 0 b.cmd.k)) (n - b.tBias)
      else []
    let feed (lead : Nat) (staged : Bool) : List Nat :=
      if n + lead < pre then []
      else match spanAt slots (n + lead - pre) with
        | some (i, y) => if y < (ps.getD i (0, 0)).1 ∨ staged = true then b.feedReads (i / pp) y staged else []
        | none => []
    let drains := (List.range b.tiles).flatMap (fun i =>
      let at_ := b.drainAt ramp i
      if at_ ≤ n ∧ n < at_ + 32 then b.drainWrites i (n - at_) else [])
    ⟨bias ++ copy ++ feed 0 false ++ feed 32 true, drains, []⟩

/-! ### The vector engine -/

/-- The granules of group `g` of row `r` of a view, two of them in cycle `j` of the group. -/
def View.groupPieces (v : View) (len r g j : Nat) : List Nat :=
  ((v.pieces (r * v.stride) (64 * g) (min 64 (len - 64 * g))).drop (2 * j)).take 2

/-- What a vector command asks for `n` cycles after its issue: two reads a cycle from its first cycle on, group after group,
and two writes a cycle so that the last group is written in its last cycles (R181, R199 to R205); `idx` are the rows that the
indices of a GATHER or SCATTER name, where they name one. -/
def Bound.vectorAsk (b : Bound) (idx : Nat → Option Nat) (n : Nat) : Ask :=
  let c := b.cmd
  let x := b.v 0
  let y := b.v 1
  let z := b.v 2
  let sv := b.v 3
  let g := cdiv c.len 64
  let two (l : List Nat) (j : Nat) : List Nat := (l.drop (2 * j)).take 2
  -- `k` group cycles of cost `w` each: the reads of group i of row r, and its writes, `lat` cycles later
  let run (lat sweeps w : Nat) (srcs dsts : List View) : Ask :=
    let per := sweeps * g * w
    let grp (m : Nat) : Nat × Nat × Nat × Nat := (m / per, m % per / (g * w), m % (g * w) / w, m % w)
    let all (l : List View) (r i : Nat) : List Nat :=
      l.flatMap (fun v => v.pieces (r * v.stride) (64 * i) (min 64 (c.len - 64 * i)))
    let rd := let p := grp n; if n < c.rows * per then two (all srcs p.1 p.2.2.1) p.2.2.2 else []
    let wr := if lat ≤ n ∧ n - lat < c.rows * per then
        (let p := grp (n - lat); if p.2.1 + 1 = sweeps then two (all dsts p.1 p.2.2.1) p.2.2.2 else []) else []
    ⟨rd, wr, []⟩
  match c.opc with
  | 0x30 =>
    let rd := x :: ((if c.ys || unaryFunc c.func then [] else [y]) ++ (if c.func = 3 ∨ c.func = 0xA then [sv] else []))
    run 16 1 (groupCost (if 0xB ≤ c.func ∧ c.func ≤ 0xE then 2 else 1) rd [z]) rd [z]
  | 0x31 =>
    let w := groupCost 1 [x] []
    let done := if 24 ≤ n ∧ (n - 24) % (g * w) + 1 = g * w ∧ (n - 24) / (g * w) < c.rows then
      z.pieces ((n - 24) / (g * w) * z.stride) 0 1 else []
    ⟨(run 24 1 w [x] []).rd, done, []⟩
  | 0x32 => run 32 3 (groupCost 2 [x] [z]) [x] [z]
  | 0x33 =>
    let k := if bit c.w5 1 then cdiv c.len 16 else 0
    if n < k then ⟨((granulesOf y.base (4 * c.len)).drop n).take 1 ++ ((granulesOf sv.base (4 * c.len)).drop n).take 1, [], []⟩
    else
      let w := groupCost 1 [x] [z]
      let per := 2 * g * w
      let m := n - k
      let rd := if m < c.rows * per then x.groupPieces c.len (m / per) (m % (g * w) / w) (m % w) else []
      let wr := if 32 ≤ m ∧ m - 32 < c.rows * per ∧ g * w ≤ (m - 32) % per then
        z.groupPieces c.len ((m - 32) / per) ((m - 32) % (g * w) / w) ((m - 32) % w) else []
      ⟨rd, wr, []⟩
  | 0x34 =>
    if n < 8 then ⟨two (granulesOf sv.base 1024) n, [], []⟩
    else
      let r := run 24 1 (groupCost 1 [x] [z]) [x] [z]
      let m := n - 8
      let w := groupCost 1 [x] [z]
      ⟨if m < c.rows * g * w then x.groupPieces c.len (m / (g * w)) (m % (g * w) / w) (m % w) else [], r.wr, []⟩
  | 0x35 => run 16 1 (groupCost 1 [x] [z]) [x] [z]
  | 0x36 => run 16 1 (groupCost 1 [x] [z]) [x] [z]
  | 0x37 => run 16 1 (groupCost 1 [x] [z]) [x] [z]
  | 0x39 => run 16 1 (groupCost (if fld c.w5 16 2 = 1 then 2 else 1) [] [z]) [] [z]
  | 0x3A =>
    let dst := z :: (if bit c.w5 16 then [y] else [])
    run 16 1 (groupCost 1 [x] dst) [x] dst
  | 0x3B =>
    let w := groupCost 2 [x] []
    let t := 96 + 4 * g * w
    ⟨if n < 4 * g * w then x.groupPieces c.len 0 (n % (g * w) / w) (n % w) else [],
     if t - 33 ≤ n then two (granulesOf z.base (if fld c.w6 9 2 = 0 then 64 else 2112)) (n - (t - 33)) else [], []⟩
  | 0x3C =>
    let taps := b.g.ky * b.g.kx
    let gs := cdiv (b.g.oh * b.g.ow) 64
    let spot (m : Nat) : Nat × Nat × Nat := (m / (gs * taps), m / taps % gs, m % taps)
    let ms (i : Nat) : List Nat := (List.range (min 64 (b.g.oh * b.g.ow - 64 * i))).map (fun k => 64 * i + k)
    let p := spot n
    let rd := if n < c.len * gs * taps then
      -- the granules a row of taps reaches, two in each of its cycles
      two (((ms p.2.1).flatMap (fun m => (List.range b.g.kx).filterMap (fun kx =>
        (b.inputOff m (p.2.2 / b.g.kx) kx).map (fun o => (x.base + p.1 * x.stride + o) / 64)))).foldl
          (fun acc q => if acc.contains q then acc else acc ++ [q]) []) (p.2.2 % b.g.kx) else []
    let q := spot (n - 16)
    let wr := if 16 ≤ n ∧ n - 16 < c.len * gs * taps then
      two (z.pieces (q.1 * z.stride) (64 * q.2.1) (min 64 (b.g.oh * b.g.ow - 64 * q.2.1))) q.2.2 else []
    ⟨rd, wr, []⟩
  | 0x3D =>
    let w := groupCost 1 [x] [z]
    let per := 1 + g * w
    let r := n / per
    let wr := if 16 ≤ n ∧ (n - 16) / per < c.rows ∧ 1 ≤ (n - 16) % per then
      z.groupPieces c.len ((n - 16) / per) (((n - 16) % per - 1) / w) (((n - 16) % per - 1) % w) else []
    let rd := if c.rows ≤ r then [] else if n % per = 0 then y.pieces 0 r 1 else
      match idx r with
      | some i => x.groupPieces c.len i ((n % per - 1) / w) ((n % per - 1) % w)
      | none => []
    ⟨rd, wr, []⟩
  | 0x3E =>
    let w := groupCost 1 (x :: (if bit c.w5 16 then [z] else [])) [z]
    let per := 1 + g * w
    let r := n / per
    let at_ (m : Nat) : List Nat :=
      match idx (m / per) with
      | some i => z.groupPieces c.len i ((m % per - 1) / w) ((m % per - 1) % w)
      | none => []
    let rd := if c.rows ≤ r then [] else if n % per = 0 then y.pieces 0 r 1 else
      x.groupPieces c.len r ((n % per - 1) / w) ((n % per - 1) % w) ++ (if bit c.w5 16 then at_ n else [])
    let wr := if 16 ≤ n ∧ (n - 16) / per < c.rows ∧ 1 ≤ (n - 16) % per then at_ (n - 16) else []
    ⟨rd, wr, []⟩
  | _ => .none_

/-! ### The stream engines -/

/-- RATE of a stream command (R185). -/
def rateOf (c : Cmd) : Nat := fld c.w4 0 16

/-- D of R287, in ns of device time: when a consumer that started at issue and reads at the declared rate would reach the
first byte not delivered; `n` bytes are delivered, the core's clock runs at `mhz`. -/
def Flight.runDry (f : Flight) (n mhz : Nat) : Nat :=
  let ns := if rateOf f.cmd = 0 then f.cmd.budget * 1000 / mhz else 256 * n * 1000 / (mhz * rateOf f.cmd)
  (f.t0 + min ns 4000000) % 2 ^ 24

/-- The bytes delivered when `k` of the granules of a stream's local side are moved (R287). -/
def Bound.delivered (b : Bound) (k : Nat) : Nat :=
  let sizes := b.streamRuns.flatMap (fun p =>
    (accessRuns ((b.v 0).base + p.1) ((b.v 0).format.rowBytes p.2)).map (fun q => q.2))
  ((sizes.take k).sum : Nat)

/-- The granule of cluster memory that a physical address names, where that is the memory of cluster `k`. -/
def cmGranule (k a : Nat) : Option Nat :=
  if cmAddr k 0 ≤ a ∧ a < cmAddr k 0 + 0x400000 then some ((a - cmAddr k 0) / 64) else none

/-- What a command of a stream engine asks for `n` cycles after its issue: after the set-up of t_SSU = 8 cycles one granule a
cycle on either side (R186, R262, R285); far granules count where they lie in the cluster's own memory. -/
def Bound.streamAsk (b : Bound) (core n : Nat) : Ask :=
  let x := b.v 0
  let i := n - 8
  let one (l : List Nat) : List Nat := (l.drop i).take 1
  if n < 8 then .none_
  else match b.cmd.opc with
    | 0x50 => ⟨[], one b.localPieces, (one b.farPieces).filterMap (fun g => cmGranule (core / 4) (64 * g))⟩
    | 0x51 => ⟨one b.localPieces, [], (one b.farPieces).filterMap (fun g => cmGranule (core / 4) (64 * g))⟩
    | 0x52 => let g := one (granulesOf x.base (64 * b.cmd.granules)); if x.cm then ⟨[], [], g⟩ else ⟨[], g, []⟩
    | 0x53 =>
      let r := one (granulesOf x.base (64 * b.cmd.granules))
      let w := one (granulesOf (b.v 1).base (64 * b.cmd.granules))
      if x.cm then ⟨[], [], r ++ w⟩ else ⟨r, w, []⟩
    | 0x54 => let g := one (granulesOf x.base (64 * b.cmd.granules)); if x.cm then ⟨[], [], g⟩ else ⟨g, [], []⟩
    | _ => .none_

/-! ### Arbitration -/

/-- What an executing command asks for in a cycle of its core. -/
def State.askOf (s : State) (core now : Nat) (f : Flight) : Ask :=
  let b := f.bound (s.core core).width
  let n := now - f.issue - f.stall
  if now < f.issue ∨ f.dur ≤ now - f.issue ∧ f.cmd.eng < 2 then .none_
  else if isMatrix f.cmd then b.matrixAsk f.ramp n
  else if f.cmd.opc = 0x13 then
    ⟨if 16 ≤ n ∧ (n - 16) % 4 = 0 ∧ n - 16 < fld f.cmd.w4 16 11 + 1 then [(b.v 0).base / 64 + (n - 16) / 4] else [], [], []⟩
  else if f.cmd.eng = 1 then b.vectorAsk (rowIndex core s b) n
  else b.streamAsk core n

/-- What an engine asks for in a cycle: what it lost in the cycle before; else the asks of the ME's or the VE's commands,
or those of the first of a stream engine's commands that asks for anything (R285). -/
def State.engineAsk (s : State) (core e now : Nat) : Ask :=
  let y := s.engine core e
  if y.flights.isEmpty then .none_
  else match y.left with
    | some a => a
    | none =>
      let asks := y.flights.map (s.askOf core now)
      if e < 2 then asks.foldl Ask.join .none_ else (asks.find? (fun a => !a.isNone)).getD .none_

/-- One list of requests served from `free` slots, each on a bank of its own: the banks taken, the slots left, and the
requests that lose. -/
def serve (banks : Nat) (l : List Nat) (taken : List Nat) (free : Nat) : List Nat × Nat × List Nat :=
  l.foldl (fun (a : List Nat × Nat × List Nat) g =>
    if 0 < a.2.1 ∧ a.1.contains (g % banks) = false then (g % banks :: a.1, a.2.1 - 1, a.2.2)
    else (a.1, a.2.1, a.2.2 ++ [g])) (taken, free, [])

/-- The slots of a scratchpad in one cycle while its engines are served by rank: banks taken, reads and writes left, and each
engine with what it has lost (R99, R146). -/
structure Slots where
  taken : List Nat
  rd : Nat
  wr : Nat
  lost : List (Nat × Ask)
  deriving DecidableEq, Repr

/-- One engine's requests to the scratchpad, reads before writes. -/
def Slots.engine (t : Slots) (e : Nat) (a : Ask) : Slots :=
  let r := serve 8 a.rd t.taken t.rd
  let w := serve 8 a.wr r.1 t.wr
  ⟨w.1, r.2.1, w.2.1, t.lost ++ [(e, ⟨r.2.2, w.2.2, []⟩)]⟩

/-- One cycle of a core's scratchpad: ME, VE, SE0 and SE1 in this order, four reads and two writes on distinct banks
(R146). -/
def scratchpadCycle (asks : List (Nat × Ask)) : List (Nat × Ask) :=
  (asks.foldl (fun (t : Slots) p => t.engine p.1 p.2) (⟨[], 4, 2, []⟩ : Slots)).lost

/-- A request for cluster memory at a core's port: core and engine, whether its command is real-time, its run-dry time, and
the granules (R260, R286). -/
structure PortAsk where
  core : Nat
  eng : Nat
  rt : Bool
  dry : Nat
  cm : List Nat
  deriving DecidableEq, Repr

/-- R286: `a` is served before `b`, pointer at `p`: real-time first, then the earlier run-dry time, then the first core at or
after the pointer. -/
def PortAsk.before (p : Nat) (a b : PortAsk) : Bool :=
  if a.rt != b.rt then a.rt
  else if a.dry != b.dry then serialGe 24 b.dry a.dry
  else decide ((a.core + 25 - p) % 25 < (b.core + 25 - p) % 25) || (a.core == b.core && decide (a.eng < b.eng))

/-- A request put in its place in the order of service. -/
def insertPort (p : Nat) (a : PortAsk) : List PortAsk → List PortAsk
  | [] => [a]
  | b :: r => if a.before p b then a :: b :: r else b :: insertPort p a r

/-- The ports of a cluster memory in one cycle: banks taken, accesses made by each core, the pointer, and the losers with
what they have lost and whether a bank was the cause. -/
structure Ports where
  taken : List Nat
  used : Tbl Nat
  ptr : Nat
  lost : List (PortAsk × List Nat × Bool)
  deriving DecidableEq, Repr

/-- One request served: at most two accesses of a core in a cycle, each bank once (R260). -/
def Ports.serve (t : Ports) (a : PortAsk) : Ports :=
  let free := 2 - Tbl.get 0 t.used a.core
  let r := Machine.serve 16 a.cm t.taken free
  let made := free - r.2.1
  { taken := r.1
    used := Tbl.set 0 t.used a.core (Tbl.get 0 t.used a.core + made)
    ptr := if made = 0 then t.ptr else (a.core + 1) % 25
    lost := if r.2.2.isEmpty then t.lost
      else t.lost ++ [(a, r.2.2, r.2.2.any (fun g => t.taken.contains (g % 16)))] }

/-- The request of a stream engine at its port, if its commands ask for cluster memory; its first outstanding command gives
class and run-dry time. -/
def State.portAsk (s : State) (core e now : Nat) (a : Ask) : Option PortAsk :=
  match (s.engine core e).flights with
  | [] => none
  | f :: _ =>
    if a.cm.isEmpty then none
    else some ⟨core, e, f.rt,
      f.runDry ((f.bound (s.core core).width).delivered (now - f.issue - f.stall - 8)) (s.clusterMhz (core / 4)), a.cm⟩

/-- An executing command of an engine that has lost a cycle: it ends a cycle later, and its feed too where it is not over. -/
def Flight.delay (now : Nat) (f : Flight) : Flight :=
  { f with dur := f.dur + 1, stall := f.stall + 1, feedEnd := if now < f.feedEnd then f.feedEnd + 1 else f.feedEnd }

/-- What the ME keeps of its last command follows that command. -/
def MePrev.delay (now : Nat) (p : MePrev) : MePrev :=
  { p with feedEnd := if now < p.feedEnd then p.feedEnd + 1 else p.feedEnd
           retire := if now < p.retire then p.retire + 1 else p.retire }

/-- The end of a cycle for one engine: what it has lost waits for the next cycle, and its commands stall (R99, R146). A loss
of the ME counts in 0x002, one of another engine on the scratchpad in 0x007, and a cycle that a far access waits in 0x042. -/
def State.endCycle (s : State) (core e now : Nat) (pad : Ask) (cm : List Nat) : State :=
  let x := s.core core
  let y := x.engine e
  let padLost := !(pad.rd.isEmpty && pad.wr.isEmpty)
  if !padLost && cm.isEmpty then
    if y.left.isSome then s.setEngine core e { y with left := none } else s
  else
    let y1 := { y with left := some ⟨pad.rd, pad.wr, cm⟩, flights := y.flights.map (Flight.delay now) }
    let x1 := { x.setEngine e y1 with
      mePrev := if e = 0 then x.mePrev.map (MePrev.delay now) else x.mePrev
      gapFrom := if e = 0 then x.gapFrom.map (fun g => if now < g then g + 1 else g) else x.gapFrom
      fills := if e = 0 then x.fills.map (fun p => if now < p.1 then (p.1 + 1, p.2 + 1) else p) else x.fills }
    let s1 := s.setCore core x1
    let s2 := if padLost then s1.event (if e = 0 then 0x002 else 0x007) core 1 else s1
    if cm.isEmpty then s2 else s2.event 0x042 (2 * core + e - 2) 1

/-- The four cores of a cluster with the four engines that reach memory, by rank. -/
def clusterEngines (k : Nat) : List (Nat × Nat) :=
  (List.range 4).flatMap (fun i => (List.range 4).map (fun e => (4 * k + i, e)))

/-- One cycle `now` of the memories of cluster `k`: every scratchpad, then the cluster memory, then the losers. -/
def State.bankCycle (s : State) (k now : Nat) : State :=
  let asks := (clusterEngines k).map (fun p => (p, s.engineAsk p.1 p.2 now))
  let pads := (List.range 4).flatMap (fun i =>
    (scratchpadCycle ((asks.filter (fun a => a.1.1 == 4 * k + i)).map (fun a => (a.1.2, a.2)))).map (fun l =>
      ((4 * k + i, l.1), l.2)))
  let ptr := (s.cluster k).portPtr
  let order := (asks.filterMap (fun a => s.portAsk a.1.1 a.1.2 now a.2)).foldl (fun l a => insertPort ptr a l) []
  let ports := order.foldl Ports.serve ⟨[], [], ptr, []⟩
  let s1 := s.setCluster k { s.cluster k with portPtr := ports.ptr }
  let s2 := s1.event 0x085 (24 + k) (ports.lost.filter (fun l => l.2.2)).length
  pads.foldl (fun t p =>
    let cm := ((ports.lost.find? (fun l => l.1.core == p.1.1 && l.1.eng == p.1.2)).map (fun l => l.2.1)).getD []
    t.endCycle p.1.1 p.1.2 now p.2 cm) s2

/-- An engine of a cluster executes a command that reaches a memory. -/
def State.banksBusy (s : State) (k : Nat) : Bool :=
  (clusterEngines k).any (fun p => (s.engine p.1 p.2).flights.any (fun _ => true))

/-- The end of the present cycle of cluster `k`: its bank requests are served (R99, R146, R260). -/
def State.serveBanks (s : State) (k : Nat) : State :=
  if s.banksBusy k then s.bankCycle k (s.cluster k).cyc else s

end Sys2Proof.Machine
end

