-- ==== Sys2Proof/Machine/Crypto.lean ====
section
/-! DEFINITION. The named functions the spec computes over byte strings: CRC-32C (Castagnoli) of links, containers and
records, SHA-256 of measurements, and HMAC-SHA-256 of sessions and key derivation (R432, R339, R494, R531). -/

namespace Sys2Proof.Machine

/-- One bit of the reflected CRC-32C. -/
def crcBit (c : Nat) : Nat := if c % 2 = 1 then c / 2 ^^^ 0x82F63B78 else c / 2

/-- One byte of the CRC. -/
def crcByte (c : Nat) (b : Byte) : Nat :=
  crcBit (crcBit (crcBit (crcBit (crcBit (crcBit (crcBit (crcBit (c ^^^ b.toNat))))))))

/-- CRC-32C (Castagnoli): reflected, initial value and final inversion all ones. -/
def crc32c (l : List Byte) : Nat := l.foldl crcByte 0xFFFFFFFF ^^^ 0xFFFFFFFF

/-- The largest number with `n` bits whose `k`-th power is at most `v`, found bit by bit above the bits `r` found. -/
def rootBits (k v : Nat) : Nat → Nat → Nat
  | 0, r => r
  | n + 1, r => rootBits k v n (if (r + 2 ^ n) ^ k ≤ v then r + 2 ^ n else r)

/-- The first 32 bits of the fractional part of the `k`-th root of `p`. -/
def rootFraction (k p : Nat) : W32 := BitVec.ofNat 32 (rootBits k (p * 2 ^ (32 * k)) 37 0)

/-- The first 64 primes: the numbers below 312 that no smaller number from 2 to 17 divides. -/
def smallPrimes : List Nat :=
  (List.range 312).filter (fun n => decide (2 ≤ n) && (List.range 18).all (fun d => decide (d < 2) || decide (n ≤ d) || n % d != 0))

/-- The 64 round constants of SHA-256 (FIPS 180-4): fractions of the cube roots of the first 64 primes. -/
def shaConstants : List W32 := smallPrimes.map (rootFraction 3)

/-- What SHA-256 works on: the four latest values of each of its two running sequences, the latest first. At the start of a
message they are fractions of the square roots of the first eight primes (FIPS 180-4). -/
abbrev ShaState := List W32 × List W32

/-- The hash before the first block. -/
def ShaState.start : ShaState :=
  let h := (smallPrimes.take 8).map (rootFraction 2)
  (h.take 4, h.drop 4)

/-- Three rotations of a word, or with `shift` two rotations and a shift, added without carry. -/
def mixWord (x : W32) (a b c : Nat) (shift : Bool) : W32 :=
  [x.rotateRight a, x.rotateRight b, if shift then x >>> c else x.rotateRight c].foldl (fun u v => u ^^^ v) 0

/-- Item `i` of a list of words, 0 beyond its end. -/
def wordOf (l : List W32) (i : Nat) : W32 := (l[i]?).getD 0

/-- One round: each sequence takes a new value, and its oldest falls out. `kw` is the round's constant plus its message word. -/
def ShaState.round (s : ShaState) (kw : W32) : ShaState :=
  let choice := (wordOf s.2 0 &&& (wordOf s.2 1 ^^^ wordOf s.2 2)) ^^^ wordOf s.2 2
  let both := wordOf s.1 1 ||| wordOf s.1 2
  let majority := (wordOf s.1 0 &&& both) ||| (wordOf s.1 1 &&& wordOf s.1 2)
  let fresh := kw + wordOf s.2 3 + mixWord (wordOf s.2 0) 6 11 25 false + choice
  ((mixWord (wordOf s.1 0) 2 13 22 false + majority + fresh) :: s.1.take 3, (wordOf s.1 3 + fresh) :: s.2.take 3)

/-- The rounds of a block, each with its constant; `win` holds the 16 message words of this round and the next 15, and the
window moves on by the word 16 rounds ahead. -/
def ShaState.rounds : List W32 → List W32 → ShaState → ShaState
  | [], _, s => s
  | k :: ks, win, s =>
    let ahead := wordOf win 0 + mixWord (wordOf win 1) 7 18 3 true + wordOf win 9 + mixWord (wordOf win 14) 17 19 10 true
    ShaState.rounds ks (win.drop 1 ++ [ahead]) (s.round (k + wordOf win 0))

/-- The hash after a block of 64 bytes. -/
def ShaState.block (s : ShaState) (blk : List Byte) : ShaState :=
  let win := (List.range 16).map (fun i => BitVec.ofNat 32 (beNat ((blk.drop (4 * i)).take 4)))
  let t := ShaState.rounds shaConstants win s
  (s.1.zipWith (fun u v => u + v) t.1, s.2.zipWith (fun u v => u + v) t.2)

/-- A message with its padding: a 1 bit, zeros, and the bit length in the last 8 bytes of a block. -/
def shaPadded (l : List Byte) : List Byte :=
  l ++ 0x80 :: (List.replicate ((119 - l.length % 64) % 64) 0 ++ beBytes 8 (8 * l.length))

/-- SHA-256 (FIPS 180-4): 32 bytes. -/
def sha256 (l : List Byte) : List Byte :=
  let m := shaPadded l
  let s := (List.range (m.length / 64)).foldl (fun s i => s.block ((m.drop (64 * i)).take 64)) ShaState.start
  (s.1 ++ s.2).flatMap (fun w => beBytes 4 w.toNat)

/-- HMAC-SHA-256 (RFC 2104): 32 bytes. -/
def hmac (key msg : List Byte) : List Byte :=
  let k0 := if 64 < key.length then sha256 key else key
  let k := k0 ++ List.replicate (64 - k0.length) 0
  sha256 (k.map (fun b => b ^^^ 0x5C#8) ++ sha256 (k.map (fun b => b ^^^ 0x36#8) ++ msg))

end Sys2Proof.Machine
end

