-- ==== Sys2Proof/Machine/Issue.lean ====
section
/-! DEFINITION. Core execution: appending, issuing, retiring, the watchdog, slots and hold windows (R127 to R149, R326,
R328, R553, R555), and the writes of CORE.FRAME, ME.CFG and RSTCMD. -/

namespace Sys2Proof.Machine

/-- A log record about a command of a context on a core (R135, R143, R149). -/
def State.logCmd (s : State) (cls core : Nat) (c : Cmd) (pos status : Nat) : State :=
  s.logEv cls 1 core { eng := c.eng, own := some c.own, ctx := some c.ctx, status := status, detail := pos }

/-! ### Appending (R28, R29, R127, R128, R323) -/

/-- A handle-gate pair is well formed: queue 31 exactly with count 0 (R128). -/
def pairOk (q n : Nat) : Bool := (q == 31) == (n == 0)

/-- The context table admits a command's context on a core (R323). -/
def State.ctxAdmits (s : State) (core : Nat) (c : Cmd) : Bool :=
  let w := Tbl.get 0 s.ctxTab c.ctx
  bit w 4 && fld w 0 2 == c.own && bit (s.core core).ctxEn c.ctx

/-- R128: words 0 to 2 of a command are well formed for engine `e` of a core. -/
def State.appendOk (s : State) (core : Nat) (e : Eng) (c : Cmd) : Bool :=
  c.eng == engCode e && decide (c.psel ≤ 8) && fld c.w0 27 5 == 0 && fld c.w1 0 16 != 0 && s.ctxAdmits core c &&
    pairOk c.inq c.inN && pairOk c.freeq c.freeN && pairOk c.outq c.outN && pairOk c.retq c.retN &&
    c.outN == c.freeN && c.retN == c.inN && !(c.outq == c.retq && c.outN != 0 && c.retN != 0)

/-- A refused append: counted in QSTAT and logged (R29, R128). -/
def State.refuseAppend (s : State) (core : Nat) (e : Eng) (c : Cmd) (full : Bool) : State :=
  let y := s.engine core (engCode e)
  let y' := if full then { y with overflow := satAdd 255 y.overflow 1 }
            else { y with malformed := satAdd 255 y.malformed 1 }
  ((s.setEngine core (engCode e) y').event 0x00D core 1).logEv 0x12 1 core
    { eng := engCode e, own := some c.own, ctx := some c.ctx }

/-- QUEUE_APPEND: a full queue refuses (R29); a malformed command is refused (R128); otherwise the command stands at the
tail, and a gated core clock is released (R583). -/
def State.append (s : State) (core : Nat) (e : Eng) (c : Cmd) : State :=
  let y := s.engine core (engCode e)
  if 64 ≤ y.queue.length then s.refuseAppend core e c true
  else if !s.appendOk core e c then s.refuseAppend core e c false
  else
    let y' := { y with queue := y.queue ++ [⟨y.appended % 64, c, s.coreCycle core⟩], appended := (y.appended + 1) % 64 }
    let s1 := s.setEngine core (engCode e) y'
    s1.setCore core { s1.core core with clockGated := false }

/-! ### Slots and hold windows (R137, R140 to R143, R326) -/

/-- Entry `n` of a slot table's bank: START and LEN in cycles. -/
def Engine.slotEntry (y : Engine) (bank n : Nat) : Nat × Nat :=
  let w := Tbl.get 0 y.slots (bank * 16 + n)
  (4 * fld w 0 16, 4 * fld w 16 16)

/-- Entry `n` of a hold-window bank. -/
def Core.holdEntry (x : Core) (bank n : Nat) : Nat × Nat :=
  let w := Tbl.get 0 x.rtHold (bank * 8 + n)
  (4 * fld w 0 16, 4 * fld w 16 16)

/-- The used entries of a table: those before the first with LEN 0. -/
def usedEntries (f : Nat → Nat × Nat) : Nat → Nat → List (Nat × Nat)
  | 0, _ => []
  | fuel + 1, n => if (f n).2 = 0 then [] else f n :: usedEntries f fuel (n + 1)

/-- The used slots of an engine in a bank. -/
def Engine.usedSlots (y : Engine) (bank : Nat) : List (Nat × Nat) := usedEntries (y.slotEntry bank) 16 0

/-- The used hold windows of a core in a bank. -/
def Core.usedHolds (x : Core) (bank : Nat) : List (Nat × Nat) := usedEntries (x.holdEntry bank) 8 0

/-- A table obeys R137: ascending, not overlapping, within the period. -/
def tableOk (period : Nat) : List (Nat × Nat) → Bool
  | [] => true
  | [(a, l)] => decide (a + l ≤ period)
  | (a, l) :: (b, m) :: r => decide (a < b) && decide (a + l ≤ b) && tableOk period ((b, m) :: r)

/-- The bank that becomes active at the next frame tick. -/
def Core.nextBank (x : Core) : Nat := if x.swapPend then 1 - x.frameActive else x.frameActive

/-- The current real-time slot of an engine, as absolute cycles, while it is open (R140). -/
def Core.openSlot (x : Core) (e now : Nat) : Option (Nat × Nat) :=
  match x.tickAt, (((x.engine e).usedSlots x.frameActive)[(x.engine e).slotIdx]?) with
  | some t, some (a, l) => if t + a ≤ now ∧ now < t + a + l then some (t + a, t + a + l) else none
  | _, _ => none

/-- The starts after `now` of a table's windows in this frame, else the first of the next frame (R141, R326). -/
def nextStart (tick period now : Nat) (cur next : List (Nat × Nat)) : Option Nat :=
  match (cur.filter (fun w => decide (now < tick + w.1))).head? with
  | some w => some (tick + w.1)
  | none => (next.head?).map (fun w => tick + period + w.1)

/-- R141: no real-time slot of the engine is open, and `need` cycles end t_FTG = 16 cycles before the next one. Before the
first frame tick no slot start is defined, and there is no limit (DEDUCED, log 175). -/
def Core.slotFits (x : Core) (e now need : Nat) : Bool :=
  match x.tickAt with
  | none => true
  | some t =>
    let y := x.engine e
    (x.openSlot e now).isNone &&
      (match nextStart t x.framePeriod now ((y.usedSlots x.frameActive).drop y.slotIdx) (y.usedSlots x.nextBank) with
       | some st => decide (now + need + 16 ≤ st)
       | none => true)

/-- R326: outside every hold window, and `need` cycles end t_FTG before the next one. -/
def Core.holdFits (x : Core) (now need : Nat) : Bool :=
  match x.tickAt with
  | none => true
  | some t =>
    !((x.usedHolds x.frameActive).any (fun w => decide (t + w.1 ≤ now) && decide (now < t + w.1 + w.2))) &&
      (match nextStart t x.framePeriod now (x.usedHolds x.frameActive) (x.usedHolds x.nextBank) with
       | some st => decide (now + need + 16 ≤ st)
       | none => true)

/-- B + B / 8 of a command (R148). -/
def watchOf (c : Cmd) : Nat := c.budget + c.budget / 8

/-! ### The chain of a best-effort HOLD (R328) -/

/-- The commands of a chain after its head: up to and including the first matrix command that drains; none if the queue ends
before it. -/
def chainOf : List Cmd → Option (List Cmd)
  | [] => none
  | c :: r => if c.hold || !isMatrix c then (chainOf r).map (fun l => c :: l) else some [c]

/-- The handles a list of commands takes from queue `q`. -/
def takesFrom (l : List Cmd) (q : Nat) : Nat :=
  (l.map (fun c => (if c.inq = q then c.inN else 0) + (if c.freeq = q then c.freeN else 0))).sum

/-- R328 for the head of a chain: the cycles the fit tests use, or none where the chain may not issue. -/
def State.chainNeed (s : State) (core : Nat) (c : Cmd) (later : List Cmd) : Option Nat :=
  let x := s.core core
  let timed := !((x.engine 0).usedSlots x.frameActive).isEmpty || !((x.engine 0).usedSlots x.nextBank).isEmpty ||
    !(x.usedHolds x.frameActive).isEmpty || !(x.usedHolds x.nextBank).isEmpty
  if isMatrix c && c.hold && c.init != 2 && timed then
    match chainOf (later.filter (fun d => d.ctx == c.ctx)) with
    | none => none
    | some r =>
      let chain := c :: r
      if (List.range 31).all (fun q => decide (takesFrom chain q ≤ s.ready (core / 4) q)) then
        some ((chain.map watchOf).sum)
      else none
  else some (watchOf c)

/-! ### Issuing (R129 to R139, R553) -/

/-- A command is real-time on a core (R129). -/
def Core.isRt (x : Core) (c : Cmd) : Bool := bit x.ctxClass c.ctx

/-- The commands of one class in a queue, oldest first (R130). -/
def Core.ofClass (x : Core) (e : Nat) (rt : Bool) : List QEntry :=
  (x.engine e).queue.filter (fun q => x.isRt q.cmd == rt)

/-- The queue without the oldest command of a class. -/
def dropClass (x : Core) (rt : Bool) : List QEntry → List QEntry
  | [] => []
  | q :: r => if x.isRt q.cmd == rt then r else q :: dropClass x rt r

/-- R101, R112 for the next ME command; LOAD_SCALES and SCALE_SWAP wait for the retirement of the command before them, and the
command after them for theirs (DEDUCED, log 43). -/
def Core.meFree (x : Core) (c : Cmd) (now : Nat) : Bool :=
  (x.engine 0).flights.isEmpty ||
  match x.mePrev with
  | some p =>
    isMatrix c && (x.engine 0).flights.all (fun f => isMatrix f.cmd) && p.kPos && p.chive == (c.opc == 0x11) &&
      !(c.opc == 0x11 && c.k == 0) && decide (p.feedEnd ≤ now)
  | none => false

/-- R132: the engine is free for a command. -/
def Core.engineFree (x : Core) (e : Nat) (c : Cmd) (now : Nat) : Bool :=
  match e with
  | 0 => x.meFree c now && !x.retired
  | 2 => decide ((x.engine 2).flights.length < 4)
  | 3 => decide ((x.engine 3).flights.length < 4)
  | _ => (x.engine e).flights.isEmpty

/-- R133: a pair is satisfied. -/
def State.pairReady (s : State) (u q n : Nat) : Bool :=
  q == 31 || (s.hq u q).badGate || decide (n ≤ s.ready u q)

/-- R133: the handle gate; a queue named by both pairs must hold both counts. -/
def State.gateOk (s : State) (u : Nat) (c : Cmd) : Bool :=
  s.pairReady u c.inq (if c.inq = c.freeq then c.inN + c.freeN else c.inN) && s.pairReady u c.freeq c.freeN

/-- R291: a pair of the command names a queue that is off, or INQ or FREEQ one that forwards, so the command pops nothing
and is refused (log 164). -/
def State.gateRefuses (s : State) (u : Nat) (c : Cmd) : Bool :=
  (c.inq != 31 && (s.hq u c.inq).badGate) || (c.freeq != 31 && (s.hq u c.freeq).badGate) ||
    (c.outq != 31 && (s.hq u c.outq).depth == 0) || (c.retq != 31 && (s.hq u c.retq).depth == 0)

/-- The engine may issue at all now: not in self-test (R155), not fenced (R559), one issue a cycle (R130), no watchdog holds
the command's context (R149), and, for ME and SEQ, no array test atom runs (R120, R158). -/
def Core.mayIssue (x : Core) (e : Nat) (c : Cmd) (now : Nat) : Bool :=
  !x.selfTest && !x.fenced && (x.engine e).lastIssue != some now && !bit (x.engine e).hung c.ctx &&
    !((e == 0 || e == 4) && decide (now < x.atomEnd))

/-- The operands of a command with the popped handles (R163, R165). -/
def Core.bind (x : Core) (c : Cmd) (hs : List W32) : Bound :=
  { cmd := c
    views := (c.usesViews.zip ((List.range 4).map c.viewNo)).map (fun p => if p.1 then x.latch p.2 hs else View.none_)
    geo := match c.geoNo with
      | some n => (List.range 8).map (x.geoWord n)
      | none => []
    sdesc := if c.opc = 0x50 ∨ c.opc = 0x51 then
      (List.range 10).map (fun w => Tbl.get 0 x.sdescs (fld c.w3 6 6 * 10 + w)) else []
    width := x.width }

/-- The seed of a context on a core (R246). -/
def Core.seed (x : Core) (n : Nat) : W64 :=
  BitVec.ofNat 64 ((Tbl.get 0 x.seeds (2 * n)).toNat + (Tbl.get 0 x.seeds (2 * n + 1)).toNat * 2 ^ 32)

/-- Feed-bearing: a matrix command that reads operands (R115, R123). -/
def Bound.feeds (b : Bound) : Bool := isMatrix b.cmd && b.kLen != 0

/-- The idle gap exceeds t_GAP = 256 cycles, or is unbounded (R123). -/
def Core.gapLong (x : Core) (now : Nat) : Bool :=
  match x.gapFrom with
  | some g => decide (256 < now - g)
  | none => true

/-- t_RAMP of a command (R122, R123). -/
def Core.ramp (x : Core) (b : Bound) (now : Nat) : Nat :=
  if b.feeds && !x.fillMode && x.gapLong now then 32 else 0

/-- A held bank is discarded and counted (R106). -/
def State.loseHold (s : State) (core : Nat) : State :=
  let x := s.core core
  if x.held.isSome then (s.setCore core { x with held := none }).event 0x004 core 1 else s

/-- The dummy fill around a feed-bearing command (R122): the fill that runs ends where the command's feed begins, and the next
starts at its feed end and lasts 128 cycles. -/
def nextFills (fills : List (Nat × Nat)) (feedBegin feedEnd : Nat) : List (Nat × Nat) :=
  (fills.map (fun p => (p.1, min p.2 feedBegin))).filter (fun p => decide (p.1 < p.2)) ++ [(feedEnd, feedEnd + 128)]

/-- What an executing ME command does to the accumulator banks at issue (R103, R106): a KEEP goes on in the held bank; any
other ME command discards it; a HOLD stores its record. -/
def State.meIssue (s : State) (core : Nat) (b : Bound) (now ramp feedEnd dur : Nat) : State × Nat :=
  let keep := isMatrix b.cmd && b.cmd.init == 2
  let s1 := if keep then s else s.loseHold core
  let x := s1.core core
  let bank := match x.held with
    | some h => if keep then h.bank else 1 - x.lastBank
    | none => 1 - x.lastBank
  if isMatrix b.cmd then
    let x1 := { x with
      held := if b.cmd.hold then some (b.holdOf bank) else none
      lastBank := (bank + b.tiles - 1) % 2
      mePrev := some ⟨b.cmd.opc == 0x11, b.kLen != 0, now + feedEnd, now + dur⟩
      gapFrom := if b.feeds then some (now + feedEnd) else x.gapFrom
      fills := if b.feeds && x.fillMode then nextFills x.fills (now + b.preTime ramp) (now + feedEnd) else x.fills }
    let s2 := s1.setCore core x1
    let s3 := s2.event 0x001 core ramp
    let s4 := if b.feeds && b.cmd.rampExempt && ramp != 0 then s3.event 0x003 core 1 else s3
    ((if b.feeds then s4.event 0x000 core (b.passTimes.map (fun p => p.1)).sum else s4), bank)
  else (s1, bank)

/-- SCALE_SWAP exchanges the banks of the scale file in its issue cycle (R178). -/
def State.swapAtIssue (s : State) (core : Nat) (c : Cmd) : State :=
  if c.opc = 0x14 then s.setCore core { s.core core with scaleBank := 1 - (s.core core).scaleBank } else s

/-- The command as it executes from now on; `rst`: it was submitted through RSTCMD. -/
def State.launch (s : State) (core : Nat) (q : QEntry) (rt rst : Bool) (b : Bound) (ins frees : List W32) : State :=
  let c := q.cmd
  let x := s.core core
  let now := s.coreCycle core
  let ramp := x.ramp b now
  let t := b.time ramp
  let (s1, bank) := if c.eng = 0 then s.meIssue core b now ramp t.2 t.1 else (s, 0)
  let y := s1.engine core c.eng
  let f : Flight :=
    { cmd := c, pos := q.pos, rt := rt, issue := now, dur := t.1, feedEnd := now + t.2, ins := ins, frees := frees,
      views := b.views, geo := b.geo, sdesc := b.sdesc, seed := x.seed c.ctx, bank := x.scaleBank, accBank := bank,
      t0 := s.now, ramp := ramp, stall := 0, started := false, done := false, status := 0, bad := false,
      pbit := none, rstcmd := rst }
  (s1.setEngine core c.eng { y with flights := y.flights ++ [f] }).swapAtIssue core c

/-- A window write of the device itself that WINDOW refuses at issue counts at its window and its memory (R187, R271, R277). -/
def State.countWindow (s : State) (c : Cmd) (status : Nat) : State :=
  if status = 0x0C ∧ c.opc = 0x54 then
    let n := fld c.w3 6 6
    let w := s.win n 0
    (s.incO (ok (0x6200 + n) 4) 1).event 0x086 (if bit w 5 then 24 + fld w 0 5 else fld w 0 5) 1
  else s

/-- A command that does not execute retires in its issue cycle: its handles are pushed with the flag of its outcome
(R138, R139); a refused one is counted and logged (R135). -/
def State.pass (s : State) (core : Nat) (q : QEntry) (ins frees : List W32) (skip invalid : Bool) (status : Nat) : State :=
  let c := q.cmd
  let s1 := if status = 0 then s else
    (let s2 := if c.eng = 0 then s.event 0x005 core 1 else if c.eng = 1 then s.event 0x00A core 1 else s
     (s2.countWindow c status).logCmd 0x0E core c q.pos status)
  (s1.pushOutputs core c ins frees skip invalid false).trace 2 core c.eng (some c.ctx) c.opc
    (status + b01 skip * 256 + b01 invalid * 512)

/-- The commands that end a segment of a context on an engine, and that have not retired: its MARK-flagged commands, and its
MARK commands on SEQ (R330). -/
def Core.endsLeft (x : Core) (n e : Nat) : Nat :=
  let ends (c : Cmd) : Bool := c.ctx == n && (if e = 4 then c.opc == 0x05 else c.markFlag)
  ((x.engine e).queue.filter (fun q => ends q.cmd)).length + ((x.engine e).flights.filter (fun f => ends f.cmd)).length

/-- The segments of a context on a core that are whole and have not retired: as many as the engine furthest behind has such
ends, but for those of the segment that is being appended (R330). -/
def Core.segsLeft (x : Core) (n : Nat) : Nat :=
  let r := Tbl.get SegRec.reset x.segs n
  ((List.range 5).map (fun e => x.endsLeft n e - (if e = 4 then b01 r.mask.isSome else b01 (nbit r.engs e)))).foldl max 0

/-- The MARK flag of a command that retires (R160, R331): a best-effort context's engine has reached its cheap point. The
segments that have retired with it no longer stand in the queues (R330). -/
def Core.noteMark (x : Core) (c : Cmd) (rt : Bool) : Core :=
  if (c.markFlag || c.opc == 0x05) && !rt then
    let m := Tbl.get MarkRec.reset x.marks c.ctx
    let l := Tbl.get [] x.segOut c.ctx
    { x with marks := if c.markFlag then Tbl.set MarkRec.reset x.marks c.ctx { m with engs := nput m.engs c.eng 1 1 } else x.marks
             segOut := Tbl.set [] x.segOut c.ctx (l.drop (l.length - x.segsLeft c.ctx)) }
  else x

/-- A purged best-effort command leaves its queue with no effect at all (R553). -/
def State.discard (s : State) (core e : Nat) : State :=
  let x := s.core core
  s.setEngine core e { x.engine e with queue := dropClass x false (x.engine e).queue }

/-- The command leaves its queue; SLOT_END advances SLOT_IDX or closes the best-effort group (R140, R142). -/
def State.dequeue (s : State) (core e : Nat) (c : Cmd) (rt : Bool) : State :=
  let x := s.core core
  let y := x.engine e
  let y1 := { y with queue := dropClass x rt y.queue, lastIssue := some (s.coreCycle core) }
  let y2 := if c.slotEnd then (if rt then { y1 with slotIdx := y1.slotIdx + 1 } else { y1 with beStart := none }) else y1
  s.setEngine core e y2

/-- The command leaves its queue and takes its handles: its input handles, its free handles, and the state that its checks
find; one whose gate names a queue that is off or forwards takes none (R133, R291). -/
def State.issueTake (s : State) (core : Nat) (q : QEntry) (rt : Bool) : List W32 × List W32 × State :=
  let c := q.cmd
  let u := core / 4
  let s0 := (s.dequeue core c.eng c rt).trace 1 core c.eng (some c.ctx) c.opc
    (q.pos + b01 rt * 64 + fld c.w1 0 16 * 2 ^ 16)
  if s.gateRefuses u c then ([], [], s0)
  else
    let p := s0.pop u c.inq c.inN (core * 8 + c.eng)
    let r := p.2.pop u c.freeq c.freeN (core * 8 + c.eng)
    (p.1, r.1, r.2)

/-- A request for a reset step is raised to the PMC. -/
def State.raise (s : State) (r : ResetReq) : State := { s with reqs := s.reqs ++ [r] }

/-- What the core notes of held banks as a command executes: a real-time ME command discards the bank of a best-effort
context; a HOLD of that context begins anew (R106, R328). -/
def Core.noteHold (x : Core) (c : Cmd) (rt : Bool) : Core :=
  if c.eng ≠ 0 then x
  else if rt then
    match x.held with
    | some h => if (isMatrix c && c.init == 2) || bit x.ctxClass h.ctx then x else { x with lostHolds := putBit64 x.lostHolds h.ctx true }
    | none => x
  else if isMatrix c && c.hold then { x with lostHolds := putBit64 x.lostHolds c.ctx false } else x

/-- A best-effort ME command refused with ACC_STATE after a real-time command has discarded its held bank: its context
takes a context reset, for which the spec names no failure class (R328). -/
def State.chainBroken (s : State) (core : Nat) (c : Cmd) (rt : Bool) (status : Nat) : State :=
  if status = 0x07 ∧ rt = false ∧ c.eng = 0 ∧ bit (s.core core).lostHolds c.ctx = true then
    (s.setCore core { s.core core with lostHolds := putBit64 (s.core core).lostHolds c.ctx false }).raise ⟨1, c.ctx, 0, none, true⟩
  else s

/-- The command's issue itself: handles popped, checks run, the outcome of R138 taken. One that does not execute pushes its
handles in this cycle, in its turn (R292). -/
def State.issueCmd (s : State) (core : Nat) (q : QEntry) (rt : Bool) : State :=
  let c := q.cmd
  let pred := (s.core core).predicate c rt (s.coreCycle core)
  let g := s.issueTake core q rt
  let b := (g.2.2.core core).bind c (g.1 ++ g.2.1)
  let passed (k i : Bool) (n : Nat) : State :=
    if s.pushTurn core c then
      (let t := g.2.2.pass core q g.1 g.2.1 k i n
       t.setCore core ((t.core core).noteMark c rt))
    else s
  match outcomeOf (Issue.mk g.2.2 core b g.1 g.2.1).status g.1 pred with
  | .refused n => if s.pushTurn core c then (passed false true n).chainBroken core c rt n else s
  | .invalid => passed false true 0
  | .skipped => passed true false 0
  | .executes => (g.2.2.setCore core ((g.2.2.core core).noteHold c rt)).launch core q rt false b g.1 g.2.1

/-- The earliest issue time of a command has come and its class may issue (R131 conditions 1 and 4, R140 to R142, R326,
R328); `start` is the slot start of its best-effort group, if one is set. -/
def State.timeOk (s : State) (core e : Nat) (rt : Bool) (c : Cmd) (later : List Cmd) : Bool :=
  let x := s.core core
  let now := s.coreCycle core
  if rt then
    match x.openSlot e now with
    | some (st, _) => !(x.engine e).slotMiss && decide (st + 4 * c.at_ ≤ now)
    | none => false
  else
    match s.chainNeed core c later with
    | none => false
    | some need => x.slotFits e now need && x.holdFits now need &&
        decide ((x.engine e).beStart.getD now + 4 * c.at_ ≤ now)

/-- A best-effort group's slot start is the first cycle in which its head is the oldest of its class and the tests of R141 and
R326 pass (R142). -/
def State.noteStart (s : State) (core e : Nat) (rt : Bool) (c : Cmd) (later : List Cmd) : State :=
  let x := s.core core
  let now := s.coreCycle core
  let y := x.engine e
  if rt || y.beStart.isSome then s
  else match s.chainNeed core c later with
    | none => s
    | some need =>
      if x.slotFits e now need && x.holdFits now need then s.setEngine core e { y with beStart := some now } else s

/-- R553: the command's context is in reset on the core. -/
def Core.purges (x : Core) (c : Cmd) : Bool := bit x.ctxRst c.ctx

/-- COMMAND_ISSUE (R30, R130, R131): the oldest command of a class of an engine, appended in an earlier cycle, is
considered; it issues if its time has come, its gate is satisfied, its engine is free and its class may issue. A purged
command leaves without effect (R553). -/
def State.consider (s : State) (core e : Nat) (rt : Bool) : State :=
  let x := s.core core
  let now := s.coreCycle core
  match x.ofClass e rt with
  | [] => s
  | q :: r =>
    let c := q.cmd
    let later := r.map (fun z => z.cmd)
    if !s.clockRuns core || x.selfTest || x.fenced || x.outOfUse == 2 || (x.outOfUse == 1 && e == 0) then s
    else if x.purges c && !rt then (s.discard core e).event 0x00C core 1
    else if !x.mayIssue e c now || !decide (q.since < now) then s
    else if x.purges c then
      if s.timeOk core e rt c later && x.engineFree e c now then
        let s1 := (s.dequeue core e c rt).event 0x00C core 1
        s1.setCore core ((s1.core core).noteMark c rt)
      else s
    else
      let s1 := s.noteStart core e rt c later
      if s1.timeOk core e rt c later && s1.gateOk (core / 4) c && x.engineFree e c now && s1.popTurn core c then
        s1.issueCmd core q rt
      else s1

/-- The slot start of an engine's best-effort head, where it falls in the cycle that begins (R142). -/
def State.noteHead (s : State) (core e : Nat) : State :=
  if (s.engine core e).queue.isEmpty then s
  else match (s.core core).ofClass e false with
    | [] => s
    | q :: r => s.noteStart core e false q.cmd (r.map (fun z => z.cmd))

/-- What a cycle of a core begins with: the slot starts of its engines' best-effort heads (R142). -/
def State.beginCycle (s : State) (core : Nat) : State := (List.range 5).foldl (fun t e => t.noteHead core e) s

/-- What a cycle `c` of a core ends with: a cycle of dummy fill counts (R122). -/
def State.countFill (s : State) (core c : Nat) : State :=
  let x := s.core core
  if x.fills.isEmpty then s
  else
    let t := s.setCore core { x with fills := x.fills.filter (fun p => decide (c + 1 < p.2)) }
    if x.fills.any (fun p => decide (p.1 ≤ c) && decide (c < p.2)) then t.event 0x001 core 1 else t

/-! ### Retiring (R132, R136, R138, R144, R170, R183) -/

/-- The retirement of a command: it leaves its engine, writes its predicate bit, pushes its handles, and its MARK flag
acts. -/
def State.retireFlight (s : State) (core e : Nat) (f : Flight) (rest : List Flight) : State :=
  let x := s.core core
  let x1 := x.setEngine e { x.engine e with flights := rest }
  let x2 := match f.pbit with
    | some v =>
      let i := fld f.cmd.w5 4 3 - 5
      if (x1.pred f.rt).setpWins i (s.coreCycle core) then x1
      else x1.setPred f.rt (((x1.pred f.rt).latch (s.coreCycle core)).setBit i v)
    | none => x1
  let s1 := s.setCore core (x2.noteMark f.cmd f.rt)
  let s2 := if f.pbit.isSome then s1.event 0x009 core 1 else s1
  let s3 := s2.pushOutputs core f.cmd f.ins f.frees false f.bad (f.status == 0)
  s3.trace 2 core e (some f.cmd.ctx) f.cmd.opc
    (f.status + b01 f.bad * 512 + min 0xFFFF ((s.coreCycle core - f.issue) / 16) * 2 ^ 16)

/-- The oldest command of an engine may retire: its effect is done and its duration over (R132, R144, R263). -/
def Flight.due (f : Flight) (now : Nat) : Bool := f.done && decide (f.issue + f.dur ≤ now)

/-- The watchdog of a command has not expired: cycle issue + B + B / 8 has not passed (R148). -/
def Flight.inTime (f : Flight) (now : Nat) : Bool := decide (now ≤ f.issue + watchOf f.cmd)

/-- COMMAND_RETIRE (R136): the oldest command of an engine retires in order once its effect is done and its time over, before
its watchdog expires (R148); its pushes take their turn (R292). -/
def State.retire (s : State) (core e : Nat) : State :=
  match (s.engine core e).flights with
  | [] => s
  | f :: r =>
    let now := s.coreCycle core
    if f.due now && f.inTime now && s.pushTurn core f.cmd then s.retireFlight core e f r else s

/-- The tag of a window write: core, engine and queue position (log 23). -/
def writeTag (core eng pos : Nat) : Nat := (core * 2 + (eng - 2)) * 64 + pos

/-- A packet of a window write of the command awaits its answer (R170). -/
def State.awaits (s : State) (core e : Nat) (f : Flight) : Bool :=
  f.started && s.writes.any (fun x => x.core == core && x.eng == e && x.tag == writeTag core e f.pos)

/-- STREAM_FAULT_END (R170): the oldest stream command that has met a fault stops; once its outstanding accesses are answered
it retires with INVALID outputs and its status is logged. -/
def State.streamFaultEnd (s : State) (core e : Nat) : State :=
  match (s.engine core e).flights with
  | [] => s
  | f :: r =>
    let now := s.coreCycle core
    if f.status ≠ 0 ∧ (f.inTime now && s.pushTurn core f.cmd && !s.awaits core e f) = true then
      ((s.retireFlight core e { f with bad := true } r).event 0x043 (2 * core + e - 2) 1).logCmd 0x0E core f.cmd f.pos
        f.status
    else s

/-! ### The watchdog and slot misses (R143, R148, R149) -/

/-- The hang event of a stopped command: a context reset of its context (R149, R548). -/
def State.raiseHang (s : State) (core e ctx : Nat) : State := s.raise ⟨1, ctx, 0x03, some (core * 8 + e), true⟩

/-- WATCHDOG_EXPIRY (R148, R149): a command not retired by issue + B + B / 8 is stopped; it pushes no handle, and the engine
issues no command of its context until the context's CTXRST bit is set. -/
def State.watchdog (s : State) (core e : Nat) : State :=
  let x := s.core core
  let y := s.engine core e
  let now := s.coreCycle core
  match takeFirst (fun f : Flight => decide (f.issue + watchOf f.cmd ≤ now) && !(f.due now && f.inTime now)) y.flights with
  | none => s
  | some (f, rest) =>
    let hung := if bit x.ctxRst f.cmd.ctx then y.hung else putBit64 y.hung f.cmd.ctx true
    let s1 := s.setEngine core e { y with flights := rest, hung := hung }
    (((s1.event 0x00B core 1).logCmd 0x0F core f.cmd f.pos 0).raiseHang core e f.cmd.ctx).drainWindows

/-- SLOT_MISS (R143): the current real-time slot has reached its end with no SLOT_END command issued. -/
def State.slotMiss (s : State) (core e : Nat) : State :=
  let x := s.core core
  let y := x.engine e
  match x.tickAt, (y.usedSlots x.frameActive)[y.slotIdx]? with
  | some t, some (a, l) =>
    if t + a + l ≤ s.coreCycle core ∧ y.slotMiss = false then
      ((s.setEngine core e { y with slotMiss := true }).logEv 0x10 1 core { eng := e, detail := y.slotIdx }).raise
        ⟨2, core * 8 + e, 0x03, some (core * 8 + e), true⟩
    else s
  | _, _ => s

/-! ### The frame tick and CORE.FRAME (R137) -/

/-- The engine at a frame tick: SLOT_IDX back at 0. -/
def Engine.tick (y : Engine) : Engine := { y with slotIdx := 0 }

/-- The five engines of a core, each changed. -/
def Core.mapEngines (x : Core) (f : Nat → Engine → Engine) : Core :=
  (List.range 5).foldl (fun x e => x.setEngine e (f e (x.engine e))) x

/-- CORE_FRAME_TICK (R137): a pending swap first, then SLOT_IDX to 0. -/
def State.frameTick (s : State) (core : Nat) : State :=
  let x := s.core core
  let x1 := (if x.swapPend then { x with frameActive := 1 - x.frameActive, swapPend := false } else x).mapEngines
    (fun _ y => y.tick)
  s.setCore core { x1 with tickAt := some (s.coreCycle core) }

/-- The inactive bank of every table of a core obeys R137 and R326. -/
def Core.inactiveOk (x : Core) : Bool :=
  let b := 1 - x.frameActive
  (List.range 5).all (fun e => tableOk x.framePeriod ((x.engine e).usedSlots b)) && tableOk x.framePeriod (x.usedHolds b)

/-- FRAME_SWAP_WRITE (R137, R326): a swap becomes pending, or is refused and logged where a bank breaks the rules. -/
def State.frameSwapWrite (s : State) (core : Nat) : State :=
  let x := s.core core
  if x.inactiveOk then s.setCore core { x with swapPend := true } else s.logEv 0x12 1 core {}

/-! ### ME.CFG (R116, R118) -/

/-- The WIDTH field a value of ME.CFG shows: 32 minus the slots in use, 0 while RETIRED. -/
def meWidth (v : W32) : Nat := if bit v 17 then 0 else 32 - b01 (bit v 5) - b01 (bit v 13)

/-- A write of ME.CFG is legal on a fenced core: no reserved bit, not both slots on one column, RETIRED not cleared. -/
def meCfgOk (old v : W32) : Bool :=
  fld v 6 2 == 0 && fld v 14 2 == 0 && fld v 18 6 == 0 && fld v 30 2 == 0 &&
    !(bit v 5 && bit v 13 && fld v 0 5 == fld v 8 5) && !(bit old 17 && !bit v 17)

/-- The repair state of a core shows its ME.CFG (0x8200 + n ARRAY_REPAIR, RETIRED_CORES). -/
def State.showWidth (s : State) (core : Nat) : State :=
  let v := (s.core core).meCfg
  (((s.setOBit 0x800003 core (bit v 17)).setO (ok (0x8200 + core) 1) (meWidth v)).setO (ok (0x8200 + core) 2) (if bit v 5 then fld v 0 5 else 0xFF)).setO
    (ok (0x8200 + core) 3) (if bit v 13 then fld v 8 5 else 0xFF)

/-- ME.CFG of a core takes a value, which the repair state records (R64). -/
def State.putMeCfg (s : State) (c : Nat) (v : W32) : State :=
  let s1 := (s.setCore c { s.core c with meCfg := v }).showWidth c
  { s1 with flash := { s1.flash with cfg := Tbl.set 0 s1.flash.cfg c v } }

/-- ME_CFG_WRITE (R118): refused and logged on an unfenced core or where it is illegal; WIDTH is read-only. -/
def State.meCfgWrite (s : State) (core : Nat) (v : W32) : State :=
  let x := s.core core
  if x.fenced && meCfgOk x.meCfg v then s.putMeCfg core (put32 v 24 6 0)
  else s.logEv 0x12 1 core {}

/-! ### RSTCMD (R555) -/

/-- RSTCMD_SUBMIT (R555): an HINIT for a context in reset on a stream engine that is not busy; it issues at once where its
engine is free, no real-time slot is open and no hold window is active, and otherwise stays pending. -/
def State.rstSubmit (s : State) (core e : Nat) (c : Cmd) : State :=
  let y := s.engine core e
  let busy := y.rstPending.isSome || y.flights.any (fun f => f.rstcmd)
  if c.opc = 0x60 ∧ c.eng = e ∧ bit (s.core core).ctxRst c.ctx = true ∧ busy = false then
    let s1 := s.setEngine core e { y with rstPending := some c, rstRefused := false }
    s1.setCore core { s1.core core with clockGated := false }
  else (s.setEngine core e { y with rstRefused := true }).logEv 0x26 1 core { eng := e, ctx := some c.ctx }

/-- A pending RSTCMD issues ahead of the queue (R555); a command that fails R188 is refused. -/
def State.rstIssue (s : State) (core e : Nat) : State :=
  let x := s.core core
  let y := x.engine e
  let now := s.coreCycle core
  match y.rstPending with
  | none => s
  | some c =>
    if s.clockRuns core && x.engineFree e c now && (x.openSlot e now).isNone && x.holdFits now 0 then
      let s1 := s.setEngine core e { y with rstPending := none }
      let b := x.bind c []
      let st := (Issue.mk s1 core b [] []).status
      if st ≠ 0 then
        (s1.setEngine core e { (s1.engine core e) with rstRefused := true }).logCmd 0x0E core c 0 st
      else s1.launch core ⟨0, c, 0⟩ (x.isRt c) true b [] []
    else s

end Sys2Proof.Machine
end

