-- ==== Sys2Proof/Machine/Seq.lean ====
section
/-! DEFINITION. The execution of an issued engine command, and the sequencer commands (R153, R171, R172, R331). -/

namespace Sys2Proof.Machine

/-- The list with its first element that satisfies a test replaced. -/
def updateFirst {α : Type} (p : α → Bool) (x : α) : List α → List α
  | [] => []
  | y :: r => if p y then x :: r else y :: updateFirst p x r

/-- A command of opcode `opc` that executes and whose effect is still to come. -/
def Flight.awaits (opc : Nat) (f : Flight) : Bool := f.cmd.opc == opc && !f.done && !f.started && f.status == 0

/-- The command an effect of opcode `opc` on engine `e` belongs to: the oldest with that opcode whose effect is still to
come. On engines but the stream engines every older command's effect comes first (R100, R132). -/
def State.current (s : State) (core e opc : Nat) : Option Flight :=
  let l := (s.engine core e).flights
  if e = 2 ∨ e = 3 then l.find? (Flight.awaits opc)
  else match l.find? (fun f => !f.done) with
    | some f => if f.awaits opc then some f else none
    | none => none

/-- The effect of an executing command: `eff` answers the state after it and the command as it goes on. -/
def State.perform (s : State) (core e opc : Nat) (eff : State → Flight → State × Flight) : State :=
  match s.current core e opc with
  | none => s
  | some f =>
    let r := eff s f
    let y := r.1.engine core e
    r.1.setEngine core e { y with flights := updateFirst (Flight.awaits opc) r.2 y.flights }

/-- The command with its effect done. -/
def Flight.finish (f : Flight) : Flight := { f with done := true }

/-- A sequencer command writes its result at retirement, t_SEQ = 4 cycles after issue (R153). -/
def seqEffect (core : Nat) (g : PredBank → Cmd → PredBank) (s : State) (f : Flight) : State × Flight :=
  if s.coreCycle core < f.issue + 4 then (s, f)
  else
    let x := s.core core
    (s.setCore core (x.setPred f.rt (g ((x.pred f.rt).latch (s.coreCycle core)) f.cmd)), f.finish)

/-- SETC: counter CNT of the bank of the command's class takes VALUE (R153, R171). -/
def setcBank (b : PredBank) (c : Cmd) : PredBank := b.setCounter (fld c.w3 0 3) c.w4

/-- ADDC: DELTA is added to counter CNT modulo 2^32 (R153). -/
def addcBank (b : PredBank) (c : Cmd) : PredBank := b.setCounter (fld c.w3 0 3) (b.counter (fld c.w3 0 3) + c.w4)

/-- CMP: comparator CMPX takes counter, relation and limit (R154, R171). -/
def cmpBank (b : PredBank) (c : Cmd) : PredBank :=
  { b with comparators := Tbl.set Comparator.reset b.comparators (fld c.w3 0 2) ⟨fld c.w3 4 3, fld c.w3 8 3, c.w4⟩ }

/-- SETP in a cycle: P5 to P8 (R153, R171), with the bits it writes, which it keeps from any other writer of the cycle,
whichever row comes first (R152). -/
def setpBank (now : Nat) (b : PredBank) (c : Cmd) : PredBank :=
  { b with p58 := setpBits b.p58 (b.atStart now).p58 (fld c.w3 0 4) (fld c.w3 4 4) (fld c.w3 8 4), setpAt := now + 1
           setpMask := fld c.w3 0 4 ||| fld c.w3 4 4 ||| fld c.w3 8 4 }

/-- NOP does nothing for its four cycles. -/
def execNop (core : Fin 24) (s : State) : Host.Outcome State Fault Refusal :=
  .next (s.perform core 4 0x00 (seqEffect core (fun b _ => b)))

/-- SETC (R153). -/
def execSetc (core : Fin 24) (s : State) : Host.Outcome State Fault Refusal :=
  .next (s.perform core 4 0x01 (seqEffect core setcBank))

/-- ADDC (R153). -/
def execAddc (core : Fin 24) (s : State) : Host.Outcome State Fault Refusal :=
  .next (s.perform core 4 0x02 (seqEffect core addcBank))

/-- CMP (R154). -/
def execCmp (core : Fin 24) (s : State) : Host.Outcome State Fault Refusal :=
  .next (s.perform core 4 0x03 (seqEffect core cmpBank))

/-- SETP (R153). -/
def execSetp (core : Fin 24) (s : State) : Host.Outcome State Fault Refusal :=
  .next (s.perform core 4 0x04 (seqEffect core (setpBank (s.coreCycle core))))

/-- MARK of a best-effort context leaves its live bitmap, cheap-point number and engine mask with the core; in a real-time
context it is a NOP (R172, R331). -/
def markEffect (core : Nat) (s : State) (f : Flight) : State × Flight :=
  if s.coreCycle core < f.issue + 4 then (s, f)
  else if f.rt then (s, f.finish)
  else
    let x := s.core core
    let m := Tbl.get MarkRec.reset x.marks f.cmd.ctx
    let m1 : MarkRec := { m with id := fld f.cmd.w5 0 16, live := f.cmd.w3.toNat + f.cmd.w4.toNat * 2 ^ 32,
                                 mask := some (fld f.cmd.w5 16 4) }
    (s.setCore core { x with marks := Tbl.set MarkRec.reset x.marks f.cmd.ctx m1 }, f.finish)

/-- MARK (R331). -/
def execMark (core : Fin 24) (s : State) : Host.Outcome State Fault Refusal :=
  .next (s.perform core 4 0x05 (markEffect core))

end Sys2Proof.Machine
end

