-- ==== Sys2Proof/Machine/Scale.lean ====
section
/-! DEFINITION. The scale file: its entries, the integer and float paths of a drain, QUANT and RESCALE, the statistics
(R227 to R241), and the commands LOAD_SCALES, SCALE_SWAP and SCALE_UPDATE. -/

namespace Sys2Proof.Machine

/-! ### Entries (R227, R229) -/

/-- Word `w` of entry `ch` of a bank. -/
def Core.scaleWord (x : Core) (bank ch w : Nat) : W32 := Tbl.get 0 x.scales (bank * 8192 + ch * 4 + w)

/-- M of an entry, signed. -/
def Core.scM (x : Core) (bank ch : Nat) : Int := (x.scaleWord bank ch 0).toInt
/-- SHIFT. -/
def Core.scShift (x : Core) (bank ch : Nat) : Nat := fld (x.scaleWord bank ch 1) 0 6
/-- ZP, signed. -/
def Core.scZp (x : Core) (bank ch : Nat) : Int := sext 16 (fld (x.scaleWord bank ch 1) 16 16)
/-- FSCALE. -/
def Core.scF (x : Core) (bank ch : Nat) : Num := ofBits32 (x.scaleWord bank ch 2).toNat
/-- EXP, signed. -/
def Core.scExp (x : Core) (bank ch : Nat) : Int := sext 8 (fld (x.scaleWord bank ch 3) 0 8)
/-- CLEAN. -/
def Core.scClean (x : Core) (bank ch : Nat) : Nat := fld (x.scaleWord bank ch 3) 24 8
/-- TIE. -/
def Core.scTie (x : Core) (bank ch : Nat) : Bool := bit (x.scaleWord bank ch 3) 20
/-- FRZ. -/
def Core.scFrz (x : Core) (bank ch : Nat) : Bool := bit (x.scaleWord bank ch 3) 21

/-- R229: the effective exponent of a channel. -/
def Core.effExp (x : Core) (bank ch : Nat) : Int :=
  let w := x.scaleWord bank ch 3
  x.scExp bank ch - (if bit w 19 then x.scExp bank (fld w 8 11) else 0)

/-- SHIFT plus the effective exponent leaves 0 to 63 and is clamped (R230, R231). -/
def Core.clamps (x : Core) (bank ch : Nat) : Bool :=
  let e := (x.scShift bank ch : Int) + x.effExp bank ch
  decide (e < 0) || decide (63 < e)

/-! ### Conversions -/

/-- A converted value: its code, the saturations and NaN mappings counted, the magnitude for AMAX (none for a NaN) and
whether it reached a quarter of its range (R231, R236). -/
structure Out where
  code : Nat
  exc : Nat
  mag : Option Num
  high : Bool
  deriving DecidableEq, Repr

/-- The end of the integer path: ZP is added and the sum saturates (R230, R231, R234, R236). -/
def intFinish (bits : Nat) (lo hi zp r : Int) (exc : Nat) : Out :=
  let z := r + zp
  let excess := decide (z < lo) || decide (hi < z)
  { code := trunc bits (if z < lo then lo else if hi < z then hi else z), exc := exc + b01 excess
    mag := some (round32 (.ofInt (if r < 0 then -r else r)))
    high := (decide (0 < r) && decide (hi - zp ≤ 4 * r)) || (decide (r < 0) && decide (4 * r ≤ lo - zp)) }

/-- p / 2^sh rounded to an integer, half away from zero, or between the adjacent integers under R91 (R230, R235). -/
def shiftRound (rnd : Rnd) (p : Int) (sh : Nat) : Int :=
  let a := match rnd with
    | .near => (p.natAbs + 2 ^ (sh - 1)) / 2 ^ sh
    | .stoch v => roundNat (.stoch v) p.natAbs sh
  if p < 0 then -(a : Int) else a

/-- R230: the integer path of one value. -/
def Core.intPath (x : Core) (bank ch : Nat) (f : Fmt) (lo hi : Int) (rnd : Rnd) (acc : Num) : Out :=
  let a := convertInt 32 (-2147483648) 2147483647 .near acc
  let e0 := (x.scShift bank ch : Int) + x.effExp bank ch
  let e := if e0 < 0 then 0 else if 63 < e0 then 63 else e0.toNat
  intFinish f.bits lo hi (x.scZp bank ch) (shiftRound rnd (sext 32 a.code * x.scM bank ch) (31 + e))
    (b01 a.sat + b01 a.nanMapped)

/-- y = v × FSCALE × 2^-x, exactly (R233, R234). -/
def Core.scaled (x : Core) (bank ch : Nat) (v : Num) : Num := (v.mul (x.scF bank ch)).scale2 (-(x.effExp bank ch))

/-- The largest finite value of a destination of the float path. -/
def Fmt.top (f : Fmt) : Num := match f.float with | some g => g.maxFinite | none => .zero

/-- |y| as the statistics take it: rounded to FP32, none for a NaN (R236). -/
def magOf (y : Num) : Option Num := if y.isNan then none else some (round32 y.abs)

/-- One value on the float path to a format without a block scale (R233). -/
def floatPath (f : Fmt) (satf : Bool) (rnd : Rnd) (y : Num) : Out :=
  let c := convert f satf rnd y
  { code := c.code, exc := b01 c.sat + b01 c.nanMapped, mag := magOf y
    high := !y.isNan && f.top.le (y.abs.scale2 2) }

/-- The integer end of QUANT (R234): y rounds to an integer, NaN to 0; an infinity saturates. -/
def Core.quantInt (x : Core) (bank ch : Nat) (f : Fmt) (lo hi : Int) (rnd : Rnd) (y : Num) : Out :=
  match y with
  | .nan => intFinish f.bits lo hi (x.scZp bank ch) 0 1
  | .inf n => { code := trunc f.bits (if n then lo else hi), exc := 1, mag := some (.inf false), high := true }
  | .fin n m e => intFinish f.bits lo hi (x.scZp bank ch) (roundInt rnd (.fin n m e)) 0

/-- A list cut into pieces of `n`; `fuel` is at least its length. -/
def chunks {α : Type} (n : Nat) : Nat → List α → List (List α)
  | 0, _ => []
  | fuel + 1, l => if l.isEmpty then [] else l.take n :: chunks n fuel (l.drop n)

/-- A block converted under one scale byte (R77). -/
def blockPath (f : Fmt) (l : List (Num × Rnd)) : List Out × Nat :=
  let s := blockScale f (l.map (fun p => p.1))
  (l.map (fun p =>
    let c := convertBlock f s p.2 p.1
    { code := c.code, exc := b01 c.sat, mag := magOf p.1, high := false : Out }), s)

/-- A run of values, each with its channel and rounding, converted by a drain or RESCALE (`quant` false) or by QUANT: the
results and, for a block format, the scale bytes (R230, R233 to R235). -/
def Core.convertRun (x : Core) (quant : Bool) (bank : Nat) (f : Fmt) (satf : Bool) (l : List (Nat × Num × Rnd)) :
    List Out × List Nat :=
  match f.intRange with
  | some (lo, hi) =>
    (l.map (fun p => if quant then x.quantInt bank p.1 f lo hi p.2.2 (x.scaled bank p.1 p.2.1)
                     else x.intPath bank p.1 f lo hi p.2.2 p.2.1), [])
  | none =>
    let ys := l.map (fun p => (x.scaled bank p.1 p.2.1, p.2.2))
    if f.isBlock then
      let bs := (chunks 32 ys.length ys).map (blockPath f)
      (bs.flatMap (fun b => b.1), bs.map (fun b => b.2))
    else (ys.map (fun p => floatPath f satf p.2 p.1), [])

/-! ### Statistics (R236, R237) -/

/-- Word `w` of SCALE.STAT of a channel. -/
def Core.stat (x : Core) (ch w : Nat) : W32 := Tbl.get 0 x.stats (ch * 3 + w)

/-- The core with a statistics word replaced. -/
def Core.setStat (x : Core) (ch w : Nat) (v : W32) : Core := { x with stats := Tbl.set 0 x.stats (ch * 3 + w) v }

/-- The destination formats whose conversions take part in adaptation (R236). -/
def Fmt.adapts (f : Fmt) : Bool := !(f == .fp32 || f.isBlock)

/-- What a converted value brings to the statistics of channel `ch` in a cycle. -/
def Out.note (o : Out) (f : Fmt) (cycle ch : Nat) : StatNote :=
  ⟨cycle, ch, o.mag.map toBits32, o.exc, o.high, f.adapts⟩

/-- One update enters the statistics of its channel (R236). -/
def Core.takeNote (x : Core) (n : StatNote) : Core :=
  let x1 := match n.mag with
    | some m => if (ofBits32 (x.stat n.ch 0).toNat).lt (ofBits32 m) then x.setStat n.ch 0 (BitVec.ofNat 32 m) else x
    | none => x
  if n.adapts then
    let w := (x1.stat n.ch 1).toNat
    x1.setStat n.ch 1
      (BitVec.ofNat 32 (satAdd 0xFFFF (nfld w 0 16) n.exc + 2 ^ 16 + b01 (n.high || nbit w 17) * 2 ^ 17))
  else x1

/-- One converted value enters the statistics of its channel at once. -/
def Core.noteStat (x : Core) (f : Fmt) (ch : Nat) (o : Out) : Core := x.takeNote (o.note f 0 ch)

/-- The waiting updates that meet `p` enter the statistics; the others wait on. -/
def Core.settleNotes (x : Core) (p : StatNote → Bool) : Core :=
  (x.statNotes.filter p).foldl Core.takeNote { x with statNotes := x.statNotes.filter (fun n => !p n) }

/-- The cycle from which a SCALE_UPDATE of this core may still clear statistics: 16 cycles after the issue of the earliest one
that executes, else after now (R238). -/
def Core.clearsFrom (x : Core) (now : Nat) : Nat :=
  (((x.engine 1).flights.filter (fun f => f.cmd.opc == 0x38)).map (fun f => f.issue)).foldl min now + 16

/-- The values of a run enter the statistics. -/
def Core.noteStats (x : Core) (f : Fmt) (l : List (Nat × Out)) : Core := l.foldl (fun x p => x.noteStat f p.1 p.2) x

/-- The format exceptions of a run (R90). -/
def excOf (l : List Out) : Nat := (l.map (fun o => o.exc)).sum

/-! ### Writing entries (R179, R228) -/

/-- The core with the four words of an entry replaced. -/
def Core.setEntry (x : Core) (bank ch : Nat) (w : List W32) : Core :=
  { x with scales := Tbl.setList 0 x.scales (bank * 8192 + ch * 4) w }

/-- A write of an entry in a cycle, by a LOAD_SCALES or a SCALE_UPDATE: writes take effect in the order of their cycles,
and in one cycle the LOAD_SCALES value is stored and the conflict is counted (R179, R228). -/
def Core.writeEntry (x : Core) (bank ch : Nat) (w : List W32) (cycle : Nat) (load : Bool) : Core × Nat :=
  let key := bank * 2048 + ch
  let prev := Tbl.get 0 x.scaleAt key
  let mine := 2 * cycle + b01 load + 1
  let clash := prev ≠ 0 ∧ (prev - 1) / 2 = cycle ∧ prev ≠ mine
  if prev ≠ 0 ∧ mine < prev then (x, b01 (decide clash))
  else ({ (x.setEntry bank ch w) with scaleAt := Tbl.set 0 x.scaleAt key mine }, b01 (decide clash))

/-! ### Reads of engine commands that meet bad words (R273) -/

/-- The words of an extent that no read returns data of. -/
def State.badWordsOf (s : State) (c : Nat) (x : Extent) : List Nat :=
  x.runs.flatMap (fun p =>
    ((s.dirtyWords (if x.cm then cmAddr (c / 4) p.1 else spadAddr c p.1) p.2).filter badWord).map (fun e => e.1))

/-- A word whose data the spec does not give reads as a free value. -/
def State.garble (s : State) (word : Nat) : State :=
  let r := s.fresh
  r.2.poke (word * 16) (leBytes 16 r.1)

/-- An ME or VE command reads its extents: the state after it, the state its operands are taken from (words without
valid data hold free values), and whether it met such a word. -/
def State.gather (s : State) (c : Nat) (l : List Extent) : State × State × Bool :=
  let s1 := l.foldl (fun t x => (t.readExtent c x).1) s
  let bad := l.flatMap (s.badWordsOf c)
  let src := bad.foldl State.garble s1
  ({ s1 with free := src.free }, src, !bad.isEmpty)

/-- A converted run written at an offset of a view, with its scale bytes. The padding of a packing group or of a last partial
block is written as zero (R72, R75). -/
def State.writeRun (s : State) (core : Nat) (v : View) (off : Nat) (r : List Out × List Nat) : State :=
  let s1 := s.sramWrite (v.addr core (v.base + off)) (packRow v.format (r.1.map (fun o => o.code)))
  if r.2.isEmpty then s1
  else s1.sramWrite (v.addr core (v.sbase + off / v.format.blockBytes)) (r.2.map (fun n => BitVec.ofNat 8 n))

/-- The blocks of an operand under a scale byte that R76 calls invalid, as the runs that were read give them. R76 counts
'each such block'; a block that further tiles, passes or sweeps of the same command read again counts once for the command
(DESIGN CHOICE, log 173). -/
def State.badScales (s : State) (core : Nat) (v : View) (l : List (Nat × Nat)) : Nat :=
  if v.format.isBlock then
    (l.map (fun p => ((List.range (cdiv p.2 32)).filter (fun i =>
      v.format.badScale (s.scaleByte core v (p.1 + i * v.format.blockBytes)))).length)).sum
  else 0

/-- The command ends with its effect done; where it read a bad word its outputs are INVALID with status DATA (R273). -/
def Flight.finishRead (f : Flight) (bad : Bool) : Flight :=
  { f with done := true, bad := f.bad || bad, status := if bad then 0x10 else f.status }

/-! ### LOAD_SCALES, SCALE_SWAP, SCALE_UPDATE -/

/-- A record as it is stored: reserved bits cleared (R228). -/
def recordWords (l : List Byte) : List W32 :=
  let w (i : Nat) : W32 := BitVec.ofNat 32 (wordAt l (4 * i))
  [w 0, put32 (w 1) 6 10 0, w 2, put32 (w 3) 22 2 0]

/-- A record has a reserved bit set (R228). -/
def recordBad (l : List Byte) : Bool := nfld (wordAt l 4) 6 10 != 0 || nfld (wordAt l 12) 22 2 != 0

/-- R177: NCH records go to channels CH0 upward of the inactive bank, channel CH0 + i in cycle issue + 16 + i. -/
def loadScalesEffect (core : Nat) (s : State) (f : Flight) : State × Flight :=
  let n := fld f.cmd.w4 16 11 + 1
  let ch0 := fld f.cmd.w4 0 11
  let v := f.views.getD 0 View.none_
  let g := s.gather core [v.raw (16 * n)]
  let recs := (List.range n).map (fun i => g.2.1.bytes (v.addr core (v.base + 16 * i)) 16)
  let x := g.1.core core
  let r := (recs.zipIdx).foldl (fun (a : Core × Nat) p =>
    let w := a.1.writeEntry (1 - x.scaleBank) (ch0 + p.2) (recordWords p.1) (f.issue + 16 + p.2) true
    (w.1, a.2 + w.2)) (x, 0)
  let exc := (recs.filter recordBad).length
  ((((g.1.setCore core r.1).event 0x008 core exc).event 0x013 core r.2), f.finishRead g.2.2)

/-- LOAD_SCALES (R177). -/
def execLoadScales (core : Fin 24) (s : State) : Host.Outcome State Fault Refusal :=
  .next (s.perform core 0 0x13 (loadScalesEffect core))

/-- R178: the exchange has taken place in the issue cycle (`State.swapAtIssue`), and the command ends. -/
def scaleSwapEffect (s : State) (f : Flight) : State × Flight := (s, f.finish)

/-- SCALE_SWAP (R178). -/
def execScaleSwap (core : Fin 24) (s : State) : Host.Outcome State Fault Refusal :=
  .next (s.perform core 0 0x14 scaleSwapEffect)

/-- The decision of R238 and R239 for a channel or a tied group. -/
structure Adapt where
  exp : Int
  clean : Nat
  limited : Bool
  deriving DecidableEq, Repr

/-- R238, R239: the decision over the channels of a group (one channel for TIE = 0): frozen or not seen leaves EXP and
CLEAN; above SAT_TH the group grows; clean long enough it shrinks; a limit of any member prevents the change. -/
def Core.decideExp (x : Core) (bank : Nat) (chs : List Nat) (frz : Bool) (satTh cleanN : Nat) : Adapt :=
  let lead := chs.headD 0
  let exp := x.scExp bank lead
  let clean := x.scClean bank lead
  let satcnt (ch : Nat) : Nat := fld (x.stat ch 1) 0 16
  let seen (ch : Nat) : Bool := bit (x.stat ch 1) 16
  let step (d : Int) : Adapt :=
    let n := exp + d
    let okEach := chs.all (fun ch => if 0 < d then decide ((x.scShift bank ch : Int) + n ≤ 63)
      else decide (0 ≤ (x.scShift bank ch : Int) + n))
    let ok := okEach && (if 0 < d then decide (n ≤ 31) else decide (-32 ≤ n))
    ⟨if ok then n else exp, 0, !ok⟩
  if frz || chs.any (x.scFrz bank) || !chs.any seen then ⟨exp, clean, false⟩
  else if chs.any (fun ch => decide (satTh < satcnt ch)) then step 1
  else if chs.all (fun ch => !seen ch || (satcnt ch == 0 && !bit (x.stat ch 1) 17)) then
    let c := min (clean + 1) 255
    if cleanN ≤ c then step (-1) else ⟨exp, c, false⟩
  else ⟨exp, 0, false⟩

/-- What SCALE_UPDATE has done so far: the core, and its counts of grows, shrinks, frozen channels and conflicts. -/
structure Adapted where
  core : Core
  grows : Nat
  shrinks : Nat
  frozen : Nat
  conflicts : Nat
  deriving DecidableEq, Repr

/-- One channel of SCALE_UPDATE: the whole active entry, with EXP and CLEAN as decided, goes to the inactive bank in its
cycle; a change of EXP counts in CHG (R238). -/
def Adapted.put (a : Adapted) (x : Core) (frz : Bool) (ch cycle : Nat) (d : Adapt) : Adapted :=
  let old := x.scExp x.scaleBank ch
  let w (i : Nat) : W32 := x.scaleWord x.scaleBank ch i
  let w3 := put32 (put32 (w 3) 0 8 (trunc 8 d.exp)) 24 8 d.clean
  let r := a.core.writeEntry (1 - x.scaleBank) ch [w 0, w 1, w 2, w3] cycle false
  let c1 := if d.exp = old then r.1
    else r.1.setStat ch 2 (BitVec.ofNat 32 (satAdd 0xFFFF (fld (r.1.stat ch 2) 0 16) 1))
  { core := c1, grows := a.grows + b01 (decide (old < d.exp)), shrinks := a.shrinks + b01 (decide (d.exp < old))
    frozen := a.frozen + b01 (frz || x.scFrz x.scaleBank ch), conflicts := a.conflicts + r.2 }

/-- R238, R239, R241: the update of a range. The statistics of a channel are read and cleared in its cycle: updates of drains
up to that cycle take part, those of that cycle and later stay for the next step (R184). -/
def scaleUpdateEffect (core : Nat) (s : State) (f : Flight) : State × Flight :=
  let base := fld f.cmd.w5 0 11
  let n := fld f.cmd.w5 16 11 + 1
  let frz := bit f.cmd.w5 27
  let satTh := fld f.cmd.w6 0 16
  let cleanN := fld f.cmd.w6 16 8
  let x := (s.core core).settleNotes (fun p =>
    decide (base ≤ p.ch) && decide (p.ch < base + n) && decide (p.cycle < f.issue + 16 + (p.ch - base) / 4))
  let chs := (List.range n).map (fun i => base + i)
  let tied := chs.filter (x.scTie x.scaleBank)
  let group := x.decideExp x.scaleBank tied frz satTh cleanN
  let groupCycle := f.issue + 16 + (tied.getLastD base - base) / 4
  let alone (ch : Nat) : Adapt := x.decideExp x.scaleBank [ch] frz satTh cleanN
  let done := chs.foldl (fun a ch =>
    if x.scTie x.scaleBank ch then a.put x frz ch groupCycle group
    else a.put x frz ch (f.issue + 16 + (ch - base) / 4) (alone ch)) (⟨x, 0, 0, 0, 0⟩ : Adapted)
  let limits := ((chs.filter (fun ch => !x.scTie x.scaleBank ch)).filter (fun ch => (alone ch).limited)).length +
    b01 (!tied.isEmpty && group.limited)
  let cleared := chs.foldl (fun c ch => (c.setStat ch 0 0).setStat ch 1 0) done.core
  let s1 := ((s.setCore core cleared).event 0x00E core done.grows).event 0x00F core done.shrinks
  (((s1.event 0x010 core limits).event 0x011 core done.frozen).event 0x013 core done.conflicts, f.finish)

/-- SCALE_UPDATE (R238). -/
def execScaleUpdate (core : Fin 24) (s : State) : Host.Outcome State Fault Refusal :=
  .next (s.perform core 1 0x38 (scaleUpdateEffect core))

end Sys2Proof.Machine
end

