-- ==== Sys2Proof/Machine/Matrix.lean ====
section
/-! DEFINITION. The matrix engine: cells, tiles and drains (R80 to R87, R94 to R117, R207 to R215), and the commands MMA,
MMA_CHIVE and CONV_TAPS. -/

namespace Sys2Proof.Machine

/-- R82, R85: the accumulator of a cell after every pass over its terms, from its initial value. -/
def cellSum (ps : List (Nat × Nat)) (terms : List (Operand × Operand)) (init : Num) : Num :=
  ps.zipIdx.foldl (fun acc p =>
    terms.foldl (fun a t => accAdd a (contribution t.1 t.2 p.1 (p.2 == 0))) acc) init

/-- A tile in the order of visiting: group, column tile in the group, row tile. -/
structure TileAt where
  g : Nat
  t : Nat
  u : Nat
  deriving DecidableEq, Repr

/-- R94, R109, R211: the tiles of a command, column tile outer and row tile inner, group by group. -/
def Bound.tileList (b : Bound) : List TileAt :=
  (List.range b.groups).flatMap (fun g => (List.range b.colTiles).flatMap (fun t =>
    (List.range b.rowTiles).map (fun u => ⟨g, t, u⟩)))

/-- The columns of a tile that lie within the group's output channels. -/
def Bound.tileWidth (b : Bound) (p : TileAt) : Nat := min b.tileCols (b.ng - p.t * b.tileCols)

/-- The output channel of column `j` of a tile, from 0 (R211). -/
def Bound.channel (b : Bound) (p : TileAt) (j : Nat) : Nat := p.g * b.ng + p.t * b.tileCols + j

/-- The rows of a tile that lie within M. -/
def Bound.tileHeight (b : Bound) (p : TileAt) : Nat :=
  if b.cmd.opc = 0x11 then b.cmd.m else min 32 (b.cmd.m - 32 * p.u)

/-- The rows of every tile of the arrangement: 32, or 4 in Chive mode. -/
def Bound.tileRows (b : Bound) : Nat := if b.cmd.opc = 0x11 then 4 else 32

/-- Granules of elements and of scale bytes of a row of A in the A-buffer: g_E and g_S of R110. -/
def Bound.bufRow (b : Bound) : Nat × Nat :=
  let f := (b.v 0).format
  (cdiv (f.span b.cmd.k) 64, if f.isBlock then cdiv (cdiv b.cmd.k 32) 64 else 0)

/-- R110: A as MMA_CHIVE copies it into its A-buffer, row by row: the element granules of a row and then its scale granules. -/
def Bound.copyA (b : Bound) (s : State) (core : Nat) : List Byte :=
  let a := b.v 0
  let g := b.bufRow
  (List.range b.cmd.m).flatMap (fun i =>
    s.bytes (a.addr core (a.base + i * a.stride)) (64 * g.1) ++
      s.bytes (a.addr core (a.sbase + i * a.stride / a.format.blockBytes)) (64 * g.2))

/-- The operand of element `k` of row `i` of the A-buffer. -/
def Bound.bufA (b : Bound) (buf : List Byte) (i k : Nat) : Operand :=
  let f := (b.v 0).format
  let g := b.bufRow
  let row := i * (64 * (g.1 + g.2))
  let lo := k * f.bits
  { fmt := f, code := nfld (leNat ((buf.drop (row + lo / 8)).take (cdiv (lo % 8 + f.bits) 8))) (lo % 8) f.bits
    scale := if f.isBlock then ((buf.drop (row + 64 * g.1 + k / 32)).headD 0).toNat else 0 }

/-- The operand of A of row `i` in step `k` of an MMA, or of an MMA_CHIVE from its A-buffer; +0 beyond M (R95, R98, R110,
R174). -/
def Bound.aAt (b : Bound) (s : State) (core : Nat) (buf : List Byte) (p : TileAt) (i k : Nat) : Operand :=
  let a := b.v 0
  if b.tileHeight p ≤ i then .zero
  else if b.cmd.opc = 0x11 then b.bufA buf i k
  else if b.cmd.ta then s.operand core a (p.u * a.pitch + i * a.stride) k
  else s.operand core a (k * a.stride + p.u * a.pitch) i

/-- The operand of B of column `j` in weight row `k`; +0 beyond the group's channels (R95, R98, R109, R174, R211). -/
def Bound.bAt (b : Bound) (s : State) (core : Nat) (p : TileAt) (j k : Nat) : Operand :=
  if b.tileWidth p ≤ j then .zero
  else
    let o := b.bOff k (p.t * b.tileCols + j)
    s.operand core (b.v 1) o.1 o.2

/-- The operand of A of CONV_TAPS: the input element of a position, tap and channel, PADV for a pad position (R209). -/
def Bound.convAt (b : Bound) (s : State) (core : Nat) (p : TileAt) (i : Nat) (tap : Nat × Nat) (ci : Nat) : Operand :=
  let a := b.v 0
  if b.tileHeight p ≤ i then .zero
  else match b.inputOff (b.m0 + 32 * p.u + i) tap.1 tap.2 with
    | some o => s.operand core a (ci * a.stride + o) 0
    | none => ⟨a.format, b.g.padv % 2 ^ a.format.bits, 0⟩

/-- The terms of cell (i, j) of a tile, in ascending k (R95, R211). -/
def Bound.terms (b : Bound) (s : State) (core : Nat) (buf : List Byte) (p : TileAt) (i j : Nat) : List (Operand × Operand) :=
  if b.cmd.opc = 0x12 then
    b.taps.flatMap (fun tap => (List.range b.cg).map (fun c =>
      let ci := p.g * b.cg + c
      (b.convAt s core p i tap ci, b.bAt s core p j ((tap.1 * b.g.kx + tap.2) * b.cmd.k + ci))))
  else (List.range b.cmd.k).map (fun k => (b.aAt s core buf p i k, b.bAt s core p j k))

/-- The accumulator cell of logical row `i`, column `j`: its index in a bank's image (R109, R185). -/
def Bound.cellIndex (b : Bound) (i j : Nat) : Nat :=
  if b.cmd.opc = 0x11 then (4 * (j % 8) + i) * 32 + j / 8 else i * 32 + j

/-- R105, R110: what a matrix command takes into the buffers of the ME before its first pass: the bias vector with INIT = BIAS,
and A of an MMA_CHIVE. Entries of the bias buffer beyond the vector stay as they are. -/
def Core.loadBuffers (x : Core) (b : Bound) (src : State) (core : Nat) : Core :=
  let v := b.v 3
  let bias := if b.cmd.init = 1 then
      Tbl.setList 0 x.biasBuf 0 (((List.range b.cmd.n).map (fun i =>
        BitVec.ofNat 32 (wordAt (src.bytes (v.addr core (v.base + 4 * i)) 4) 0))))
    else x.biasBuf
  { x with biasBuf := bias, aBuf := if b.cmd.opc = 0x11 ∧ b.kLen ≠ 0 then b.copyA src core else x.aBuf }

/-- C0 of a cell (R105): +0, the bias of its channel from the bias buffer, or what the held bank holds. -/
def Bound.c0 (b : Bound) (x : Core) (bank : Nat) (p : TileAt) (i j : Nat) : Num :=
  if b.cmd.init = 1 then
    if b.tileWidth p ≤ j then .zero
    else
      let w := (Tbl.get 0 x.biasBuf (b.channel p j)).toNat
      if b.cmd.bi32 then .ofInt (sext 32 w) else ofBits32 w
  else if b.cmd.init = 2 then fmtAcc40.decode (Tbl.get 0 x.acc (bank * 1024 + b.cellIndex i j))
  else .zero

/-- The accumulators of a tile after its passes, row by row. -/
def Bound.sums (b : Bound) (s : State) (core : Nat) (x : Core) (bank : Nat) (p : TileAt) : List (List Num) :=
  (List.range b.tileRows).map (fun i => (List.range b.tileCols).map (fun j =>
    let init := b.c0 x bank p i j
    if b.kLen = 0 then init else cellSum b.passes (b.terms s core x.aBuf p i j) init))

/-- The bank with the accumulators of a tile. -/
def Core.storeAcc (x : Core) (b : Bound) (bank : Nat) (rows : List (List Num)) : Core :=
  { x with acc := rows.zipIdx.foldl (fun t r => r.1.zipIdx.foldl (fun t c =>
      Tbl.set 0 t (bank * 1024 + b.cellIndex r.2 c.2) (fmtAcc40.encode c.1)) t) x.acc }

/-- The runs a drain writes: per run the offset from the effective base of C, and its values with their channels. A tile
of MMA is drained by row, one of CONV_TAPS by column (R104, R109, R208). -/
def Bound.drainRuns (b : Bound) (p : TileAt) (rows : List (List Num)) : List (Nat × List (Nat × Num)) :=
  let ch (j : Nat) : Nat := b.cmd.chBase + b.channel p j
  if b.cmd.opc = 0x12 then
    (List.range (b.tileWidth p)).map (fun j =>
      (b.channel p j * (b.v 2).stride + (b.m0 + 32 * p.u) * (b.v 2).format.bits / 8,
       (rows.take (b.tileHeight p)).map (fun r => (ch j, r.getD j .zero))))
  else
    ((rows.take (b.tileHeight p)).zipIdx).map (fun r =>
      (b.cOff (32 * p.u + r.2) p.t, ((r.1.take (b.tileWidth p)).zipIdx).map (fun c => (ch c.2, c.1))))

/-- The cycles of a drain that the runs of a tile take: one for a row of a regular tile or a column of CONV_TAPS, eight for
a row of a Chive tile (R104, R109, R208). -/
def Bound.runCycles (b : Bound) : Nat := if b.cmd.opc = 0x11 then 8 else 1

/-- One run of a drain, from cycle `at_` on: converted, written and, unless K = 0, brought to the statistics (R104, R108, R230,
R233). -/
def State.drainRun (s : State) (core : Nat) (b : Bound) (bank at_ : Nat) (run : Nat × List (Nat × Num)) : State :=
  let x := s.core core
  let z := b.v 2
  let r := x.convertRun false bank z.format b.cmd.meSatf (run.2.map (fun p => (p.1, p.2, .near)))
  let notes := ((run.2.map (fun p => p.1)).zip r.1).zipIdx.map (fun p =>
    p.1.2.note z.format (at_ + (if b.cmd.opc = 0x11 then p.2 / b.width else 0)) p.1.1)
  let x1 := if b.kLen = 0 then x else { x with statNotes := notes ++ x.statNotes }
  ((s.setCore core x1).event 0x008 core (excOf r.1)).writeRun core z run.1 r

/-- One tile: computed from the operands of `src`, kept in its bank, and drained unless the command holds (R103 to
R106); link clamps count once per drained column (R231). -/
def State.runTile (s : State) (src : State) (core : Nat) (b : Bound) (f : Flight) (p : TileAt × Nat) : State :=
  let x := s.core core
  let bank := (f.accBank + p.2) % 2
  let rows := b.sums src core x bank p.1
  let at_ := f.issue + b.drainAt f.ramp p.2 + f.stall
  let s1 := s.setCore core (x.storeAcc b bank rows)
  if b.cmd.hold then s1
  else
    let s2 := (b.drainRuns p.1 rows).zipIdx.foldl (fun t r =>
      t.drainRun core b f.bank (at_ + r.2 * b.runCycles) r.1) s1
    if (b.v 2).format.intRange.isSome then
      s2.event 0x012 core ((List.range (b.tileWidth p.1)).filter (fun j =>
        x.clamps f.bank (b.cmd.chBase + b.channel p.1 j))).length
    else s2

/-- A matrix command: its extents are read, its buffers filled, its tiles run in order, and every invalid scale byte counts
once, whatever tiles and passes read its block again (R76, R94, R105, R110; `State.badScales`). -/
def matrixEffect (core : Nat) (s : State) (f : Flight) : State × Flight :=
  let b := f.bound (s.core core).width
  let g := s.gather core (b.extents 0).1
  let x := g.1.core core
  let s0 := g.1.setCore core ((x.settleNotes (fun n => decide (n.cycle < x.clearsFrom (s.coreCycle core)))).loadBuffers b g.2.1 core)
  let s1 := (b.tileList.zipIdx).foldl (fun t p => t.runTile g.2.1 core b f p) s0
  let exc := if b.kLen = 0 then 0
    else g.2.1.badScales core (b.v 0) (if b.cmd.opc = 0x12 then [] else b.aRuns) + g.2.1.badScales core (b.v 1) b.bRuns
  (s1.event 0x008 core exc, f.finishRead g.2.2)

/-- MMA (R94 to R108). -/
def execMma (core : Fin 24) (s : State) : Host.Outcome State Fault Refusal :=
  .next (s.perform core 0 0x10 (matrixEffect core))

/-- MMA_CHIVE (R109 to R113). -/
def execMmaChive (core : Fin 24) (s : State) : Host.Outcome State Fault Refusal :=
  .next (s.perform core 0 0x11 (matrixEffect core))

/-- CONV_TAPS (R207 to R215). -/
def execConvTaps (core : Fin 24) (s : State) : Host.Outcome State Fault Refusal :=
  .next (s.perform core 0 0x12 (matrixEffect core))

end Sys2Proof.Machine
end

