-- ==== Sys2Proof/Machine/Random.lean ====
section
/-! DEFINITION. The random bits of R243 and the values drawn from them (R248 to R252). -/

namespace Sys2Proof.Machine

/-- The multiplier a of R243. -/
def lcgMul : Nat := 0x9E6C63D0676A9A99

/-- lcg_skip of R243: am, ap, cm, cp, the steps left, and the state they are applied to; `fuel` bounds the bits of n. -/
def lcgSkipFrom : Nat → Nat → Nat → Nat → Nat → Nat → Nat → Nat
  | 0, am, ap, _, _, _, s => (am * s + ap) % 2 ^ 64
  | fuel + 1, am, ap, cm, cp, n, s =>
    if n = 0 then (am * s + ap) % 2 ^ 64
    else
      let am1 := if n % 2 = 1 then am * cm % 2 ^ 64 else am
      let ap1 := if n % 2 = 1 then (ap * cm + cp) % 2 ^ 64 else ap
      lcgSkipFrom fuel am1 ap1 (cm * cm % 2 ^ 64) ((cm + 1) * cp % 2 ^ 64) (n / 2) s

/-- The generator's state after `n` steps from `s` with increment `c`, for n up to 2^48. -/
def lcgSkip (s n c : Nat) : Nat := lcgSkipFrom 49 1 0 lcgMul c n s

/-- The output permutation of R243. -/
def rngOut (s : Nat) : Nat :=
  let x := (s ^^^ (s / 2 ^ 29)) * 0xA3B195C47D2EF061 % 2 ^ 64
  (x ^^^ (x / 2 ^ 32)) / 2 ^ 32

/-- rng(S, u, i) of R243. -/
def rng (seed sub i : Nat) : Nat := rngOut (lcgSkip seed (i + 1) (2 * sub + 1))

/-- The random value of an element at offset `i` of a command's logical index range (R183). -/
def Flight.draw (f : Flight) (i : Nat) : Nat := rng f.seed.toNat f.cmd.sub ((f.cmd.ibase + i) % 2 ^ 48)

/-- The rounding of the last conversion of an element (R250). -/
def Flight.rndAt (f : Flight) (i : Nat) : Rnd := if f.cmd.rnd = 1 then .stoch (f.draw i) else .near

/-- u of R248, DIST 0: 24 random bits as a fraction. -/
def uniform24 (r : Nat) : Num := .fin false (r / 256) (-24)

/-- A value of RNG_FILL at offset `i` (R248). -/
def Flight.randomValue (f : Flight) (i : Nat) : Num :=
  let p := fmtFp16.decode (fld f.cmd.w7 16 16)
  match fld f.cmd.w5 16 2 with
  | 0 => uniform24 (f.draw i)
  | 1 =>
    let k := (f.cmd.ibase + i) % 2 ^ 48
    normal32 p (rng f.seed.toNat f.cmd.sub (2 * k % 2 ^ 48)) (rng f.seed.toNat f.cmd.sub ((2 * k + 1) % 2 ^ 48))
  | _ => mul32 (((uniform24 (f.draw i)).scale2 1).sub (.fin false 1 0)) p

/-- PDROP of DROPOUT. -/
def Flight.pdrop (f : Flight) : Nat := fld f.cmd.w7 16 16

/-- The element at offset `i` is kept (R252). -/
def Flight.keeps (f : Flight) (i : Nat) : Bool := decide (f.pdrop ≤ f.draw i / 2 ^ 16)

/-- g of R252. -/
def Flight.keepScale (f : Flight) : Num := ratio32 65536 (65536 - f.pdrop)

end Sys2Proof.Machine
end

