-- ==== Sys2Proof/Machine/Vector.lean ====
section
/-! DEFINITION. The vector engine (R180 to R205, R217 to R219, R234, R235, R248 to R258): the commands ELEM to SCATTER but
SCALE_UPDATE. -/

namespace Sys2Proof.Machine

/-! ### Rows in and out -/

/-- The exact values of a row of `n` elements at offset `off` of a view. -/
def State.row (s : State) (core : Nat) (v : View) (off n : Nat) : List Num :=
  (List.range n).map (fun j => s.value core v off j)

/-- Lane results converted once to a format under R88 to R90; a block format takes its scales under R77. -/
def convertLane (f : Fmt) (satf : Bool) (l : List (Num × Rnd)) : List Out × List Nat :=
  if f.isBlock then
    let bs := (chunks 32 l.length l).map (blockPath f)
    (bs.flatMap (fun b => b.1), bs.map (fun b => b.2))
  else (l.map (fun p => floatPath f satf p.2 p.1), [])

/-- A row of lane results converted and written; `i0` is the offset of its first element in the command's logical index
range (R183). -/
def State.writeRow (s : State) (core : Nat) (f : Flight) (v : View) (off i0 : Nat) (l : List Num) : State :=
  let r := convertLane v.format f.cmd.veSatf (l.zipIdx.map (fun p => (p.1, f.rndAt (i0 + p.2))))
  (s.event 0x008 core (excOf r.1)).writeRun core v off r

/-- The group cycles of a vector command: its duration without the fixed part and the single reads (R181). -/
def Bound.groupCycles (b : Bound) : Nat :=
  let fixed : Nat :=
    match b.cmd.opc with
    | 0x31 => 24 | 0x32 => 32 | 0x34 => 24 | 0x3B => 96
    | 0x33 => 32 + (if bit b.cmd.w5 1 then cdiv b.cmd.len 16 else 0)
    | 0x3D => 16 + b.cmd.rows | 0x3E => 16 + b.cmd.rows
    | _ => 16
  b.vectorTime - fixed

/-- The blocks of X that the taps of POOL reach, each as a run of one element (R75, R217). -/
def Bound.poolBlocks (b : Bound) : List (Nat × Nat) :=
  let x := b.v 0
  let ins := (List.range (b.g.oh * b.g.ow)).flatMap (fun m => (List.range b.g.ky).flatMap (fun ky =>
    (List.range b.g.kx).filterMap (fun kx => b.g.input (m / b.g.ow) (m % b.g.ow) ky kx)))
  let offs := ins.foldl (fun acc p =>
    let o := p.1 * x.pitch + p.2 / 32 * x.format.blockBytes
    if acc.contains o then acc else acc ++ [o]) []
  (List.range b.cmd.len).flatMap (fun ch => offs.map (fun o => (ch * x.stride + o, 1)))

/-- The rows of X that the indices of a GATHER name, each once (R184, R205). -/
def Bound.gathered (b : Bound) (core : Nat) (src : State) : List (Nat × Nat) :=
  let rows := ((List.range b.cmd.rows).filterMap (rowIndex core src b)).eraseDups
  rows.map (fun i => (i * (b.v 0).stride, b.cmd.len))

/-- The views a vector command reads element by element, with their rows, for the invalid scale bytes of R76; of the X of a
GATHER the rows that its indices name. -/
def Bound.readRows (b : Bound) (core : Nat) (src : State) : List (View × List (Nat × Nat)) :=
  let c := b.cmd
  let rows (v : View) : View × List (Nat × Nat) := (v, rowRuns c.rows v.stride c.len)
  match c.opc with
  | 0x30 => rows (b.v 0) :: ((if c.ys || unaryFunc c.func then [] else [rows (b.v 1)]) ++
      (if c.func = 3 ∨ c.func = 0xA then [rows (b.v 3)] else []))
  | 0x39 => []
  | 0x3B => [(b.v 0, [(0, c.len)])]
  | 0x3C => [(b.v 0, b.poolBlocks)]
  | 0x3D => [(b.v 0, b.gathered core src)]
  | _ => [rows (b.v 0)]

/-- The operands of a vector command as it reads them (R205, R273): the state after the reads, the state its operands are taken
from, and whether a word without valid data was met. GATHER reads its indices first and then the rows they name. -/
def State.vectorReads (s : State) (core : Nat) (b : Bound) (hostMode : Nat) : State × State × Bool :=
  if b.cmd.opc = 0x3D then
    let idx := [(b.v 1).extent [(0, b.cmd.rows)]]
    let g := s.gather core idx
    let rows := [(b.v 0).extent (b.gathered core g.2.1)]
    let h := g.1.gather core rows
    (h.1, (g.2.1.gather core rows).2.1, g.2.2 || h.2.2)
  else
    let zRead := if b.cmd.opc = 0x3E ∧ bit b.cmd.w5 16 = true then (b.extents hostMode).2 else []
    s.gather core ((b.extents hostMode).1 ++ zRead)

/-- A vector command: its extents are read, `body` does its work from the operands read, and it ends. -/
def vectorEffect (core : Nat) (body : State → State → Bound → Flight → State) (s : State) (f : Flight) :
    State × Flight :=
  let b := f.bound (s.core core).width
  let hostMode := s.o (ok (0x5540 + f.cmd.ctx) 1)
  let g := s.vectorReads core b hostMode
  let s1 := body g.1 g.2.1 b f
  let exc := ((b.readRows core g.2.1).map (fun p => g.2.1.badScales core p.1 p.2)).sum
  ((s1.event 0x008 core exc).event 0x006 core b.groupCycles, f.finishRead g.2.2)

/-- The rows of a command whose row `r` of Z is `rowOf r`, written in ascending order. -/
def eachRow (core : Nat) (rowOf : State → Bound → Flight → Nat → List Num) (s src : State) (b : Bound) (f : Flight) :
    State :=
  (List.range b.cmd.rows).foldl (fun t r =>
    t.writeRow core f (b.v 2) (r * (b.v 2).stride) (r * b.cmd.len) (rowOf src b f r)) s

/-- 1.0. -/
def one32 : Num := .fin false 1 0

/-! ### ELEM (R193, R194) -/

/-- The result of FUNC on X, Y and S. -/
def elemFunc (f : Nat) (x y z : Num) : Num :=
  match f with
  | 0x0 => add32 x y
  | 0x1 => sub32 x y
  | 0x2 => mul32 x y
  | 0x3 => fma32 x y z
  | 0x4 => minNum x y
  | 0x5 => maxNum x y
  | 0x6 => x.abs
  | 0x7 => x.negate
  | 0x8 => if x.lt y then one32 else .zero
  | 0x9 => if x.eqv y then one32 else .zero
  | 0xA => if z.isZero then y else x
  | 0xB => exp32 x
  | 0xC => log32 x
  | 0xD => recip32 x
  | 0xE => rsqrt32 x
  | _ => x

/-- Row `r` of ELEM. -/
def elemRow (core : Nat) (src : State) (b : Bound) (_f : Flight) (r : Nat) : List Num :=
  let c := b.cmd
  let x := src.row core (b.v 0) (r * (b.v 0).stride) c.len
  let y := if c.ys then List.replicate c.len (ofBits32 c.w6.toNat)
    else if unaryFunc c.func then List.replicate c.len .zero
    else src.row core (b.v 1) (r * (b.v 1).stride) c.len
  let z := if c.func = 3 ∨ c.func = 0xA then src.row core (b.v 3) (r * (b.v 3).stride) c.len
    else List.replicate c.len .zero
  (x.zip (y.zip z)).map (fun p => elemFunc c.func p.1 p.2.1 p.2.2)

/-- ELEM (R193). -/
def execElem (core : Fin 24) (s : State) : Host.Outcome State Fault Refusal :=
  .next (s.perform core 1 0x30 (vectorEffect core (eachRow core (elemRow core))))

/-! ### Sums in the order of R197 -/

/-- One level of the tree: neighbours added. -/
def treeLevel : List Num → List Num
  | a :: b :: r => add32 a b :: treeLevel r
  | l => l

/-- `n` levels of the tree. -/
def treeSum : Nat → List Num → Num
  | 0, l => l.headD .zero
  | n + 1, l => treeSum n (treeLevel l)

/-- R197: lane l folds elements l, l + 64, … from +0 with `step`, and the 64 partials are added in six levels. -/
def laneSum (step : Num → Num → Num) (l : List Num) : Num :=
  treeSum 6 ((List.range 64).map (fun lane =>
    ((l.zipIdx).filter (fun p => p.2 % 64 == lane)).foldl (fun acc p => step acc p.1) .zero))

/-- Σ x_j. -/
def sumOf (l : List Num) : Num := laneSum add32 l
/-- Σ x_j², each term by fused multiply-add. -/
def sumSqOf (l : List Num) : Num := laneSum (fun acc x => fma32 x x acc) l

/-! ### REDUCE (R196, R198) -/

/-- The index of the winner of ARGMAX (`more` true) or ARGMIN: the first NaN, else the lowest index of the extreme. -/
def argBest (more : Bool) (l : List Num) : Nat :=
  match l.findIdx? Num.isNan with
  | some i => i
  | none => ((l.zipIdx).foldl (fun (best : Option (Num × Nat)) p =>
      match best with
      | none => some p
      | some q => if (if more then q.1.lt p.1 else p.1.lt q.1) then some p else some q) none).elim 0 (fun p => p.2)

/-- The written value and the value tested against THRESH, of one row. -/
def reduceRow (op : Nat) (l : List Num) : Num × Num :=
  match op with
  | 0 => (sumOf l, sumOf l)
  | 1 => let m := (l.drop 1).foldl maxNum (l.headD .zero); (m, m)
  | 2 => let m := (l.drop 1).foldl minNum (l.headD .zero); (m, m)
  | 3 => let i := argBest true l; (.ofInt i, l.getD i .nan)
  | 4 => let i := argBest false l; (.ofInt i, l.getD i .nan)
  | _ => (sumSqOf l, sumSqOf l)

/-- The results of REDUCE, row by row. -/
def reduceRows (core : Nat) (src : State) (b : Bound) : List (Num × Num) :=
  (List.range b.cmd.rows).map (fun r =>
    reduceRow (fld b.cmd.w5 0 3) (src.row core (b.v 0) (r * (b.v 0).stride) b.cmd.len))

/-- The predicate bit of a REDUCE: at least one row meets the condition (R183, R198). -/
def reduceBit (c : Cmd) (l : List (Num × Num)) : Bool :=
  let t := ofBits32 c.w6.toNat
  l.any (fun p => if bit c.w5 7 then p.2.lt t else t.lt p.2)

/-- The results are written to element 0 of each row of Z. -/
def reduceBody (core : Nat) (s src : State) (b : Bound) (f : Flight) : State :=
  ((reduceRows core src b).zipIdx).foldl (fun t p =>
    t.writeRow core f (b.v 2) (p.2 * (b.v 2).stride) (p.2 * b.cmd.len) [p.1.1]) s

/-- REDUCE with the predicate bit it will write at retirement. PDST is the 3-bit field W5[6:4] (R181) with the codes 5 to 8 for
P5 to P8 (R198); code 8 does not fit, so that 5 to 7 reach P5 to P7 and no REDUCE writes P8 (DEDUCED, log 177). -/
def reduceEffect (core : Nat) (s : State) (f : Flight) : State × Flight :=
  let r := vectorEffect core (reduceBody core) s f
  let b := f.bound (s.core core).width
  let src := (s.gather core (b.extents 0).1).2.1
  (r.1, { r.2 with pbit := if fld f.cmd.w5 4 3 = 0 then none else some (reduceBit f.cmd (reduceRows core src b)) })

/-- REDUCE (R196). -/
def execReduce (core : Fin 24) (s : State) : Host.Outcome State Fault Refusal :=
  .next (s.perform core 1 0x31 (reduceEffect core))

/-! ### SOFTMAX (R199) -/

/-- e^(u − m) of two values of a row, in fixed point with 320 fraction bits: 0 more than 200 below `m`. -/
def expBelow (u m : Num) : Nat :=
  match m.sub u with
  | .fin _ a e =>
    if (Num.fin false 200 0).lt (.fin false a e) then 0
    else 2 ^ 640 / expFix (if e ≥ 0 then a * 2 ^ e.toNat * 2 ^ 320 else a * 2 ^ 320 / 2 ^ (-e).toNat)
  | _ => 0

/-- The FP32 value of positive parts of 2^320 at or below, or (with `up`) at or above. -/
def fixed32 (up : Bool) (p : Nat) : Num :=
  let (v, q, _) := below32 p (-320)
  if up && (Num.fin false v q).lt (.fin false p (-320)) then .fin false (v + 1) q else .fin false v q

/-- R200: an output of SOFTMAX kept within the bound: `z` itself where it is within (ceil(n / 64) + 10) × 2^-24 of the exact
value `e` / `sum`, relative to it, or 2^-124 below 2^-100; else the nearest FP32 value that is (DESIGN CHOICE, log 61). -/
def softmaxHeld (n sum e : Nat) (z : Num) : Num :=
  let p := e * 2 ^ 320 / sum
  let d := if 2 ^ 220 ≤ p then p * (cdiv n 64 + 10) / 2 ^ 24 else 2 ^ 196
  if z.lt (.fin false (p - d) (-320)) then fixed32 true (p - d)
  else if (Num.fin false (p + d) (-320)).lt z then fixed32 false (p + d)
  else z

/-- Softmax of the scaled values of a row, and whether every one is −∞. -/
def softmaxOf (u : List Num) : List Num × Bool :=
  if u.any Num.isNan then (u.map (fun _ => .nan), false)
  else
    let isTop (x : Num) : Bool := x.isInf && !x.neg?
    let n := (u.filter isTop).length
    if n ≠ 0 then (u.map (fun x => if isTop x then ratio32 1 n else .zero), false)
    else if u.all Num.isInf then (u.map (fun _ => .zero), true)
    else
      let m := (u.drop 1).foldl maxNum (u.headD .zero)
      let e := u.map (fun x => exp32 (sub32 x m))
      let q := recip32 (sumOf e)
      let exact := u.map (fun x => expBelow x m)
      ((e.zip exact).map (fun p => softmaxHeld u.length exact.sum p.2 (mul32 p.1 q)), false)

/-- The scaled values of row `r`. -/
def softmaxIn (core : Nat) (src : State) (b : Bound) (r : Nat) : List Num :=
  (src.row core (b.v 0) (r * (b.v 0).stride) b.cmd.len).map (fun x => mul32 x (ofBits32 b.cmd.w6.toNat))

/-- SOFTMAX writes its rows; a fully masked row counts one format exception. -/
def softmaxBody (core : Nat) (s src : State) (b : Bound) (f : Flight) : State :=
  let masked := ((List.range b.cmd.rows).filter (fun r => (softmaxOf (softmaxIn core src b r)).2)).length
  (eachRow core (fun src b _ r => (softmaxOf (softmaxIn core src b r)).1) s src b f).event 0x008 core masked

/-- SOFTMAX (R199). -/
def execSoftmax (core : Fin 24) (s : State) : Host.Outcome State Fault Refusal :=
  .next (s.perform core 1 0x32 (vectorEffect core (softmaxBody core)))

/-! ### NORM (R201 to R203) -/

/-- Layer norm of a row before its affine step. -/
def layerNorm (x : List Num) (eps : Num) : List Num :=
  let inv := ratio32 1 x.length
  let x0 := x.headD .zero
  let d := x.map (fun y => sub32 y x0)
  let sd := sumOf d
  let sdd := sumSqOf d
  let mu := add32 x0 (mul32 sd inv)
  let var := maxNum .zero (mul32 (sub32 sdd (mul32 sd (mul32 sd inv))) inv)
  let r := rsqrt32 (add32 var eps)
  x.map (fun y => mul32 (sub32 y mu) r)

/-- RMS norm of a row before its affine step. -/
def rmsNorm (x : List Num) (eps : Num) : List Num :=
  let r := rsqrt32 (add32 (mul32 (sumSqOf x) (ratio32 1 x.length)) eps)
  x.map (fun y => mul32 y r)

/-- Row `r` of NORM. -/
def normRow (core : Nat) (src : State) (b : Bound) (_f : Flight) (r : Nat) : List Num :=
  let c := b.cmd
  let x := src.row core (b.v 0) (r * (b.v 0).stride) c.len
  let z := if bit c.w5 0 then rmsNorm x (ofBits32 c.w6.toNat) else layerNorm x (ofBits32 c.w6.toNat)
  if bit c.w5 1 then
    let gain := src.row core (b.v 1) 0 c.len
    let bias := src.row core (b.v 3) 0 c.len
    (z.zip (gain.zip bias)).map (fun p => fma32 p.1 p.2.1 p.2.2)
  else z

/-- NORM keeps the gain and bias rows it read in the table buffer (R203). -/
def normBody (core : Nat) (s src : State) (b : Bound) (f : Flight) : State :=
  let t := eachRow core (normRow core) s src b f
  if bit b.cmd.w5 1 then
    let x := t.core core
    let tab := src.bytes ((b.v 1).addr core (b.v 1).base) (4 * b.cmd.len) ++
      src.bytes ((b.v 3).addr core (b.v 3).base) (4 * b.cmd.len)
    t.setCore core { x with tableBuf := tab }
  else t

/-- NORM (R201, R202). -/
def execNorm (core : Fin 24) (s : State) : Host.Outcome State Fault Refusal :=
  .next (s.perform core 1 0x33 (vectorEffect core (normBody core)))

/-! ### LUT (R195) -/

/-- An element through the table. -/
def lutOf (tab : List Num) (lo inv x : Num) : Num :=
  let t := mul32 (sub32 x lo) inv
  if t.isNan then .nan
  else if t.le .zero then tab.getD 0 .nan
  else if (Num.ofInt 255).le t then tab.getD 255 .nan
  else
    let i : Nat := match t with
      | .fin _ m e => if e ≥ 0 then m * 2 ^ e.toNat else m / 2 ^ (-e).toNat
      | _ => 0
    let f := sub32 t (.ofInt i)
    fma32 f (sub32 (tab.getD (i + 1) .nan) (tab.getD i .nan)) (tab.getD i .nan)

/-- LUT reads its table into the table buffer once and maps every row. -/
def lutBody (core : Nat) (s src : State) (b : Bound) (f : Flight) : State :=
  let sv := b.v 3
  let tab := src.row core sv 0 256
  let t := eachRow core (fun src b _ r =>
    (src.row core (b.v 0) (r * (b.v 0).stride) b.cmd.len).map
      (lutOf tab (ofBits32 b.cmd.w6.toNat) (ofBits32 b.cmd.w7.toNat))) s src b f
  let x := t.core core
  t.setCore core { x with tableBuf := src.bytes (sv.addr core sv.base) 1024 }

/-- LUT (R195). -/
def execLut (core : Fin 24) (s : State) : Host.Outcome State Fault Refusal :=
  .next (s.perform core 1 0x34 (vectorEffect core (lutBody core)))

/-! ### CAST, QUANT, RESCALE (R204, R234, R235) -/

/-- CAST (R204): the lane value is the exact source. -/
def execCast (core : Fin 24) (s : State) : Host.Outcome State Fault Refusal :=
  .next (s.perform core 1 0x35 (vectorEffect core (eachRow core (fun src b _ r =>
    src.row core (b.v 0) (r * (b.v 0).stride) b.cmd.len))))

/-- The channel of element (r, j) of QUANT and RESCALE (R181). -/
def quantChannel (c : Cmd) (r j : Nat) : Nat := fld c.w5 0 11 + (if bit c.w5 11 then r else j)

/-- One row of QUANT (`quant` true) or RESCALE: converted with its channels, written, and entered in the statistics. -/
def quantRow (core : Nat) (quant : Bool) (src : State) (b : Bound) (f : Flight) (s : State) (r : Nat) : State :=
  let x := s.core core
  let z := b.v 2
  let vals := src.row core (b.v 0) (r * (b.v 0).stride) b.cmd.len
  let l := vals.zipIdx.map (fun p => (quantChannel b.cmd r p.2, p.1, f.rndAt (r * b.cmd.len + p.2)))
  let o := x.convertRun quant f.bank z.format b.cmd.veSatf l
  let x1 := x.noteStats z.format ((l.map (fun p => p.1)).zip o.1)
  ((s.setCore core x1).event 0x008 core (excOf o.1)).writeRun core z (r * z.stride) o

/-- The rows of QUANT or RESCALE; RESCALE counts one link clamp for each channel that needs it (R231). -/
def quantBody (core : Nat) (quant : Bool) (s src : State) (b : Bound) (f : Flight) : State :=
  let t := (List.range b.cmd.rows).foldl (quantRow core quant src b f) s
  let n := if bit b.cmd.w5 11 then b.cmd.rows else b.cmd.len
  if !quant && (b.v 2).format.intRange.isSome then
    t.event 0x012 core ((List.range n).filter (fun i => (s.core core).clamps f.bank (fld b.cmd.w5 0 11 + i))).length
  else t

/-- QUANT (R234). -/
def execQuant (core : Fin 24) (s : State) : Host.Outcome State Fault Refusal :=
  .next (s.perform core 1 0x36 (vectorEffect core (quantBody core true)))

/-- RESCALE (R235). -/
def execRescale (core : Fin 24) (s : State) : Host.Outcome State Fault Refusal :=
  .next (s.perform core 1 0x37 (vectorEffect core (quantBody core false)))

/-! ### RNG_FILL, DROPOUT (R248, R252) -/

/-- RNG_FILL (R248). -/
def execRngFill (core : Fin 24) (s : State) : Host.Outcome State Fault Refusal :=
  .next (s.perform core 1 0x39 (vectorEffect core (eachRow core (fun _ b f r =>
    (List.range b.cmd.len).map (fun j => f.randomValue (r * b.cmd.len + j))))))

/-- Row `r` of DROPOUT. -/
def dropoutRow (core : Nat) (src : State) (b : Bound) (f : Flight) (r : Nat) : List Num :=
  (src.row core (b.v 0) (r * (b.v 0).stride) b.cmd.len).zipIdx.map (fun p =>
    if f.keeps (r * b.cmd.len + p.2) then mul32 p.1 f.keepScale else .zero)

/-- The mask row: 1 kept, 0 dropped. -/
def maskRow (b : Bound) (f : Flight) (r : Nat) : List Byte :=
  (List.range b.cmd.len).map (fun j => if f.keeps (r * b.cmd.len + j) then 1 else 0)

/-- DROPOUT writes its rows and, with MASK_OUT, the mask. -/
def dropoutBody (core : Nat) (s src : State) (b : Bound) (f : Flight) : State :=
  let t := eachRow core (dropoutRow core) s src b f
  if bit b.cmd.w5 16 then
    let y := b.v 1
    (List.range b.cmd.rows).foldl (fun u r => u.sramWrite (y.addr core (y.base + r * y.stride)) (maskRow b f r)) t
  else t

/-- DROPOUT (R252). -/
def execDropout (core : Fin 24) (s : State) : Host.Outcome State Fault Refusal :=
  .next (s.perform core 1 0x3A (vectorEffect core (dropoutBody core)))

/-! ### SAMPLE (R253 to R258) -/

/-- A token with its value comes before another in rank order: higher value, or the lower token number (R254). -/
def rankBefore (p q : Num × Nat) : Bool := q.1.lt p.1 || (!p.1.lt q.1 && decide (p.2 < q.2))

/-- A token inserted in rank order. -/
def rankInsert (p : Num × Nat) : List (Num × Nat) → List (Num × Nat)
  | [] => [p]
  | q :: r => if rankBefore p q then p :: q :: r else q :: rankInsert p r

/-- Tokens in rank order. -/
def rankOrder (l : List (Num × Nat)) : List (Num × Nat) := l.foldr rankInsert []

/-- The tokens of the nucleus, in order, with their sum (step 4 of R254). -/
def nucleus (topp : Num) : List (Num × Nat) → Num → List (Num × Nat) × Num
  | [], cum => ([], cum)
  | p :: r, cum =>
    let c := add32 cum p.1
    if topp.le c then ([p], c)
    else let n := nucleus topp r c
         (p :: n.1, n.2)

/-- Step 6 of R254: the first token whose cumulative sum is above the threshold. -/
def drawFrom (t : Num) : List (Num × Nat) → Num → Option Nat
  | [], _ => none
  | p :: r, cum =>
    let c := add32 cum p.1
    if t.lt c then some p.2 else drawFrom t r c

/-- What a SAMPLE record's header says. -/
structure Drawn where
  token : Nat
  empty : Bool
  argmax : Bool
  prob : Nat
  nucleus : Nat
  kept : Nat
  /-- Every value of the softmax was −∞, which R199 counts as a format exception. -/
  masked : Bool
  deriving DecidableEq, Repr

/-- TEMP as SAMPLE takes it: below 2^-14 it counts as 0 (R253). -/
def sampleTemp (c : Cmd) : Num :=
  let t := fmtFp16.decode (fld c.w5 0 16)
  if t.abs.lt (.fin false 1 (-14)) then .zero else t

/-- R254, R255: the draw among prepared logits, with the random value of the command. -/
def sampleDraw (c : Cmd) (logits : List Num) (r : Nat) : Drawn :=
  let temp := sampleTemp c
  let topk := fld c.w6 0 9
  let topp := fmtFp16.decode (fld c.w5 16 16)
  if temp.isZero then
    ⟨(rankOrder logits.zipIdx).head?.elim 0 (fun p => p.2), false, true, toBits32 one32, 1,
      if topk = 0 then logits.length else min topk logits.length, false⟩
  else
    let q := recip32 temp
    let u := logits.map (fun l => mul32 l q)
    let keep := if topk = 0 then rankOrder u.zipIdx else (rankOrder u.zipIdx).take topk
    let masked := u.zipIdx.map (fun p => if keep.any (fun k => k.2 == p.2) then p.1 else .inf true)
    let sm := softmaxOf (masked.map (fun x => mul32 x one32))
    let p := sm.1
    let order := rankOrder (keep.map (fun k => (p.getD k.2 .zero, k.2)))
    let nc := nucleus topp order .zero
    let t := mul32 (uniform24 r) nc.2
    let pos := nc.1.filter (fun k => Num.zero.lt k.1)
    if pos.isEmpty then
      let tok := order.head?.elim 0 (fun k => k.2)
      ⟨tok, true, false, toBits32 (mul32 (p.getD tok .zero) (recip32 nc.2)), nc.1.length, keep.length, sm.2⟩
    else
      let tok := (drawFrom t nc.1 .zero).getD (pos.getLastD (.zero, 0)).2
      ⟨tok, false, false, toBits32 (mul32 (p.getD tok .zero) (recip32 nc.2)), nc.1.length, keep.length, sm.2⟩

/-- What SAMPLE draws, or in the modes without a draw the first token in rank order (R257, R258). -/
def sampleDrawn (c : Cmd) (mode : Nat) (logits : List Num) (r : Nat) : Drawn :=
  let v := logits.length
  let first := if mode = 2 then argBest true logits else (rankOrder logits.zipIdx).head?.elim 0 (fun p => p.2)
  if mode = 0 then sampleDraw c logits r
  else ⟨first, false, true, 0, 0, if mode = 1 then min v 256 else v, false⟩

/-- The bytes of a SAMPLE record (R258). -/
def sampleRecord (c : Cmd) (mode : Nat) (logits : List Num) (nanSeen : Bool) (d : Drawn) : List Byte :=
  let ranked := if mode = 2 then [] else rankOrder logits.zipIdx
  let w (n : Nat) : List Byte := leBytes 4 n
  let header := w (d.token + b01 d.empty * 2 ^ 16 + b01 nanSeen * 2 ^ 17 + b01 d.argmax * 2 ^ 18 + mode * 2 ^ 19) ++
    w d.prob ++ w d.nucleus ++ w d.kept ++ w (toBits32 (logits.getD d.token .zero)) ++ w c.w7.toNat ++ w c.sub ++
    List.replicate 36 0
  match mode with
  | 0 => header
  | 1 =>
    let es := (ranked.take 256).flatMap (fun p => w (toBits32 p.1) ++ w (p.2 + 2 ^ 16))
    header ++ es ++ List.replicate (2048 - es.length) 0
  | _ => header ++ logits.flatMap (fun l => w (toBits32 l))

/-- SAMPLE writes its record and counts in SAMPLE_COUNT; a NaN logit counts one format exception, and so does a softmax whose
values are all −∞ (R199, R253, R254, R257). -/
def sampleBody (core : Nat) (s src : State) (b : Bound) (f : Flight) : State :=
  let raw := src.row core (b.v 0) 0 b.cmd.len
  let nanSeen := raw.any Num.isNan
  let logits := raw.map (fun x => if x.isNan then .inf true else x)
  let mode := sampleMode b.cmd (s.o (ok (0x5540 + b.cmd.ctx) 1))
  let z := b.v 2
  let d := sampleDrawn b.cmd mode logits (rng f.seed.toNat b.cmd.sub b.cmd.w7.toNat)
  let rec_ := sampleRecord b.cmd mode logits nanSeen d
  ((s.sramWrite (z.addr core z.base) rec_).event 0x008 core (b01 nanSeen + b01 d.masked)).incO
    (ok (0x5540 + b.cmd.ctx) 2) 1

/-- SAMPLE (R254). -/
def execSample (core : Fin 24) (s : State) : Host.Outcome State Fault Refusal :=
  .next (s.perform core 1 0x3B (vectorEffect core (sampleBody core)))

/-! ### POOL (R217, R218) -/

/-- The taps of output `m` of a plane: the element, or none for a pad position, in ky-major order. -/
def poolTaps (core : Nat) (src : State) (b : Bound) (ch m : Nat) : List (Option Num) :=
  (List.range b.g.ky).flatMap (fun ky => (List.range b.g.kx).map (fun kx =>
    (b.g.input (m / b.g.ow) (m % b.g.ow) ky kx).map (fun p =>
      src.value core (b.v 0) (ch * (b.v 0).stride + p.1 * (b.v 0).pitch) p.2)))

/-- The value of an output of POOL from its taps, given KIND, PADCNT and PADV (R218). -/
def poolOf (kind : Nat) (padcnt : Bool) (padv : Num) (taps : List (Option Num)) : Num :=
  let real := taps.filterMap id
  let sum (l : List Num) : Num := l.foldl add32 .zero
  match kind with
  | 0 => if real.isEmpty then padv else (real.drop 1).foldl maxNum (real.headD .zero)
  | 1 =>
    if padcnt then mul32 (sum (taps.map (fun t => t.getD padv))) (recip32 (.ofInt taps.length))
    else if real.isEmpty then padv
    else mul32 (sum real) (recip32 (.ofInt real.length))
  | _ => sum (taps.map (fun t => t.getD padv))

/-- POOL writes one plane of outputs per channel. -/
def poolBody (core : Nat) (s src : State) (b : Bound) (f : Flight) : State :=
  let fx := (b.v 0).format
  let padv := fx.value (b.g.padv % 2 ^ fx.bits) 127
  let n := b.g.oh * b.g.ow
  (List.range b.cmd.len).foldl (fun t ch =>
    t.writeRow core f (b.v 2) (ch * (b.v 2).stride) (ch * n)
      ((List.range n).map (fun m =>
        poolOf (fld b.cmd.w5 4 2) (bit b.cmd.w5 6) padv (poolTaps core src b ch m)))) s

/-- POOL (R217). -/
def execPool (core : Fin 24) (s : State) : Host.Outcome State Fault Refusal :=
  .next (s.perform core 1 0x3C (vectorEffect core (poolBody core)))

/-! ### GATHER, SCATTER (R184, R205) -/

/-- The indices out of range, each a format exception. -/
def badIndices (core : Nat) (src : State) (b : Bound) : Nat :=
  ((List.range b.cmd.rows).filter (fun r => (rowIndex core src b r).isNone)).length

/-- GATHER: row r of Z is row idx[r] of X, zero where the index is out of range. -/
def gatherBody (core : Nat) (s src : State) (b : Bound) (f : Flight) : State :=
  (eachRow core (fun src b _ r =>
    match rowIndex core src b r with
    | some i => src.row core (b.v 0) (i * (b.v 0).stride) b.cmd.len
    | none => List.replicate b.cmd.len .zero) s src b f).event 0x008 core (badIndices core src b)

/-- GATHER (R205). -/
def execGather (core : Fin 24) (s : State) : Host.Outcome State Fault Refusal :=
  .next (s.perform core 1 0x3D (vectorEffect core (gatherBody core)))

/-- SCATTER, one source row: written into row idx[r] of Z, added to what it holds with ACC = 1; `seen` are the rows this
command has written. -/
def scatterRow (core : Nat) (src : State) (b : Bound) (f : Flight) (a : State × List Nat) (r : Nat) :
    State × List Nat :=
  match rowIndex core src b r with
  | none => a
  | some i =>
    let z := b.v 2
    let x := src.row core (b.v 0) (r * (b.v 0).stride) b.cmd.len
    let v := if bit b.cmd.w5 16 then
        let old := (if a.2.contains i then a.1 else src).row core z (i * z.stride) b.cmd.len
        (x.zip old).map (fun p => add32 p.2 p.1)
      else x
    (a.1.writeRow core f z (i * z.stride) (r * b.cmd.len) v, i :: a.2)

/-- SCATTER writes its rows in ascending order (R184). -/
def scatterBody (core : Nat) (s src : State) (b : Bound) (f : Flight) : State :=
  ((List.range b.cmd.rows).foldl (scatterRow core src b f) (s, [])).1.event 0x008 core (badIndices core src b)

/-- SCATTER (R205). -/
def execScatter (core : Fin 24) (s : State) : Host.Outcome State Fault Refusal :=
  .next (s.perform core 1 0x3E (vectorEffect core (scatterBody core)))

end Sys2Proof.Machine
end

