-- ==== Sys2Proof/Machine/Device.lean ====
section
/-! DEFINITION. Where the frame stands, partitions and contexts, masters' attention flags, and the health objects. -/

namespace Sys2Proof.Machine

/-! ### The frame (R299, R403, R418) -/

/-- LOOP_STATE is RUN or FLYWHEEL. -/
def State.loopRuns (s : State) : Bool := s.o 0x400006 == 2 || s.o 0x400006 == 3

/-- Device time since the current frame's start, if one runs. -/
def State.frameTime (s : State) : Option Nat := if s.loopRuns then s.loop.start.map (fun t => s.now - t) else none

/-- The free portion of the frame: from DEADLINE_NS to the next frame start; with no frame running, all time. -/
def State.freePortion (s : State) : Bool :=
  match s.frameTime with
  | some t => decide (s.o 0x400003 ≤ t)
  | none => true

/-- A frame boundary: the time from frame start until the tick of the frame reaches the cores, t_FTK = 20 ns later, in which no
slot of the frame has begun (R57, R299, R557; log 33); with no frame running, all time. -/
def State.atBoundary (s : State) : Bool :=
  match s.frameTime with
  | some t => decide (t < 20)
  | none => true

/-- The quiet interval of R403: from frame start to DEADLINE_NS while the loop runs and REFRESH_QUIET is 1. -/
def State.quiet (s : State) : Bool := s.o 0x600005 == 1 && !s.freePortion

/-! ### Partitions and contexts (R319, R320) -/

/-- The clusters of a partition, ascending. -/
def State.clustersOf (s : State) (p : Nat) : List Nat :=
  (List.range 6).filter (fun k => s.oBit (ok (0x2100 + p) 1) k)

/-- The cores of a partition, ascending. -/
def State.coresOf (s : State) (p : Nat) : List Nat :=
  (s.clustersOf p).flatMap (fun k => (List.range 4).map (fun i => 4 * k + i))

/-- The core is in service: neither it nor its cluster is retired. -/
def State.inService (s : State) (c : Nat) : Bool := !(s.core c).retired && !s.oBit 0x800004 (c / 4)

/-- The partition number in a context's entry of the context table. -/
def State.ctxPart (s : State) (n : Nat) : Nat := fld (Tbl.get 0 s.ctxTab n) 2 2

/-- The cores of a context's CORE_MASK, ascending. -/
def State.ctxCores (s : State) (n : Nat) : List Nat := (List.range 24).filter (fun c => s.oBit (ok (0x3000 + n) 3) c)

end Sys2Proof.Machine
end

