-- ==== Sys2Proof/Machine/Health.lean ====
section
/-! DEFINITION. The Sage health manager's objects: spare pools, flags, conditions of the availability figure and the state
of the device, all of which follow from other state (R55, R62, R502, R506). -/

namespace Sys2Proof.Machine

/-- The key of sub-index `b` of PARTITION p. -/
def partObj (p b : Nat) : Nat := ok (0x2100 + p) b
/-- The key of sub-index `b` of CONTEXT n. -/
def ctxObj (n b : Nat) : Nat := ok (0x3000 + n) b
/-- The key of sub-index `b` of code-object slot k = 1–32. -/
def slotObj (k b : Nat) : Nat := ok (0x303F + k) b
/-- The key of sub-index `b` of LOOP_STREAM n. -/
def streamObj (n b : Nat) : Nat := ok (0x4010 + n) b
/-- The key of SAMPLE_COUNT of context n (R257). -/
def sampleCount (n : Nat) : Nat := ok (0x5540 + n) 2
/-- The key of sub-index `b` of ARRAY_REPAIR of core c. -/
def repairObj (c b : Nat) : Nat := ok (0x8200 + c) b

/-- An object of the repair state (R64). -/
def repairKey (k : Nat) : Bool :=
  let i := k / 256
  let b := k % 256
  (decide (0x8200 ≤ i) && decide (i ≤ 0x8217)) ||
    [0x800003, 0x800004, 0x800006, 0x800007, 0x600001, 0x600002, 0x600003, 0x700007].contains k ||
    (decide (0x6010 ≤ i) && decide (i ≤ 0x6017) && (b == 1 || b == 7)) ||
    (decide (0x7010 ≤ i) && decide (i ≤ 0x701B) && [5, 6, 8, 0xC].contains b)

/-- The repair state as it stands. -/
def State.repairImage (s : State) : RepairImage :=
  { objs := s.obj.filter (fun e => repairKey e.1), cfg := s.flash.cfg, clusters := s.flash.clusters, channels := s.flash.channels
    rows := s.flash.rows, repairs := s.flash.repairs
    remaps := ((List.range 8).map (fun c => (c, (Tbl.get Channel.reset s.chans c).remaps))).filter (fun e => !e.2.isEmpty) }

/-- The repair state is written to flash where it has changed since `s`; where the write fails, flash keeps what it last held
until a later write (R64, log 180). -/
def State.recordRepair (t s : State) : State :=
  if t.repairImage = s.repairImage then t
  else
    let f := t.flash
    { t with flash := { f with
      tries := f.tries + 1
      unsaved := if Config.repairWriteFails f.tries then some (s.flash.unsaved.getD s.repairImage) else none } }

/-- The number of indexes below `n` at which a test holds. -/
def countBelow (n : Nat) (p : Nat → Bool) : Nat := ((List.range n).filter p).length

/-- A test holds at some index below `n`. -/
def anyBelow (n : Nat) (p : Nat → Bool) : Bool := (List.range n).any p

/-- The region-table entry that firmware holds for a slot's image. -/
def State.imageEntry (s : State) (k : Nat) : Option Nat :=
  if s.o (slotObj k 5) = 0 then none else s.coverOf true (s.o (slotObj k 0xC) / 0x200000)

/-- The code-object slot whose image an entry holds. -/
def State.slotOfEntry (s : State) (e : Nat) : Option Nat :=
  ((List.range 32).map (fun i => i + 1)).find? (fun k => s.imageEntry k == some e)

/-! ### Spare pools (R62) -/

/-- A level: 0 OK, 1 LOW, 2 EXHAUSTED. -/
def levelOf (low exhausted : Bool) : Nat := if exhausted then 2 else b01 low

/-- Retired cores of a partition. -/
def State.retiredIn (s : State) (p : Nat) : Nat :=
  ((s.coresOf p).filter (fun c => s.oBit 0x800003 c)).length

/-- Some bank of some DRAM channel has `n` spare rows left. -/
def State.anySpares (s : State) (n : Nat) : Bool :=
  anyBelow 8 (fun c => anyBelow 16 (fun b => nfld (s.o (ok (0x6010 + c) 7)) (4 * b) 4 == n))

/-- The level of each pool, in the order of the spare-pool table. -/
def State.poolLevels (s : State) : List Nat :=
  let gone := 8 - s.channels.length
  [ levelOf (anyBelow 24 (fun c => s.o (repairObj c 2) != 0xFF && s.o (repairObj c 3) != 0xFF)) (s.o 0x800003 != 0),
    levelOf (anyBelow 4 (fun p => s.retiredIn p == 1)) (anyBelow 4 (fun p => decide (2 ≤ s.retiredIn p))),
    levelOf (s.anySpares 1) (s.anySpares 0),
    levelOf (gone == 1) (decide (2 ≤ gone)),
    levelOf (s.o 0x700007 != 0xFFF) (anyBelow 12 (fun i => s.o (laneObj i 5) == 0xFF)),
    levelOf (decide (s.o 0x800204 ≤ 48)) (decide (s.o 0x800204 ≤ 16)),
    levelOf (decide (12 ≤ s.o 0xB00002)) (decide (16 ≤ s.o 0xB00002)) ]

/-- An event of R62 and R506: it is counted, logged, and raises the attention flag of every master. -/
def State.attention (s : State) (detail : Nat) : State :=
  ({ (s.incO 0x800005 1) with attn := [0, 1, 2, 3] }).logEv 0x1D 0 0 { detail := detail }

/-- The pools follow their conditions; each change of a level is an event. -/
def State.settlePools (s : State) : State :=
  s.poolLevels.zipIdx.foldl (fun s p =>
    if nfld (s.o 0x800001) (2 * p.2) 2 = p.1 then s
    else (s.setO 0x800001 (nput (s.o 0x800001) (2 * p.2) 2 p.1)).attention p.2) s

/-! ### Flags (R506) -/

/-- A temperature object of 0x2000 as a signed number. -/
def State.temp (s : State) (sub : Nat) : Int := sext 8 (s.o (ok 0x2000 sub))

/-- The conditions of bits 5:0 of HEALTH.FLAGS. -/
def State.flagConds (s : State) : List Bool :=
  [ !s.scrubLate.isEmpty, s.patrolLate, anyBelow 12 (fun i => (s.lane i).marginLow),
    anyBelow 12 (fun i => (s.lane i).wear), anyBelow 12 (fun i => s.laneState i == 6),
    decide (s.temp 5 < s.temp 1) || decide (s.temp 5 < s.temp 2) || decide (s.temp 5 < s.temp 3) ]

/-- Bits 5:0 of FLAGS follow their conditions; a change from 0 to 1 is an event of R62. -/
def State.settleFlags (s : State) : State :=
  s.flagConds.zipIdx.foldl (fun s p =>
    if s.oBit 0x800002 p.2 = p.1 then s
    else
      let t := s.setOBit 0x800002 p.2 p.1
      if p.1 then t.attention 0 else t) s

/-- A sticky flag, bits 7:6, is set (R506). -/
def State.setSticky (s : State) (b : Nat) : State :=
  if s.oBit 0x800002 b then s else (s.setOBit 0x800002 b true).attention 0

/-! ### Counts that follow other objects -/

/-- The context is other than STOPPED. -/
def State.ctxActive (s : State) (n : Nat) : Bool := s.o (ctxObj n 0xB) != 0

/-- CORES_IN_SERVICE of each partition (R319), CONTEXTS_ACTIVE of each owner, USERS of each code-object slot. -/
def State.settleCounts (s : State) : State :=
  let s1 := (List.range 4).foldl (fun t p =>
    t.setO (partObj p 4) ((s.coresOf p).filter (fun c => !s.oBit 0x800003 c)).length) s
  let s2 := (List.range 4).foldl (fun t w =>
    t.setO (ok (0x3100 + w) 5) (countBelow 64 (fun n => s.ctxActive n && s.o (ctxObj n 1) == w))) s1
  (List.range 32).foldl (fun t i =>
    t.setO (slotObj (i + 1) 0xA) (countBelow 64 (fun n => s.ctxActive n && s.o (ctxObj n 4) == i + 1))) s2

/-! ### Conditions of the availability figure (R55) -/

/-- DUAL_HOST: DL0 and DL1 are UP, face one DEVICE_ID, and failover is configured. -/
def State.dualHost (s : State) : Bool :=
  s.laneUp 0 && s.laneUp 1 && s.o 0x710001 == 1 &&
    natAt (s.d (laneObj 0 0x10)) 8 8 == natAt (s.d (laneObj 1 0x10)) 8 8

/-- MODELS_PINNED: every code object named by a context of partition 0 has a complete flash copy. -/
def State.modelsPinned (s : State) : Bool :=
  (List.range 64).all (fun n =>
    s.o (ctxObj n 2) != 0 || s.o (ctxObj n 4) == 0 || s.o (slotObj (s.o (ctxObj n 4)) 8) == 1)

/-- Bits 1 and 2 of AVAIL_CONDITIONS. -/
def State.settleConds (s : State) : State := (s.setOBit 0x801100 1 s.dualHost).setOBit 0x801100 2 s.modelsPinned

/-! ### The state of the device (R502) -/

/-- A loop group is RECOVERING. -/
def State.anyRecovering (s : State) : Bool := anyBelow 8 (fun g => s.o (groupObj g 9) == 2)

/-- A condition of R62 holds: a pool is LOW or EXHAUSTED, or a unit is retired. -/
def State.degraded (s : State) : Bool :=
  s.o 0x800001 != 0 || s.o 0x800003 != 0 || s.o 0x800004 != 0 || decide (s.channels.length < 8)

/-- The code of the first row of R502 whose condition holds. -/
def State.stateCode (s : State) : Nat :=
  if s.boot.maint then 1
  else if !s.boot.up && !s.boot.resetOpen then 0
  else if s.o 0x1F2002 = 4 then 6
  else if s.boot.resetOpen || s.anyRecovering || anyBelow 4 (fun p => decide (2 ≤ s.o (partObj p 3))) then 5
  else if s.degraded then 4
  else if s.loopRuns then 3
  else 2

/-- 0x1F10:02 FLAGS. -/
def State.stateFlags (s : State) : Nat :=
  let pool (v : Nat) : Bool := anyBelow 7 (fun i => nfld (s.o 0x800001) (2 * i) 2 == v)
  b01 s.loopRuns + b01 (pool 1) * 2 + b01 (pool 2) * 4 +
    b01 (s.o 0x800003 != 0 || s.o 0x800004 != 0 || decide (s.channels.length < 8)) * 8 + b01 s.anyRecovering * 16 +
    b01 (s.o 0x801100 == 0x1F) * 32 + b01 (s.oBit 0x800002 7) * 64

/-- STATE, FLAGS and ENTERED_NS of 0x1F10. -/
def State.settleState (s : State) : State :=
  let t := s.setO 0x1F1002 s.stateFlags
  if s.o 0x1F1001 = s.stateCode then t else (t.setO 0x1F1001 s.stateCode).setO 0x1F1003 s.now

/-- 0x1F20:07 CLUSTER_STATES: the device's state in P3 and P4, P2 in retention, P1 with every core clock gated (R594,
R595). -/
def State.settleClusters (s : State) : State :=
  let code (k : Nat) : Nat :=
    if s.o 0x1F2002 ≠ 0 then s.o 0x1F2002
    else if (s.cluster k).p2 then 2
    else if (List.range 4).all (fun i => (s.core (4 * k + i)).clockGated) then 1 else 0
  s.setO 0x1F2007 ((List.range 6).map (fun k => code k * 16 ^ k)).sum

/-- The partition is idle in the sense of R596: every context of it is STOPPED or PREEMPTED, and no other context runs on
its cores. -/
def State.partIdle (s : State) (p : Nat) : Bool :=
  (List.range 64).all (fun n =>
    let st := s.o (ctxObj n 0xB)
    st == 0 || st == 4 || (s.o (ctxObj n 2) != p && !(s.ctxCores n).any (fun c => (s.coresOf p).contains c)))

/-- The time since which each partition has been idle. -/
def State.settleIdle (s : State) : State :=
  (List.range 4).foldl (fun t p =>
    let old := Tbl.get 0 t.power.idleFrom p
    let new := if t.partIdle p then (if old = 0 then t.now + 1 else old) else 0
    if new = old then t else { t with power := { t.power with idleFrom := Tbl.set 0 t.power.idleFrom p new } }) s

/-- Everything that follows other state is brought up to date (R502: whenever a condition changes). -/
def State.settle (s : State) : State := s.settleCounts.settlePools.settleFlags.settleConds.settleClusters.settleIdle.settleState

end Sys2Proof.Machine
end

