-- ==== Sys2Proof/Machine/Dram.lean ====
section
/-! DEFINITION. The in-package DRAM and its controller (R398 to R424): the address mapping, line reads and writes with
their sideband, the command protocol's retry buffer, refresh, patrol, row sparing, calibration, and the clears of R413. -/

namespace Sys2Proof.Machine

/-! ### Channels and addresses (R398, R399) -/

/-- Channel `c`. -/
def State.chan (s : State) (c : Nat) : Channel := Tbl.get Channel.reset s.chans c

/-- The state with a channel replaced. -/
def State.setChan (s : State) (c : Nat) (x : Channel) : State := { s with chans := Tbl.set Channel.reset s.chans c x }

/-- R398: the channel of a physical address and the offset in it. -/
def State.dramMap (s : State) (a : Nat) : Nat × Nat :=
  let n := s.mapped.length
  let g := a / 256
  (s.mapped.getD (g % n) 0, g / n * 256 + a % 256)

/-- The address lies on a channel that has been retired: an access is answered with an error status (R406). -/
def State.lostAt (s : State) (a : Nat) : Bool := s.power.lost.contains (s.dramMap a).1

/-- The physical address of an offset of a channel of the map. -/
def State.dramUnmap (s : State) (ch off : Nat) : Nat :=
  let n := s.mapped.length
  let i := (s.mapped.findIdx? (· == ch)).getD 0
  (off / 256 * n + i) * 256 + off % 256

/-- R399: bank and row of a channel offset. -/
def bankOf (off : Nat) : Nat := off / 2 ^ 11 % 16
/-- Row of a channel offset. -/
def rowOf (off : Nat) : Nat := off / 2 ^ 15 % 2 ^ 15
/-- Line of a row. -/
def colOf (off : Nat) : Nat := off / 2 ^ 6 % 32
/-- The channel offset of a bank, row and column. -/
def offsetOf (bank row col : Nat) : Nat := row * 2 ^ 15 + bank * 2 ^ 11 + col * 2 ^ 6

/-! ### The command protocol (R400, R405) -/

/-- The number of one bits of a number below 2^n. -/
def popCount : Nat → Nat → Nat
  | 0, _ => 0
  | n + 1, v => v % 2 + popCount n (v / 2)

/-- A command word with its sequence number and even parity (R400). -/
def commandWord (op seq fields : Nat) : W32 :=
  let w := op + seq % 32 * 2 ^ 5 + fields
  BitVec.ofNat 32 (w + popCount 32 w % 2 * 2 ^ 4)

/-- A command sent to the die: it takes the next sequence number and enters the retry buffer of 32 (R405). -/
def State.send (s : State) (ch op fields : Nat) : State :=
  let x := s.chan ch
  let r := x.retry ++ [commandWord op x.seq fields]
  s.setChan ch { x with seq := (x.seq + 1) % 32, retry := r.drop (r.length - 32) }

/-- Every channel enters self-refresh with this PASR (R420). -/
def State.selfRefreshAll (s : State) (pasr : Nat) : State :=
  s.channels.foldl (fun t c =>
    let u := (t.send c 9 (0x10 * 2 ^ 14 + pasr % 2 ^ 8 * 2 ^ 22)).send c 7 0
    (u.setChan c { u.chan c with selfRefresh := true, pasr := pasr }).setO (ok (0x6010 + c) 1) 1) s

/-- Every channel leaves self-refresh. -/
def State.wakeDram (s : State) : State :=
  s.channels.foldl (fun t c =>
    if !(t.chan c).selfRefresh then t
    else
      let u := t.send c 8 0
      (u.setChan c { u.chan c with selfRefresh := false, pasr := 0xFF }).setO (ok (0x6010 + c) 1) 0) s

/-- The commands of one line access: ACT, then RD or WR with AP = 1 (the page policy is the model's, log 20). -/
def State.sendLine (s : State) (ch off : Nat) (write : Bool) : State :=
  let b := bankOf off
  (s.send ch 1 (b * 2 ^ 10 + rowOf off * 2 ^ 14)).send ch (if write then 3 else 2) (b * 2 ^ 10 + colOf off * 2 ^ 14 + 2 ^ 19)

/-! ### Lines (R406 to R410) -/

/-- The sideband of the line at a line-aligned address. -/
def State.lineOf (s : State) (a : Nat) : Nat := Tbl.get 0 s.line (a / 64)

/-- The state with a line's sideband set. -/
def State.setLine (s : State) (a v : Nat) : State := { s with line := Tbl.set 0 s.line (a / 64) v }

/-- The owner of the valid entry that covers an address of DRAM or hub SRAM. -/
def State.regionOwner (s : State) (dram : Bool) (a : Nat) : Option Nat :=
  (s.coverOf dram (regionGranule dram a)).map (fun e => fld (s.rgn e 0) 25 2)

/-- A log entry about a line. -/
def State.logLine (s : State) (cls a : Nat) : State :=
  s.logEv cls 3 (s.dramMap a).1 { own := s.regionOwner true a, addr := a }

/-- An error of a row enters the table of R417; a full table gives up the row whose last error is oldest. -/
def State.countRow (s : State) (a : Nat) (ue : Bool) : State :=
  let (ch, off) := s.dramMap a
  let same (r : CeRow) : Bool := r.ch == ch && r.bank == bankOf off && r.row == rowOf off
  match s.ceRows.find? same with
  | some r =>
    { s with ceRows := { r with times := s.now :: r.times, ue := r.ue || ue } :: s.ceRows.filter (fun q => !same q) }
  | none =>
    { s with ceRows := ⟨ch, bankOf off, rowOf off, [s.now], ue⟩ :: s.ceRows.take 63 }

/-- Poisoning a line keeps its data (R409). -/
def State.poisonLine (s : State) (a : Nat) : State := s.setLine a (nput (nput (s.lineOf a) 0 1 1) 4 3 0)

/-- R409: a read of a line; whether it returns data. -/
def State.lineRead (s : State) (a : Nat) : State × Bool :=
  let (ch, off) := s.dramMap a
  let s1 := s.sendLine ch off false
  let s0 := s1.setChan ch { s1.chan ch with lastRead := s.now }
  let w := s.lineOf a
  let k := 0x6010 + ch
  if nbit w 0 then (s0.logLine 0x07 a, false)
  else if nbit w 4 then ((((s0.poisonLine a).countRow a true).incO (ok k 3) 1).logLine 0x05 a, false)
  else if nbit w 5 && (s.coverOf true (a / 0x200000)).isSome then
    (((s0.poisonLine a).incO (ok k 4) 1).logLine 0x06 a, false)
  else if nbit w 6 then
    ((((s0.setLine a (nput w 6 1 0)).countRow a false).incO (ok k 2) 1).logLine 0x04 a, true)
  else (s0, true)

/-- R410: a write of all 64 bytes of a line; `frt` is the FRT mode of the transfer. -/
def State.lineWrite (s : State) (a frt : Nat) (d : List Byte) : State :=
  let (ch, off) := s.dramMap a
  (((s.sendLine ch off true).setLine a (frt % 4 * 2)).poke a d)

/-- R410: a write of fewer bytes; whether it was stored. A line from which no data can be read refuses it. -/
def State.linePartial (s : State) (a frt : Nat) (d : List Byte) : State × Bool :=
  let base := a / 64 * 64
  let (ch, off) := s.dramMap base
  let r := s.lineRead base
  if r.2 then
    let s1 := r.1.sendLine ch off true
    ((s1.setLine base (nput (nput (s1.lineOf base) 1 2 frt) 5 1 0)).poke a d, true)
  else ((r.1.incO (ok (0x6010 + ch) 8) 1).logLine 0x08 base, false)

/-- Bytes written to DRAM within one line. -/
def State.dramStore (s : State) (a frt : Nat) (d : List Byte) : State × Bool :=
  if a % 64 = 0 ∧ d.length = 64 then (s.lineWrite a frt d, true) else s.linePartial a frt d

/-- The state with the answer of a hub-side port: a status and data. -/
def State.answer (s : State) (st : Nat) (d : List Byte) : State := { s with reply := some (st, d) }

/-- An access of DRAM refused by the address map or the region table (R31, R37), or on a channel that is lost (R406); `none`
where it is admitted. A retry status is 0xF0 in the model's reply. -/
def State.dramRefusal (s : State) (owner : Nat) (part : Option Nat) (a : Nat) (write : Bool) : Option State :=
  if s.mapped.length * 2 ^ 30 ≤ a then
    some ((s.logEv 0x0D 7 0 { own := some owner, addr := a }).answer 0x09 [])
  else match s.permits true (a / 0x200000) owner part write with
    | .granted => if s.lostAt a then some (s.answer 0x11 []) else none
    | .retry => some (s.answer 0xF0 [])
    | .refused => some ((s.regionRefusal true (a / 0x200000) owner a).answer 0x0A [])

/-- DRAM_READ: a line read by an owner (R409, R412). -/
def execDramRead (owner : Fin 4) (part : Option (Fin 4)) (line : Fin 0x8000000) (s : State) :
    Host.Outcome State Fault Refusal :=
  .next (
    match s.dramRefusal owner (part.map (fun p => p.val)) (line * 64) false with
    | some t => t
    | none =>
      let r := s.lineRead (line * 64)
      if r.2 then r.1.answer 0 (s.bytes (line * 64) 64) else r.1.answer 0x10 [])

/-- DRAM_WRITE: a full line written by an owner (R410, R412). -/
def execDramWrite (owner : Fin 4) (part : Option (Fin 4)) (line : Fin 0x8000000) (frt : Fin 4) (d : List Byte)
    (s : State) : Host.Outcome State Fault Refusal :=
  if d.length ≠ 64 then .fault .illFormed
  else .next (
    match s.dramRefusal owner (part.map (fun p => p.val)) (line * 64) true with
    | some t => t
    | none => (s.lineWrite (line * 64) frt d).answer 0 [])

/-- DRAM_PARTIAL_WRITE: fewer than 64 bytes within one line (R410, R412). -/
def execDramPartialWrite (owner : Fin 4) (part : Option (Fin 4)) (a : Fin 0x200000000) (d : List Byte) (s : State) :
    Host.Outcome State Fault Refusal :=
  if d.length = 0 ∨ 64 ≤ d.length ∨ 64 < a.val % 64 + d.length then .fault .illFormed
  else .next (
    match s.dramRefusal owner (part.map (fun p => p.val)) a true with
    | some t => t
    | none =>
      let r := s.linePartial a 0 d
      r.1.answer (if r.2 then 0 else 0x11) [])

/-! ### Refresh (R402 to R404) -/

/-- t_REFI of a channel: halved while its die is hot. -/
def State.tRefi (s : State) (ch : Nat) : Nat := if s.dieHot.contains (ch / 2) then 1950 else 3900

/-- One REF: every bank precharged, then refreshed. -/
def State.refresh (s : State) (ch : Nat) : State := (s.send ch 5 0).send ch 6 0

/-- `n` refreshes back to back. -/
def State.refreshes (s : State) (ch : Nat) : Nat → State
  | 0 => s
  | n + 1 => (s.refresh ch).refreshes ch n

/-- REFRESH_DUE: a refresh of a channel that has fallen due issues, or in a quiet interval is owed, up to eight; with eight
owed it is forced (R402, R403). -/
def execRefreshDue (ch : Fin 8) (s : State) : Host.Outcome State Fault Refusal :=
  .next (
    let x := s.chan ch
    if s.now < x.refDue ∨ x.selfRefresh = true ∨ ¬ s.channels.contains ch.val = true then s
    else
      let due := x.refDue + s.tRefi ch
      if s.quiet && decide (x.owed < 8) then s.setChan ch { x with refDue := due, owed := x.owed + 1 }
      else
        let s1 := (s.setChan ch { x with refDue := due }).refresh ch
        if s.quiet then s1.incO (ok (0x6010 + ch) 6) 1 else s1)

/-- REFRESH_MAKEUP: outside a quiet interval the owed refreshes issue back to back (R403, R404). -/
def execRefreshMakeup (ch : Fin 8) (s : State) : Host.Outcome State Fault Refusal :=
  .next (
    let x := s.chan ch
    if s.quiet || x.selfRefresh || !s.channels.contains ch.val then s else (s.setChan ch { x with owed := 0 }).refreshes ch x.owed)

/-- The larger of two temperatures. -/
def maxInt (a b : Int) : Int := if a < b then b else a

/-- A temperature reading of one die: t_REFI halves at 85 °C and returns below 82 °C (R402). -/
def State.readDie (s : State) (die : Nat) (t : Int) : State :=
  { s with
    dieTemp := Tbl.set 0 s.dieTemp die t
    dieHot := if 85 ≤ t then (if s.dieHot.contains die then s.dieHot else die :: s.dieHot)
      else if t < 82 then s.dieHot.filter (fun d => d != die) else s.dieHot }

/-- DRAM_TEMP_READ: every t_DTS = 4 ms the temperature of each die is read (R402, R421); TEMP_MAX shows the highest. -/
def execDramTempRead (t0 t1 t2 t3 : BitVec 8) (s : State) : Host.Outcome State Fault Refusal :=
  .next (
    if s.now < s.tempAt then s
    else
      let ts := [t0.toInt, t1.toInt, t2.toInt, t3.toInt]
      let s1 := ts.zipIdx.foldl (fun s p => s.readDie p.2 p.1) s
      let s2 := s.channels.foldl (fun s c => if (s.chan c).selfRefresh then s else s.send c 0xA (0x20 * 2 ^ 14)) s1
      { (s2.setO 0x600004 (trunc 8 (ts.foldl maxInt t0.toInt))) with tempAt := s.now + 4000000 })

/-! ### Alerts (R405, R406) -/

/-- The sequence numbers from `a` up to but not `b`, modulo 32. -/
def seqGap (a b : Nat) : Nat := (b + 32 - a % 32) % 32

/-- A channel is retired: fenced, out of DRAM.MAP, its clears and atoms ended, every holder "none" (R406, R413, R424). -/
def State.retireChannel (s : State) (ch : Nat) : State :=
  let s1 := (s.setOBit 0x600001 ch false).setO (ok (0x6010 + ch) 1) 2
  let n := s1.channels.length
  let s2 := s1.setO 0x600002 (n * 1024 - 2 * s.o 0x600003)
  let s3 := { (s2.logEv 0x0A 3 ch {}) with
    holders := s.holders.filter (fun e => decide (4096 ≤ e.1))
    power := { s2.power with channelLost := true, lost := ch :: s2.power.lost }
    fw := if s.o 0xA01008 = 2 then { s.fw with revert := 4 } else s.fw
    flash := { s2.flash with channels := s1.o 0x600001 } }
  s3.settle

/-- DRAM_ALERT: a die reports a parity or sequence mismatch. The controller sends RESYNC with the SEQ the die expects and
replays every command from it; `clean` says that the replay completed without an ALERT. The third failure in a row retires
the channel (R405, R406). -/
def execDramAlert (ch : Fin 8) (expect : Fin 32) (clean : Bool) (s : State) : Host.Outcome State Fault Refusal :=
  .next (
    if ¬ s.channels.contains ch.val = true then s
    else
      let x := s.chan ch
      let s1 := (s.incO (ok (0x6010 + ch) 5) 1).logEv 0x09 3 ch { detail := expect.val }
      let fails := if clean then 0 else x.failures + 1
      let s2 := s1.setChan ch { x with failures := fails }
      (if fails = 3 then s2.retireChannel ch else s2).recordRepair s)

/-! ### Sparing and page retirement (R417 to R419) -/

/-- A row has reached ROW_CE_LIMIT errors within 24 h, or had an uncorrectable one. -/
def State.rowDue (s : State) (r : CeRow) : Bool :=
  r.ue || decide (s.o 0x600006 ≤ (r.times.filter (fun t => decide (s.now < t + 86400000000000))).length)

/-- The rows whose sparing is decided, as the repair state records them (R61). -/
def State.dueRows (s : State) : List CeRow := (s.ceRows.filter s.rowDue).map (fun r => { r with times := [], ue := true })

/-- A sparing or calibration atom may start: the free portion, or the loop not running (R418). -/
def State.atomTime (s : State) : Bool := s.freePortion

/-- Spare rows left in a bank. -/
def State.sparesLeft (s : State) (ch bank : Nat) : Nat := nfld (s.o (ok (0x6010 + ch) 7)) (4 * bank) 4

/-- The DRAM lines of a row, by physical address. -/
def State.rowLines (s : State) (ch bank row : Nat) : List Nat :=
  (List.range 32).map (fun c => s.dramUnmap ch (offsetOf bank row c))

/-- The 2 MiB pages a row's span touches: 8 consecutive blocks of its channel (R419). -/
def State.rowPages (s : State) (ch bank row : Nat) : List Nat :=
  ((s.rowLines ch bank row).map (fun a => a / 0x200000)).foldl (fun l p => if l.contains p then l else l ++ [p]) []

/-- A page is retired; CAPACITY_MIB and RETIRED_PAGES follow, and the owner of a covering entry is logged. -/
def State.retirePage (s : State) (p : Nat) : State :=
  if s.retiredPages.contains p then s
  else
    let s1 := { s with retiredPages := p :: s.retiredPages }
    let n := s.o 0x600003 + 1
    let s2 := (s1.setO 0x600003 n).setO 0x600002 (s.channels.length * 1024 - 2 * n)
    s2.logEv 0x0B 3 0 { own := s.regionOwner true (p * 0x200000), addr := p * 0x200000 }

/-- The retired-page map derived from the retired rows under the map in use, with RETIRED_PAGES and CAPACITY_MIB (R419). -/
def State.derivePages (s : State) : State :=
  let rows := s.retiredRows.filter (fun r => s.mapped.contains (r / 2 ^ 19))
  let pages := (rows.flatMap (fun r => s.rowPages (r / 2 ^ 19) (r / 2 ^ 15 % 16) (r % 2 ^ 15))).eraseDups
  (({ s with retiredPages := pages }).setO 0x600003 pages.length).setO 0x600002
    (s.channels.length * 1024 - 2 * pages.length)

/-- A row is retired, and with it every page its span touches (R419); the repair state records it. -/
def State.retireRow (s : State) (ch bank row : Nat) : State :=
  let rows := (ch * 2 ^ 19 + bank * 2 ^ 15 + row) :: s.retiredRows
  (s.rowPages ch bank row).foldl State.retirePage
    { s with retiredRows := rows, flash := { s.flash with rows := rows } }

/-- The mode-register writes of a sparing (R418): bank, row low, row high, then COPY and COMMIT of a spare. -/
def State.sendSparing (s : State) (ch bank row spare : Nat) : State :=
  let mrw (s : State) (mra v : Nat) : State := s.send ch 9 (mra * 2 ^ 14 + v * 2 ^ 22)
  mrw (mrw (mrw (mrw (mrw s 0x40 bank) 0x41 (row % 256)) 0x42 (row / 256)) 0x43 (spare + 4)) 0x43 (spare + 8)

/-- A row due for it is copied to a spare and remapped; with no spare left it is retired (R417 to R419). -/
def State.spareRow (s : State) (ch bank row : Nat) : State :=
    let same (r : CeRow) : Bool := r.ch == ch && r.bank == bank && r.row == row
    match s.ceRows.find? same with
    | none => s
    | some r =>
      if !s.rowDue r || !s.atomTime || !s.channels.contains ch then s
      else
        let s0 := { s with ceRows := s.ceRows.filter (fun q => !same q) }
        let left := s.sparesLeft ch bank
        if left = 0 then s0.retireRow ch bank row
        else
          let lines := s.rowLines ch bank row
          let s1 := lines.foldl (fun t a => if nbit (t.lineOf a) 4 then t.poisonLine a
            else t.setLine a (nput (t.lineOf a) 6 1 0)) (s0.sendSparing ch bank row (4 - left))
          let x := s1.chan ch
          let s2 := s1.setChan ch { x with remaps := x.remaps ++ [bank * 32768 + row] }
          (s2.setO (ok (0x6010 + ch) 7) (nput (s.o (ok (0x6010 + ch) 7)) (4 * bank) 4 (left - 1))).logEv 0x0B 3 ch
            { own := s.regionOwner true (lines.headD 0), addr := lines.headD 0 } |>.settle

/-! ### Calibration (R421) -/

/-- ZQ_CALIBRATION: an atom on a channel, every 256 ms or after a move of 4 °C, where R418 allows an atom. -/
def execZqCalibration (ch : Fin 8) (s : State) : Host.Outcome State Fault Refusal :=
  .next (
    let x := s.chan ch
    let t := Tbl.get 0 s.dieTemp (ch / 2)
    let due := decide (x.zqAt + 256000000 ≤ s.now) || decide (4 ≤ (t - x.zqTemp).natAbs)
    if due && s.atomTime && !x.selfRefresh && s.channels.contains ch.val then
      (s.setChan ch { x with zqAt := s.now, zqTemp := t }).send ch 9 (0x21 * 2 ^ 14 + 2 ^ 22)
    else s)

/-- PATTERN_READ: a channel that has carried no read for 1 ms is read by an MRR of PATTERN. -/
def execPatternRead (ch : Fin 8) (s : State) : Host.Outcome State Fault Refusal :=
  .next (
    let x := s.chan ch
    if x.lastRead + 1000000 ≤ s.now ∧ x.selfRefresh = false ∧ s.channels.contains ch.val = true then
      (s.setChan ch { x with lastRead := s.now }).send ch 0xA (0x22 * 2 ^ 14)
    else s)

/-! ### Patrol (R422) -/

/-- PATROL_READ: the patrol of a channel reads its next line under R409; the last line ends the pass. -/
def execPatrolRead (ch : Fin 8) (s : State) : Host.Outcome State Fault Refusal :=
  .next (
    let x := s.chan ch
    if s.o 0x608002 = 0 ∨ x.selfRefresh = true ∨ ¬ s.channels.contains ch.val = true then s
    else
      let s1 := (s.lineRead (s.dramUnmap ch (x.patrolPos * 64))).1
      let y := s1.chan ch
      if x.patrolPos + 1 = 2 ^ 24 then
        let s2 := s1.setChan ch { y with patrolPos := 0, patrolStart := s.now }
        if s.channels.all (fun c => c == ch.val || decide (x.patrolStart ≤ (s.chan c).patrolStart)) then
          ({ (s2.setO 0x608003 s.now) with patrolLate := false }).settle
        else s2
      else s1.setChan ch { y with patrolPos := x.patrolPos + 1 })

/-! ### Clears (R413) -/

/-- HUB_GRANULE_CLEAR: a hub SRAM granule (4 KiB) or DRAM page (2 MiB) under an entry that is clearing becomes zero and its
holder that entry's owner. The entry stops clearing when its last granule is done, and is then open. -/
def State.granuleClear (s : State) (dram : Bool) (g : Nat) : State :=
  match s.coverOf dram g with
  | none => s
  | some e =>
    let own := fld (s.rgn e 0) 25 2
    let key := if dram then g else 4096 + g
    if !bit (s.rgn e 1) 9 || Tbl.get 0 s.holders key = own + 1 then s
    else
      let s1 := if dram then
          let t := s.wipe (g * 0x200000) 0x200000
          { t with line := Tbl.setList 0 (Tbl.clear t.line (g * 0x8000) 0x8000) (g * 0x8000) (List.replicate 0x8000 8) }
        else s.sramClear (hubAddr (g * 0x1000)) 0x1000
      let s2 := { s1 with holders := Tbl.set 0 s1.holders key (own + 1) }
      let base := fld (s.rgn e 0) 0 12
      let all := (List.range (fld (s.rgn e 0) 12 12 + 1)).all (fun i =>
        Tbl.get 0 s2.holders (if dram then base + i else 4096 + base + i) == own + 1)
      if all then
        let s3 := { s2 with rgns := Tbl.set 0 s2.rgns (e * 2 + 1) (put32 (s.rgn e 1) 9 1 0) }
        s3.setO (ok (0x6100 + e) 3) (if bit (s.rgn e 0) 30 then 4 else 2)
      else s2

/-- HUB_GRANULE_CLEAR (R413). -/
def execHubGranuleClear (dram : Bool) (g : Fin 4096) (s : State) : Host.Outcome State Fault Refusal :=
  .next (s.granuleClear dram g)

end Sys2Proof.Machine
end

