-- ==== Sys2Proof/Machine/Stream.lean ====
section
/-! DEFINITION. The stream engines' commands: STREAM_IN and STREAM_OUT with FRT and the accumulator forms (R185, R220 to
R225, R278 to R284), FILL and COPY (R186, R262), window writes (R187, R269 to R271, R470), and the handle commands
(R188). -/

namespace Sys2Proof.Machine

/-! ### Far accesses (R37, R169, R170, R283) -/

/-- What a stream command is to the address map and the region table. -/
structure Requester where
  core : Nat
  own : Nat
  part : Nat
  rt : Bool
  deriving DecidableEq, Repr

/-- The requester of a command that executes on a core. -/
def Flight.requester (f : Flight) (s : State) (core : Nat) : Requester :=
  ⟨core, f.cmd.own, s.ctxPart f.cmd.ctx, f.rt⟩

/-- The status an answer of a protection table gives: 0 granted, 0xF0 retry, 0x0A REGION. -/
def Permit.code : Permit → Nat
  | .granted => 0
  | .retry => 0xF0
  | .refused => 0x0A

/-- The status of a far access to a place; of hub SRAM, real-time commands reach the loop's buffers only (R38). -/
def State.placeStatus (s : State) (r : Requester) (write : Bool) (n : Nat) : Place → Nat
  | .cm k off => if write && k != r.core / 4 then 0x09 else (s.omapPermits (24 + k) off n r.own).code
  | .hubSram off =>
    if r.rt && !s.inLoopBuffers off then 0x0A
    else (s.permits false (off / 0x1000) r.own (some r.part) write).code
  | .dram x =>
    if r.rt then 0x09
    else match s.permits true (x / 0x200000) r.own (some r.part) write with
      | .granted => if s.lostAt x then 0x11 else 0
      | p => p.code
  | _ => 0x09

/-- The status of a far access: 0 admitted, 0xF0 retry, 0x09 ADDRESS, 0x0A REGION, 0x11 TRANSFER on a lost channel (R169,
R283, R406). -/
def State.farStatus (s : State) (r : Requester) (write : Bool) (a n : Nat) : Nat := s.placeStatus r write n (s.place a)

/-- A far access to a place refused by its protection is logged with its owner and address (R31). -/
def State.logRegion (s : State) (own a : Nat) : Place → State
  | .hubSram off => s.regionRefusal false (off / 0x1000) own a
  | .dram x => s.regionRefusal true (x / 0x200000) own a
  | _ => s.logEv 0x0C 7 0 { own := some own, addr := a }

/-- A refused far access is logged with its owner and address (R31, R37). -/
def State.logFar (s : State) (r : Requester) (st a : Nat) : State :=
  if st = 0x09 then s.logEv 0x0D 7 0 { own := some r.own, addr := a, status := st }
  else if st = 0x0A then s.logRegion r.own a (s.place a)
  else s

/-- An admitted far read of a place. -/
def State.readAt (s : State) (a n : Nat) : Place → State × Nat × List Byte
  | .dram x =>
    let l := s.lineRead (x / 64 * 64)
    (l.1, if l.2 then 0 else 0x10, l.1.bytes a n)
  | _ =>
    let l := s.sramRead a n
    (l.1, if l.2 then 0x10 else 0, l.1.bytes a n)

/-- One far read within 64 B: the state after it, its status and its bytes. -/
def State.farRead (s : State) (r : Requester) (a n : Nat) : State × Nat × List Byte :=
  let st := s.farStatus r false a n
  if st ≠ 0 then (s.logFar r st a, st, []) else s.readAt a n (s.place a)

/-- An admitted far write of a place. -/
def State.writeAt (s : State) (frt a : Nat) (d : List Byte) : Place → State × Nat
  | .dram x =>
    let l := s.dramStore x frt d
    (l.1, if l.2 then 0 else 0x11)
  | _ => (s.sramWrite a d, 0)

/-- One far write within 64 B: the state after it and its status. -/
def State.farWrite (s : State) (r : Requester) (frt a : Nat) (d : List Byte) : State × Nat :=
  let st := s.farStatus r true a d.length
  if st ≠ 0 then (s.logFar r st a, st) else s.writeAt frt a d (s.place a)

/-- Accesses in order until one is not answered with OK. -/
def untilStop {α : Type} (l : List α) (s : State) (f : State → α → State × Nat) : State × Nat :=
  l.foldl (fun acc x => if acc.2 = 0 then f acc.1 x else acc) (s, 0)

/-- One more access of a run of reads, up to the first that is not answered with OK. -/
def readStep (r : Requester) (acc : State × Nat × List Byte) (c : Nat × Nat) : State × Nat × List Byte :=
  if acc.2.1 = 0 then
    let q := acc.1.farRead r c.1 c.2
    (q.1, q.2.1, acc.2.2 ++ q.2.2)
  else acc

/-- A run of far bytes read whole, access by access. -/
def State.farReadRun (s : State) (r : Requester) (a n : Nat) : State × Nat × List Byte :=
  (accessRuns a n).foldl (readStep r) (s, 0, [])

/-- One more run read, up to the first that is not answered with OK. -/
def readRunStep (r : Requester) (acc : State × Nat × List Byte) (m : Nat × Nat × Nat) : State × Nat × List Byte :=
  if acc.2.1 = 0 then
    let g := acc.1.farReadRun r m.1 m.2.2
    (g.1, g.2.1, acc.2.2 ++ g.2.2)
  else acc

/-- A run of far bytes written, access by access. -/
def State.farWriteRun (s : State) (r : Requester) (frt a : Nat) (d : List Byte) : State × Nat :=
  untilStop (accessRuns a d.length) s (fun s c => s.farWrite r frt c.1 ((d.drop (c.1 - a)).take c.2))

/-- How many accesses in order are answered with OK. -/
def doneCount {α : Type} (l : List α) (s : State) (f : State → α → State × Nat) : Nat :=
  (l.foldl (fun (acc : (State × Nat) × Nat) x =>
    if acc.1.2 = 0 then
      let q := f acc.1.1 x
      (q, if q.2 = 0 then acc.2 + 1 else acc.2)
    else acc) ((s, 0), 0)).2

/-! ### Moves (R280 to R282) -/

/-- A packed row with its padding elements zero (R72). -/
def padRow (f : Fmt) (n : Nat) (d : List Byte) : List Byte :=
  if f.bits < 8 then leBytes d.length (leNat d % 2 ^ (n * f.bits)) else d

/-- The local offset of row `y` of channel `c` of an FRT rectangle (R282). -/
def frtLocal (v : View) (c y : Nat) : Nat := v.base + y * v.stride + c * v.pitch

/-- Bytes of the scratchpad written by a stream. -/
def State.localWrite (s : State) (core off : Nat) (d : List Byte) : State := s.sramWrite (spadAddr core off) d

/-- Bytes of the scratchpad read by a stream: DATA where a word is uncorrectable or poisoned (R273). -/
def State.localRead (s : State) (core off n : Nat) : State × Nat × List Byte :=
  let r := s.sramRead (spadAddr core off) n
  (r.1, if r.2 then 0x10 else 0, r.1.bytes (spadAddr core off) n)

/-- One move of STREAM_IN: each access is written as it is answered. -/
def State.moveIn (s : State) (core : Nat) (r : Requester) (f : Fmt) (n : Nat) (m : Nat × Nat × Nat) : State × Nat :=
  if f.bits < 8 then
    let q := s.farReadRun r m.1 m.2.2
    if q.2.1 ≠ 0 then (q.1, q.2.1) else (q.1.localWrite core m.2.1 (padRow f n q.2.2), 0)
  else
    untilStop (accessRuns m.1 m.2.2) s (fun s c =>
      let q := s.farRead r c.1 c.2
      if q.2.1 ≠ 0 then (q.1, q.2.1) else (q.1.localWrite core (m.2.1 + (c.1 - m.1)) q.2.2, 0))

/-- One move of STREAM_OUT. -/
def State.moveOut (s : State) (core : Nat) (r : Requester) (f : Fmt) (n : Nat) (m : Nat × Nat × Nat) : State × Nat :=
  let q := s.localRead core m.2.1 m.2.2
  if q.2.1 ≠ 0 then (q.1, q.2.1) else q.1.farWriteRun r 0 m.1 (padRow f n q.2.2)

/-- One tile row of STREAM_IN with FRT: read, expanded, and written row by row (R223, R225). -/
def State.tilesIn (s : State) (core : Nat) (r : Requester) (b : Bound) (res : Nat) (ct : Nat × Nat) : State × Nat :=
  let w := b.sdesc
  let f := (b.v 0).format
  let tb := frtTileBytes res
  let run := tileRun w tb ct
  let q := s.farReadRun r run.1 run.2
  if q.2.1 ≠ 0 then (q.1, q.2.1)
  else
    let tile (i : Nat) : FrtTile := frtOfBytes res ((q.2.2.drop (i * tb)).take tb)
    let rows := (List.range (min 8 (sdCount w 1 - 8 * ct.2))).map (fun y =>
      (frtLocal (b.v 0) ct.1 (8 * ct.2 + y),
       packRow f ((List.range (sdCount w 0)).map (fun x => frtExpand f (tile (x / 8)) (8 * y + x % 8)))))
    (rows.foldl (fun s p => s.localWrite core p.1 p.2) q.1, 0)

/-- One tile row of STREAM_OUT with FRT: read, encoded and written; positions outside the plane are excluded (R223). -/
def State.tilesOut (s : State) (core : Nat) (r : Requester) (b : Bound) (res : Nat) (ct : Nat × Nat) : State × Nat :=
  let w := b.sdesc
  let f := (b.v 0).format
  let rows := (List.range (min 8 (sdCount w 1 - 8 * ct.2))).map (fun y => frtLocal (b.v 0) ct.1 (8 * ct.2 + y))
  let q := untilStop rows s (fun s o => let l := s.localRead core o (f.rowBytes (sdCount w 0)); (l.1, l.2.1))
  if q.2 ≠ 0 then q
  else
    let code (t e : Nat) : Option Nat :=
      match rows[e / 8]? with
      | some o => if 8 * t + e % 8 < sdCount w 0 then some (q.1.elem f (spadAddr core o) (8 * t + e % 8)) else none
      | none => none
    let d := (List.range (cdiv (sdCount w 0) 8)).flatMap (fun t =>
      frtBytes res (frtEncode f res ((List.range 64).map (code t))))
    q.1.farWriteRun r (sdFrt w) (tileRun w (frtTileBytes res) ct).1 d

/-! ### The accumulator image (R73, R185) -/

/-- The header of a held bank; GROUPS is the group count minus 1. -/
def Hold.header (h : Hold) : List Byte :=
  leBytes 4 (h.m + (h.n - 1) * 2 ^ 16 + b01 h.chive * 2 ^ 27 + b01 h.conv * 2 ^ 28) ++ leBytes 4 h.chBase ++
    leBytes 4 h.tile ++ leBytes 4 (h.ctx + (if h.conv then h.groups - 1 else 0) * 2 ^ 6) ++ List.replicate 48 0

/-- The hold record of a header, for a bank. -/
def holdOfHeader (d : List Byte) (bank : Nat) : Hold :=
  let w0 := wordAt d 0
  let w3 := wordAt d 12
  { ctx := nfld w3 0 6, conv := nbit w0 28, chive := nbit w0 27, m := nfld w0 0 16, n := nfld w0 16 11 + 1,
    chBase := nfld (wordAt d 4) 0 11, tile := wordAt d 8, groups := if nbit w0 28 then nfld w3 6 12 + 1 else 1, bank := bank }

/-- The image of a bank: header and 32 rows of 32 values; columns at and beyond W are written as 0. -/
def Core.image (x : Core) (h : Hold) : List Byte :=
  h.header ++ (List.range 1024).flatMap (fun i =>
    leBytes 8 (if i % 32 < x.width then Tbl.get 0 x.acc (h.bank * 1024 + i) else 0))

/-- The bank with the cells of an image. -/
def Core.loadImage (x : Core) (bank : Nat) (d : List Byte) : Core :=
  { x with acc := (List.range 1024).foldl (fun t i =>
      Tbl.set 0 t (bank * 1024 + i) (natAt d (64 + 8 * i) 8 % 2 ^ 40)) x.acc }

/-! ### The commands -/

/-- The regions of a memory that a range reaches are being cleared. -/
def State.clearingAt (s : State) (m off n : Nat) : Bool :=
  (List.range 64).any (fun r => decide (r * regionUnit m < off + n) && decide (off < (r + 1) * regionUnit m) &&
    bit (Tbl.get 0 s.omap (m * 64 + r)) 5)

/-- The cluster that holds a memory. -/
def clusterOfMem (m : Nat) : Nat := if m < 24 then m / 4 else m - 24

/-- A retried access counts (R265, R270), and one to a cluster in P2 wakes it (R596). -/
def State.retried (s : State) (m : Nat) : State := (s.event 0x084 m 1).wakeFor (clusterOfMem m)

/-- The first far access that a region under clear refuses with a retry status counts as a retried access of its memory
(R265, R277). -/
def State.farRetried (s : State) (runs : List (Nat × Nat)) : State :=
  match runs.findSome? (fun a => match s.place a.1 with
      | .cm k off => if s.clearingAt (24 + k) off a.2 then some (24 + k) else none
      | _ => none) with
  | some m => s.retried m
  | none => s

/-- The end of a stream's effect: a retry leaves the command as it was and counts, a fault stops it (R170), else it is done;
`n` local granules are moved (R298). -/
def streamEnd (s : State) (f : Flight) (r : State × Nat) (runs : List (Nat × Nat)) (code unit n : Nat) : State × Flight :=
  if r.2 = 0xF0 then (s.farRetried runs, f)
  else if r.2 ≠ 0 then (r.1.event code unit n, { f with status := r.2, bad := true })
  else (r.1.event code unit n, f.finish)

/-- The local extents of a command that meet a region that is being cleared: its accesses are retried (R265). -/
def State.localRetries (s : State) (core : Nat) (b : Bound) : List Extent :=
  let e := b.extents 0
  (e.1 ++ e.2).filter (fun x => s.extentPermits core b.cmd.own x == .retry)

/-- A command waits for a region that is being cleared. -/
def State.localRetry (s : State) (core : Nat) (b : Bound) : Bool := !(s.localRetries core b).isEmpty

/-- An access of a command to its own memory refused with a retry status counts (R265, R277). -/
def State.localRetried (s : State) (core : Nat) (b : Bound) : State :=
  match s.localRetries core b with
  | x :: _ => s.retried (if x.cm then 24 + core / 4 else core)
  | [] => s

/-- The accesses of a plain stream, in order: those of its moves, cut at far granules; a row of a format below 8 bits moves
whole. -/
def Bound.accesses (b : Bound) : List (Nat × Nat × Nat) :=
  if (b.v 0).format.bits < 8 then b.moves
  else b.moves.flatMap (fun m => (accessRuns m.1 m.2.2).map (fun c => (c.1, m.2.1 + (c.1 - m.1), c.2)))

/-- The local granules that the first `n` bytes of a stream reach (R298). -/
def Bound.granulesMoved (b : Bound) (n : Nat) : Nat :=
  (b.streamRuns.foldl (fun (a : Nat × Nat) p =>
    let l := min a.1 ((b.v 0).format.rowBytes p.2)
    (a.1 - l, a.2 + (granulesOf ((b.v 0).base + p.1) l).length)) (n, 0)).2

/-- STREAM_IN and STREAM_OUT without the accumulator form. -/
def streamEffect (core : Nat) (isIn : Bool) (s : State) (f : Flight) : State × Flight :=
  let b := f.bound (s.core core).width
  let r := f.requester s core
  let w := b.sdesc
  let fm := (b.v 0).format
  let unit := 2 * core + f.cmd.eng - 2
  let code := if isIn then 0x040 else 0x041
  if bit f.cmd.w3 12 then (s, f)
  else if s.localRetry core b then (s.localRetried core b, f)
  else if sdFrt w ≠ 0 then
    let res := (frtResidual (sdFrt w) fm).getD 0
    let one (t : State) (ct : Nat × Nat) : State × Nat := if isIn then t.tilesIn core r b res ct else t.tilesOut core r b res ct
    let k := doneCount (tileRows w) s one
    let rows := ((tileRows w).take k).flatMap (fun ct => (List.range (min 8 (sdCount w 1 - 8 * ct.2))).map (fun y =>
      (granulesOf (frtLocal (b.v 0) ct.1 (8 * ct.2 + y)) (fm.rowBytes (sdCount w 0))).length))
    streamEnd s f (untilStop (tileRows w) s one) b.farRuns code unit rows.sum
  else
    let one (t : State) (m : Nat × Nat × Nat) : State × Nat :=
      if isIn then t.moveIn core r fm (sdN w 0) m else t.moveOut core r fm (sdN w 0) m
    let k := doneCount b.accesses s one
    let bytes := ((b.accesses.take k).map (fun m => m.2.2)).sum
    streamEnd s f (untilStop b.accesses s one) b.farRuns code unit (b.granulesMoved bytes)

/-- The spill form: the context's held bank goes to the far side and stays held (R185). -/
def spillEffect (core : Nat) (s : State) (f : Flight) : State × Flight :=
  let b := f.bound (s.core core).width
  if !bit f.cmd.w3 12 then (s, f)
  else match (s.core core).held with
    | none => (s, { f with status := 0x07, bad := true })
    | some h =>
      let d := (s.core core).image h
      let runs := b.imageRuns.flatMap (fun m => (accessRuns m.1 m.2.2).map (fun c => (c.1, m.2.1 + (c.1 - m.1), c.2)))
      let one (t : State) (m : Nat × Nat × Nat) : State × Nat :=
        t.farWrite (f.requester s core) 0 m.1 ((d.drop m.2.1).take m.2.2)
      let n := ((runs.take (doneCount runs s one)).map (fun m => m.2.2)).sum
      streamEnd s f (untilStop runs s one) b.farRuns 0x041 (2 * core + f.cmd.eng - 2) (cdiv n 64)

/-- One more access of a restore, up to the first that is not answered with OK; once the header of 64 B has arrived, a CTX that
is not the command's ends the command with ACC_STATE (R185). -/
def restoreStep (r : Requester) (ctx : Nat) (acc : State × Nat × List Byte) (c : Nat × Nat) : State × Nat × List Byte :=
  if acc.2.1 = 0 then
    let q := acc.1.farRead r c.1 c.2
    let d := acc.2.2 ++ q.2.2
    (q.1, if q.2.1 = 0 ∧ 64 ≤ d.length ∧ (holdOfHeader d 0).ctx ≠ ctx then 0x07 else q.2.1, d)
  else acc

/-- The idle bank with free values in its cells, which R185 leaves undefined. -/
def State.spoilBank (s : State) (core bank : Nat) : State :=
  let v := s.fresh
  let x := v.2.core core
  v.2.setCore core { x with acc := (List.range 1024).foldl (fun t i =>
    Tbl.set 0 t (bank * 1024 + i) (Config.freeValue (v.1 + i) % 2 ^ 40)) x.acc }

/-- The restore form: the image loads into the idle bank, which becomes held once every access is answered and the
header's CTX is the command's; a header of another context ends the command with ACC_STATE and leaves the bank's contents
undefined (R185). -/
def restoreEffect (core : Nat) (s : State) (f : Flight) : State × Flight :=
  let b := f.bound (s.core core).width
  if !bit f.cmd.w3 12 then (s, f)
  else
    let r := f.requester s core
    let runs := b.imageRuns.flatMap (fun m => accessRuns m.1 m.2.2)
    let q := runs.foldl (restoreStep r f.cmd.ctx) (s, 0, [])
    let bank := 1 - (s.core core).lastBank
    let t := if q.2.1 = 0x07 then q.1.spoilBank core bank
      else if q.2.1 ≠ 0 then q.1
      else q.1.setCore core { ((q.1.core core).loadImage bank q.2.2) with held := some (holdOfHeader q.2.2 bank), lastBank := bank }
    streamEnd s f (t, q.2.1) b.farRuns 0x040 (2 * core + f.cmd.eng - 2) (cdiv q.2.2.length 64)

/-- The engine of a stream command, by its ENG code. -/
def seOf (e : Fin 2) : Nat := 2 + e.val

/-- STREAM_IN (R278 to R284). -/
def execStreamIn (core : Fin 24) (se : Fin 2) (s : State) : Host.Outcome State Fault Refusal :=
  .next (s.perform core (seOf se) 0x50 (streamEffect core true))

/-- STREAM_OUT (R278 to R284). -/
def execStreamOut (core : Fin 24) (se : Fin 2) (s : State) : Host.Outcome State Fault Refusal :=
  .next (s.perform core (seOf se) 0x51 (streamEffect core false))

/-- ACCUMULATOR_SPILL: STREAM_OUT with ACC = 1 (R185). -/
def execAccumulatorSpill (core : Fin 24) (se : Fin 2) (s : State) : Host.Outcome State Fault Refusal :=
  .next (s.perform core (seOf se) 0x51 (spillEffect core))

/-- ACCUMULATOR_RESTORE: STREAM_IN with ACC = 1 (R185). -/
def execAccumulatorRestore (core : Fin 24) (se : Fin 2) (s : State) : Host.Outcome State Fault Refusal :=
  .next (s.perform core (seOf se) 0x50 (restoreEffect core))

/-- FILL writes PATTERN into every word of its range (R262). -/
def fillEffect (core : Nat) (s : State) (f : Flight) : State × Flight :=
  let b := f.bound (s.core core).width
  if s.localRetry core b then (s.localRetried core b, f)
  else
    let v := b.v 0
    let d := (List.replicate (16 * f.cmd.granules) (leBytes 4 f.cmd.w5.toNat)).flatten
    (s.sramWrite (v.addr core v.base) d, f.finish)

/-- COPY moves granules in ascending order (R186, R262). -/
def copyEffect (core : Nat) (s : State) (f : Flight) : State × Flight :=
  let b := f.bound (s.core core).width
  if s.localRetry core b then (s.localRetried core b, f)
  else
    let src := b.v 0
    let dst := b.v 1
    let q := untilStop (List.range f.cmd.granules) s (fun s i =>
      let r := s.sramRead (src.addr core (src.base + 64 * i)) 64
      if r.2 then (r.1, 0x10)
      else (r.1.sramWrite (dst.addr core (dst.base + 64 * i)) (r.1.bytes (src.addr core (src.base + 64 * i)) 64), 0))
    if q.2 ≠ 0 then (q.1, { f with status := q.2, bad := true }) else (q.1, f.finish)

/-- FILL (R186). -/
def execFill (core : Fin 24) (se : Fin 2) (s : State) : Host.Outcome State Fault Refusal :=
  .next (s.perform core (seOf se) 0x52 (fillEffect core))

/-- COPY (R186). -/
def execCopy (core : Fin 24) (se : Fin 2) (s : State) : Host.Outcome State Fault Refusal :=
  .next (s.perform core (seOf se) 0x53 (copyEffect core))

/-! ### Window writes (R187, R268 to R271, R470) -/

/-- The memory of a window and the offset of byte `off` of it (R270). -/
def State.windowAt (s : State) (n off : Nat) : Nat × Nat :=
  let w := s.win n 0
  (if bit w 5 then 24 + fld w 0 5 else fld w 0 5, fld w 6 6 * 0x10000 + off)

/-- The cluster of a window: its own, or that of its core. -/
def State.windowCluster (s : State) (n : Nat) : Nat :=
  let w := s.win n 0
  if bit w 5 then fld w 0 5 else fld w 0 5 / 4

/-- The answer to a write into a window: 0 committed, 1 refused (R269), 2 retry (R265, R270). -/
def State.windowAnswer (s : State) (n dev own off len : Nat) : Nat :=
  if !s.windowAdmits n dev own off len then 1
  else
    let p := s.windowAt n off
    if (p.1 < 24 && (s.core p.1).selfTest) || s.omapPermits p.1 p.2 len (fld (s.win n 0) 26 2) == .retry then 2 else 0

/-- A write that the window admits: its bytes land and its granules count (R269, R270). -/
def State.windowStore (s : State) (n off : Nat) (d : List Byte) : State :=
  let p := s.windowAt n off
  (s.sramWrite (memBase p.1 + p.2) d).incO (ok (0x6200 + n) 3) (d.length / 64)

/-- The announcement of a write with NOTIFY = 1 (R271). -/
def State.announce (s : State) (n woff : Nat) : State :=
  let w := s.win n 1
  let u := s.windowCluster n
  let q := fld w 0 5
  let h := mkHandle ((woff / 2 ^ fld w 5 4) % 4096) (fld w 9 12) (fld (s.win n 0) 26 2) false false false
  if q = 31 then s
  else
    let t := s.push u q h (.announcement n)
    if (s.hq u q).accepts (s.unitCycle u) h (.announcement n) then t else t.incO (ok (0x6200 + n) 5) 1

/-- A refused window write is counted and logged (R269). -/
def State.windowRefused (s : State) (n own : Nat) : State :=
  ((s.incO (ok (0x6200 + n) 4) 1).event 0x086 (s.windowAt n 0).1 1).logEv 0x0E 7 0 { own := some own, detail := n }

/-- The bytes of a WRITE frame's words 2 and 3 for packet `p` of a write (R469). -/
def PWrite.frame (x : PWrite) (p : PPacket) : Frame :=
  ⟨0x01, x.win + b01 x.notify * 2 ^ 6 + b01 p.last * 2 ^ 7 + x.own * 2 ^ 8 + p.woff * 2 ^ 12,
   x.tag + p.n % 16 * 2 ^ 16, p.data, x.tag, 0, 0⟩

/-- A packet of a write goes out on the lane of its command (R471, R472). -/
def State.sendPacket (s : State) (x : PWrite) (p : PPacket) : State :=
  match s.linkTo x.dev with
  | some n => s.sendRel (s.peerLane n x.tag (x.core % 2 == 1)) x.cls (x.frame p)
  | none => s

/-- The packets of a write: 128 B for a real-time command, 512 B for a best-effort one (R470). -/
def packetsOf (rt : Bool) (woff : Nat) (d : List Byte) : List PPacket :=
  let sz := if rt then 128 else 512
  let n := cdiv d.length sz
  (List.range n).map (fun i => ⟨i, woff + i * sz / 64, i + 1 == n, (d.drop (i * sz)).take sz, false, 0⟩)

/-- WIN_WRITE: into this device's window the whole write lands and is announced; toward another device its packets leave,
and the command goes on until each is answered (R187, R470); no link in UP ends it with TRANSFER (R467). -/
def winWriteEffect (core : Nat) (s : State) (f : Flight) : State × Flight :=
  let b := f.bound (s.core core).width
  let v := b.v 0
  let c := f.cmd
  let n := fld c.w3 6 6
  let dev := fld c.w3 12 2
  let woff := fld c.w5 0 20
  let notify := bit c.w3 14
  let bytes := 64 * c.granules
  if s.localRetry core b then (s.localRetried core b, f)
  else if dev ≠ s.devNum ∧ (s.linkTo dev).isNone then (s, { f with status := 0x11, bad := true })
  else
    let r := s.sramRead (v.addr core v.base) bytes
    let d := r.1.bytes (v.addr core v.base) bytes
    if r.2 then (r.1, { f with status := 0x10, bad := true })
    else if dev = s.devNum then
      match s.windowAnswer n dev c.own (64 * woff) bytes with
      | 0 =>
        let t := r.1.windowStore n (64 * woff) d
        (if notify then t.announce n woff else t, f.finish)
      | 1 => (r.1.windowRefused n c.own, { f with status := 0x0C, bad := true })
      | _ => (s.retried (s.windowAt n 0).1, f)
    else
      let x : PWrite := ⟨core, c.eng, writeTag core c.eng f.pos, dev, if f.rt then 0 else 1, n, notify, c.own,
        packetsOf f.rt woff d, false⟩
      ((x.packets.foldl (fun t p => t.sendPacket x p) { r.1 with writes := r.1.writes ++ [x] }), { f with started := true })

/-- WIN_WRITE (R187); a window being closed is shut once its last admitted write is over (R268). -/
def execWinWrite (core : Fin 24) (se : Fin 2) (s : State) : Host.Outcome State Fault Refusal :=
  .next (s.perform core (seOf se) 0x54 (winWriteEffect core)).drainWindows

/-- REMOTE_WINDOW_WRITE: a window write packet of device `dev` arrives at window `n`, granule offset `woff`; it lands only
if the window admits it, and the last packet of a write with NOTIFY is announced with the write's first granule (R269 to
R271). -/
def execRemoteWindowWrite (dev : Fin 4) (own : Fin 4) (n : Fin 64) (woff : Fin 0x100000) (first : Fin 0x100000)
    (notify last : Bool) (d : List Byte) (s : State) : Host.Outcome State Fault Refusal :=
  if d.length = 0 ∨ d.length % 64 ≠ 0 ∨ 512 < d.length then .fault .illFormed
  else .next (
    match (if s.windowClosing n then 1 else s.windowAnswer n dev own (64 * woff) d.length) with
    | 0 =>
      let t := (s.windowStore n (64 * woff) d).answer 0 []
      if notify && last then t.announce n first else t
    | 1 => (s.windowRefused n own).answer 0x12 []
    | _ => (s.retried (s.windowAt n 0).1).answer 0xF0 [])

/-! ### Handle commands (R188) -/

/-- A handle command acts at its retirement, when its pushes are made; here its four cycles end. -/
def handleEffect (core : Nat) (s : State) (f : Flight) : State × Flight :=
  if s.coreCycle core < f.issue + 4 then (s, f) else (s, f.finish)

/-- HINIT (R188). -/
def execHinit (core : Fin 24) (se : Fin 2) (s : State) : Host.Outcome State Fault Refusal :=
  .next (s.perform core (seOf se) 0x60 (handleEffect core))

/-- HMARK (R188). -/
def execHmark (core : Fin 24) (se : Fin 2) (s : State) : Host.Outcome State Fault Refusal :=
  .next (s.perform core (seOf se) 0x61 (handleEffect core))

/-- HBUMP (R188). -/
def execHbump (core : Fin 24) (se : Fin 2) (s : State) : Host.Outcome State Fault Refusal :=
  .next (s.perform core (seOf se) 0x62 (handleEffect core))

end Sys2Proof.Machine
end

