-- ==== Sys2Proof/Machine/Regions.lean ====
section
/-! DEFINITION. The owner maps (R264 to R266), the region table (R31, R32, R411 to R416), windows (R268), the SRAM scrubber
(R272 to R276), tile counters (R337) and hub unit registers without behaviour of their own (R14). -/

namespace Sys2Proof.Machine

/-- A refused configuration write is logged (R15, class CONFIG of R566). -/
def State.refuseConfig (s : State) (utype unit detail : Nat) : State := s.logEv 0x26 utype unit { detail := detail }

/-! ### Windows (R268) -/

/-- The owner-map regions of a window, as memory and region number; a window unit is two scratchpad regions or one
cluster-memory region. -/
def windowRegions (w0 : W32) : List (Nat × Nat) :=
  let m := if bit w0 5 then 24 + fld w0 0 5 else fld w0 0 5
  let per := if bit w0 5 then 1 else 2
  (List.range ((fld w0 12 6 + 1) * per)).map (fun i => (m, fld w0 6 6 * per + i))

/-- The word of an owner-map region. -/
def State.omapWord (s : State) (m r : Nat) : W32 := Tbl.get 0 s.omap (m * 64 + r)

/-- The window's unit exists and its span lies in the memory. -/
def windowFits (w0 : W32) : Bool :=
  decide (fld w0 0 5 < (if bit w0 5 then 6 else 24)) &&
    decide (fld w0 6 6 + fld w0 12 6 + 1 ≤ (if bit w0 5 then 64 else 32))

/-- Two window descriptors name a common byte. -/
def windowsMeet (v w : W32) : Bool :=
  fld v 0 6 == fld w 0 6 && decide (fld v 6 6 < fld w 6 6 + fld w 12 6 + 1) && decide (fld w 6 6 < fld v 6 6 + fld v 12 6 + 1)

/-- HQ of a window names a queue that its cluster has configured, or none. -/
def State.windowQueueOk (s : State) (w0 w1 : W32) : Bool :=
  fld w1 0 5 == 31 || (s.hq (if bit w0 5 then fld w0 0 5 else fld w0 0 5 / 4) (fld w1 0 5)).depth != 0

/-- A reserved bit of a window's words is set (R15). -/
def windowReserved (w0 w1 : W32) : Bool := fld w0 28 3 != 0 || fld w1 21 11 != 0

/-- R268: 0 where window `n` may open with these words, 0x0A where a region belongs to another owner, else 0x05. -/
def State.windowOpenStatus (s : State) (n : Nat) (w0 w1 : W32) : Nat :=
  let regs := windowRegions w0
  let foreign := regs.any (fun p => bit (s.omapWord p.1 p.2) 2 && fld (s.omapWord p.1 p.2) 0 2 != fld w0 26 2)
  let unassigned := regs.any (fun p => !bit (s.omapWord p.1 p.2) 2)
  let meets := (List.range 64).any (fun m => m != n && bit (s.win m 0) 31 && windowsMeet w0 (s.win m 0))
  if windowReserved w0 w1 || !windowFits w0 then 0x05
  else if foreign then 0x0A
  else if unassigned || meets || !s.windowQueueOk w0 w1 then 0x05 else 0

/-- A window opens with its CONFIG words; ARRIVALS restarts. -/
def State.windowOpen (s : State) (n : Nat) (w0 w1 : W32) : State :=
  let s1 := { s with wins := Tbl.set (0, 31) s.wins n (put32 w0 31 1 1, w1) }
  (s1.setO (ok (0x6200 + n) 2) 1).setO (ok (0x6200 + n) 3) 0

/-- A window is closed under R32: new writes are refused from now on, and the descriptor reads closed once every admitted
write has landed. -/
def State.windowClose (s : State) (n : Nat) : State :=
  let s1 := s.setO (ok (0x6200 + n) 2) 0
  if !bit (s1.win n 0) 31 then s1
  else if s1.windowAdmitted n = 0 then s1.windowShut n
  else { s1 with closingWins := n :: s1.closingWins.filter (fun m => m != n) }

/-! ### Owner maps (R264 to R266) -/

/-- OWNER_MAP_WRITE: OWN and VALID are written, HOLDER and CLEARING keep their values; a change of ownership starts a
clear. An open window that the change would take a region from is closed first: while admitted writes of it have still to land,
the map stays as it is and the row is sent again (R264, R268). -/
def State.ownerMapWrite (s : State) (m n : Nat) (v : W32) : State :=
  if fld v 6 26 ≠ 0 then s.refuseConfig (if m < 24 then 1 else 2) (if m < 24 then m else m - 24) n
  else
    let old := s.omapWord m n
    let lost := bit old 2 && (!bit v 2 || fld v 0 2 != fld old 0 2)
    let s1 := if lost then
        ((List.range 64).filter (fun w => bit (s.win w 0) 31 && (windowRegions (s.win w 0)).contains (m, n))).foldl
          State.windowClose s
      else s
    if ((List.range 64).any (fun w => s1.windowClosing w && (windowRegions (s1.win w 0)).contains (m, n))) && lost then s1
    else
    let w := put32 (put32 old 0 2 (fld v 0 2)) 2 1 (fld v 2 1)
    let w1 := if bit w 2 && fld w 0 2 != fld w 3 2 then put32 w 5 1 1 else w
    { s1 with omap := Tbl.set 0 s1.omap (m * 64 + n) w1 }

/-- OWNER_MAP_WRITE (R264). -/
def execOwnerMapWrite (m : Fin 30) (n : Fin 64) (v : W32) (s : State) : Host.Outcome State Fault Refusal :=
  .next (s.ownerMapWrite m n v)

/-- One region under clear becomes zero, HOLDER its owner (R266). -/
def State.clearRegion (s : State) (m n : Nat) : State :=
  let w := s.omapWord m n
  if bit w 5 then
    let s1 := s.sramClear (memBase m + n * regionUnit m) (regionUnit m)
    { s1 with omap := Tbl.set 0 s1.omap (m * 64 + n) (put32 (put32 w 3 2 (fld w 0 2)) 5 1 0) }
  else s

/-- OWNER_MAP_CLEAR_DONE: the sweep of a memory's pending clears ends (R266). -/
def execOwnerMapClearDone (m : Fin 30) (s : State) : Host.Outcome State Fault Refusal :=
  .next ((List.range 64).foldl (fun t n => t.clearRegion m n) s)

/-! ### The region table (R32, R411 to R414) -/

/-- The space of an entry's word 0 is DRAM. -/
def rgnDram (w0 : W32) : Bool := !bit w0 24

/-- The granules of an entry. -/
def rgnGranules (w0 : W32) : List Nat := (List.range (fld w0 12 12 + 1)).map (fun i => fld w0 0 12 + i)

/-- The key of a granule's holder. -/
def holderKey (dram : Bool) (g : Nat) : Nat := if dram then g else 4096 + g

/-- Two entries of one space overlap (R411). -/
def rgnsMeet (v w : W32) : Bool :=
  bit v 24 == bit w 24 && decide (fld v 0 12 ≤ fld w 0 12 + fld w 12 12) && decide (fld w 0 12 ≤ fld v 0 12 + fld v 12 12)

/-- R411: an entry may hold these words. -/
def State.rgnOk (s : State) (e : Nat) (w0 w1 : W32) : Bool :=
  let last := fld w0 0 12 + fld w0 12 12
  let limit := if rgnDram w0 then s.channels.length * 512 else 2048
  fld w1 10 22 == 0 &&
  (!bit w0 31 ||
    (decide (last < limit) &&
     !(rgnDram w0 && s.retiredPages.any (fun p => decide (fld w0 0 12 ≤ p) && decide (p ≤ last))) &&
     (List.range 64).all (fun d => d == e || !bit (s.rgn d 0) 31 || !rgnsMeet w0 (s.rgn d 0))))

/-- The change from words `o` to words `w` removes a right, or clears LOCK: it goes through the steps of R32 (R32, R414). -/
def rgnRemoves (o0 o1 w0 w1 : W32) : Bool :=
  bit o0 31 &&
    (!bit w0 31 || bit o0 24 != bit w0 24 || decide (fld o0 0 12 < fld w0 0 12) ||
     decide (fld w0 0 12 + fld w0 12 12 < fld o0 0 12 + fld o0 12 12) || fld o0 25 2 != fld w0 25 2 ||
     (bit o0 27 && !bit w0 27) || (bit o0 28 && !bit w0 28) || bit o0 30 != bit w0 30 ||
     (List.range 8).any (fun i => bit o1 i && !bit w1 i))

/-- An entry takes new words: a granule whose holder is not the new owner is to be cleared first (R413), and STATE
follows. -/
def State.rgnInstall (s : State) (e : Nat) (w0 w1 : W32) : State :=
  let own := fld w0 25 2
  let clear := bit w0 31 && (rgnGranules w0).any (fun g => Tbl.get 0 s.holders (holderKey (rgnDram w0) g) != own + 1)
  let v1 := put32 (put32 w1 8 1 0) 9 1 (b01 clear)
  let s1 := { s with rgns := Tbl.set 0 (Tbl.set 0 s.rgns (2 * e) w0) (2 * e + 1) v1
                     rgnNext := Tbl.set none s.rgnNext e none }
  s1.setO (ok (0x6100 + e) 3) (if !bit w0 31 then 0 else if clear then 1 else if bit w0 30 then 4 else 2)

/-- A change of an entry: granted at once, or, where it removes rights, the entry is marked closing and changes when the
accesses admitted have drained (R32). -/
def State.rgnChange (s : State) (e : Nat) (w0 w1 : W32) : State :=
  if rgnRemoves (s.rgn e 0) (s.rgn e 1) w0 w1 then
    let s1 := { s with rgns := Tbl.set 0 s.rgns (2 * e + 1) (put32 (s.rgn e 1) 8 1 1)
                       rgnNext := Tbl.set none s.rgnNext e (some (w0, w1, s.clk.hub)) }
    s1.setO (ok (0x6100 + e) 3) 3
  else s.rgnInstall e w0 w1

/-- REGION_ENTRY_WRITE: refused and logged where it breaks R411; the entry then keeps its value. -/
def execRegionEntryWrite (e : Fin 64) (w0 w1 : W32) (s : State) : Host.Outcome State Fault Refusal :=
  .next (if s.rgnOk e w0 w1 then s.rgnChange e w0 w1 else s.logEv 0x0C 7 0 { own := some (fld w0 25 2), detail := e.val })

/-- A valid entry is closed under R32. -/
def State.rgnDrop (s : State) (e : Nat) : State := (s.rgnChange e 0 0).setO (ok (0x6100 + e) 4) 0

/-- Step 3 of R32 for one entry: at least one hub cycle after step 1. -/
def State.rgnCloseComplete (s : State) (e : Nat) : State :=
  match Tbl.get none s.rgnNext e with
  | some w => if w.2.2 < s.clk.hub then s.rgnInstall e w.1 w.2.1 else s
  | none => s

/-- REGION_CLOSE_COMPLETE (R32). -/
def execRegionCloseComplete (e : Fin 64) (s : State) : Host.Outcome State Fault Refusal := .next (s.rgnCloseComplete e)

/-! ### ECC write-back and scrubbing (R273, R275, R276) -/

/-- ECC_WRITE_BACK: the corrected word of a memory is written back; one that a write has reached meanwhile is no longer
pending (R273). -/
def execEccWriteBack (m : Fin 31) (word : Fin 524288) (s : State) : Host.Outcome State Fault Refusal :=
  .next (
    let w := memBase m / 16 + word.val
    if Tbl.get 0 s.ecc w = 4 then { s with ecc := Tbl.set 0 s.ecc w 0 } else s)

/-- Banks of a memory (R259); hub SRAM is scrubbed as one (log 24). -/
def bankCount (m : Nat) : Nat := if m < 24 then 8 else if m < 30 then 16 else 1

/-- The pass period in ns. -/
def State.scrubPeriod (s : State) : Nat := fld s.scrubCfg 0 14 * 10000000

/-- Granules a bank of a memory has. -/
def bankGranules (m : Nat) : Nat := memSize m / 64 / bankCount m

/-- The pass of a memory ends: the next begins at the end of the period, or at once where this one was late (R276). -/
def State.scrubPassEnd (s : State) (m : Nat) : State :=
  let start := Tbl.get 0 s.scrubStart m
  let next := max s.now (start + s.scrubPeriod)
  let late := s.scrubLate.filter (fun x => x != m)
  let s1 := { s with scrubStart := Tbl.set 0 s.scrubStart m next
                     scrubPos := (List.range (bankCount m)).foldl (fun t b => Tbl.set 0 t (m * 16 + b) 0) s.scrubPos
                     scrubLate := late }
  s1.settle

/-- The memory is in retention: the scrubber skips it (R596). -/
def State.retained (s : State) (m : Nat) : Bool :=
  decide (m < 30) && s.stopped (if m < 24 then m / 4 else m - 24)

/-- SCRUB_ATOM: the scrubber reads the next granule of a bank; the pass ends when every bank has been read (R275). -/
def execScrubAtom (m : Fin 31) (bank : Fin 16) (s : State) : Host.Outcome State Fault Refusal :=
  .next (
    let pos := Tbl.get 0 s.scrubPos (m.val * 16 + bank.val)
    if bankCount m ≤ bank.val ∨ bit s.scrubCfg 14 = false ∨ bankGranules m ≤ pos ∨ s.now < Tbl.get 0 s.scrubStart m ∨
        s.retained m = true then s
    else
      let a := memBase m + (pos * bankCount m + bank.val) * 64
      let s1 := (s.sramRead a 64).1
      let s2 := { s1 with scrubPos := Tbl.set 0 s1.scrubPos (m.val * 16 + bank.val) (pos + 1) }
      if (List.range (bankCount m)).all (fun b => Tbl.get 0 s2.scrubPos (m.val * 16 + b) == bankGranules m) then
        s2.scrubPassEnd m
      else s2)

/-- SCRUB_LATE: a memory's pass has not finished within its period; it continues (R276). -/
def execScrubLate (m : Fin 31) (s : State) : Host.Outcome State Fault Refusal :=
  .next (
    if s.now < Tbl.get 0 s.scrubStart m + s.scrubPeriod ∨ s.retained m = true ∨ s.scrubLate.contains m.val = true ∨ bit s.scrubCfg 14 = false then s
    else (({ s with scrubLate := m.val :: s.scrubLate }).settle).event 0x087 m 1)

/-! ### Tile counters and plain registers -/

/-- TILE_CLAIM: CLAIM returns NEXT and increments it below LIMIT, else 0xFFFF_FFFF (R337). -/
def execTileClaim (k : Fin 6) (t : Fin 4) (s : State) : Host.Outcome State Fault Refusal :=
  .next (
    let x := s.cluster k
    let next := fld (Tbl.get 0 x.tiles (t.val * 2)) 0 24
    let w1 := Tbl.get 0 x.tiles (t.val * 2 + 1)
    if bit w1 31 && decide (next < fld w1 0 24) then
      (s.setCluster k { x with tiles := Tbl.set 0 x.tiles (t.val * 2) (BitVec.ofNat 32 (next + 1)) }).answer 0 (leBytes 4 next)
    else s.answer 0 (leBytes 4 0xFFFFFFFF))

/-- The reserved bits of a register's word are written 0 (R15). -/
def regWordOk (r : HubReg) (v : W32) : Bool :=
  match r with
  | .view _ _ w => w.val != 1 || !bit v 30
  | .geo _ _ w => if w.val = 5 then fld v 14 17 == 0 else if w.val = 7 then v == 0 else true
  | .sdesc _ _ _ => true
  | .slot _ _ _ _ => true
  | .framePeriod _ => decide (15625 ≤ v.toNat) && decide (v.toNat ≤ 125000)
  | .ctxClass _ _ => true
  | .ctxEn _ _ => true
  | .ctxRst _ _ => true
  | .rtHold _ _ _ => true
  | .rngSeed _ _ _ => true
  | .scale _ _ _ w => if w.val = 1 then fld v 6 10 == 0 else if w.val = 3 then fld v 22 2 == 0 else true
  | .ctxTab _ => fld v 6 26 == 0
  | .tile _ _ w => if w.val = 0 then fld v 24 8 == 0 else if w.val = 1 then !bit v 30 else true
  | .scrubCfg => fld v 15 17 == 0 && decide (1 ≤ fld v 0 14) && decide (fld v 0 14 ≤ 1000)

/-- Half `w` of a 64-bit map of contexts. -/
def putHalf (x : W64) (w : Nat) (v : W32) : W64 := BitVec.ofNat 64 (nput x.toNat (32 * w) 32 v.toNat)

/-- The register takes the word (R14); CLAIM is read-only, and its write is ignored. A context whose CTXRST bit is set no
longer holds an engine that a watchdog stopped (R149). -/
def State.regPut (s : State) (r : HubReg) (v : W32) : State :=
  match r with
  | .view c n w => s.setCore c { s.core c with views := Tbl.set 0 (s.core c).views (n.val * 4 + w.val) v }
  | .geo c n w => s.setCore c { s.core c with geos := Tbl.set 0 (s.core c).geos (n.val * 8 + w.val) v }
  | .sdesc c n w => s.setCore c { s.core c with sdescs := Tbl.set 0 (s.core c).sdescs (n.val * 10 + w.val) v }
  | .slot c e b n =>
    let y := s.engine c (engCode e)
    s.setEngine c (engCode e) { y with slots := Tbl.set 0 y.slots (b.val * 16 + n.val) v }
  | .framePeriod c => s.setCore c { s.core c with framePeriod := v.toNat }
  | .ctxClass c w => s.setCore c { s.core c with ctxClass := putHalf (s.core c).ctxClass w v }
  | .ctxEn c w => s.setCore c { s.core c with ctxEn := putHalf (s.core c).ctxEn w v }
  | .ctxRst c w =>
    let x := { s.core c with ctxRst := putHalf (s.core c).ctxRst w v }
    s.setCore c (x.mapEngines (fun _ y => { y with hung := y.hung &&& ~~~ x.ctxRst }))
  | .rtHold c b n => s.setCore c { s.core c with rtHold := Tbl.set 0 (s.core c).rtHold (b.val * 8 + n.val) v }
  | .rngSeed c n w => s.setCore c { s.core c with seeds := Tbl.set 0 (s.core c).seeds (2 * n.val + w.val) v }
  | .scale c b ch w =>
    s.setCore c { s.core c with scales := Tbl.set 0 (s.core c).scales ((b.val * 2048 + ch.val) * 4 + w.val) v }
  | .ctxTab n => { s with ctxTab := Tbl.set 0 s.ctxTab n v }
  | .tile k t w =>
    if w.val = 2 then s
    else s.setCluster k { s.cluster k with tiles := Tbl.set 0 (s.cluster k).tiles (t.val * 2 + w.val) v }
  | .scrubCfg => { s with scrubCfg := v }

/-- REGISTER_WRITE (R14, R15): a word with a reserved bit set or a value outside its range is refused and logged. -/
def execRegisterWrite (r : HubReg) (v : W32) (s : State) : Host.Outcome State Fault Refusal :=
  .next (if regWordOk r v then s.regPut r v else s.refuseConfig 7 0 0)

end Sys2Proof.Machine
end

