-- ==== Sys2Proof/Machine/Loop.lean ====
section
/-! DEFINITION. The Thyme frame: the frame timer and its SYNC ticks, device-time discipline, staging, ingress, egress and
the availability account (R46 to R49, R299 to R317, R370 to R373, R456 to R458). -/

namespace Sys2Proof.Machine

/-! ### Configuration -/

/-- FRAME_PERIOD_NS. -/
def State.period (s : State) : Nat := s.o 0x400002
/-- DEADLINE_NS. -/
def State.deadline (s : State) : Nat := s.o 0x400003
/-- INGRESS_CLOSE_NS. -/
def State.ingressClose (s : State) : Nat := s.o 0x400004
/-- FRAME_COUNTER: the number of the current frame. -/
def State.frame (s : State) : Nat := s.o 0x400007
/-- The number after a frame number. -/
def nextFrame (f : Nat) : Nat := (f + 1) % 2 ^ 32

/-- t_SYW of R317, in ns. -/
def tSyw : Nat := 500

/-- The enabled streams, ascending. -/
def State.streams (s : State) : List Nat := (List.range 32).filter (fun n => s.o (streamObj n 1) == 1)

/-- GROUP of a stream. -/
def State.groupOf (s : State) (n : Nat) : Nat := s.o (streamObj n 2)

/-- The streams of a group. -/
def State.streamsOf (s : State) (g : Nat) : List Nat := s.streams.filter (fun n => s.groupOf n == g)

/-- R304: the groups in use, ascending. -/
def State.groupsInUse (s : State) : List Nat := (List.range 8).filter (fun g => !(s.streamsOf g).isEmpty)

/-- Frame `f` is a due frame of stream `n`. -/
def State.isDue (s : State) (n f : Nat) : Bool :=
  ((f : Int) - (s.o (streamObj n 4) : Int)) % (max 1 (s.o (streamObj n 3)) : Nat) == 0

/-- The state with the loop's record changed. -/
def State.withLoop (s : State) (f : Loop → Loop) : State := { s with loop := f s.loop }

/-- Number and start of the last frame: of the one that runs, or the last before SYNC was lost or the loop restarted (R313). -/
def State.lastFrame (s : State) : Option (Nat × Nat) :=
  match s.loop.start, s.loop.lastStart with
  | some t, _ => some (s.frame, t)
  | none, some r => some r
  | none, none => s.loop.resumeFrom

/-- The prediction of the next frame's start (R301). -/
def State.prediction (s : State) : Option Nat :=
  s.loop.start.map (fun t => ((t + s.period : Nat) + s.loop.corr : Int).toNat)

/-- The frame whose ingress close is the next to come (R305); none outside RUN and FLYWHEEL. -/
def State.closeFrame (s : State) : Option Nat :=
  if s.loopRuns && s.loop.start.isSome then some (if s.loop.closed then nextFrame s.frame else s.frame) else none

/-! ### Staging (R305, R450) -/

/-- The sample staged for a stream. -/
def State.stagedOf (s : State) (n : Nat) : Option Staged := Tbl.get none s.loop.staged n

/-- A sample takes the stream's place in staging; one that stood there is superseded. -/
def State.putStaged (s : State) (n : Nat) (x : Staged) : State :=
  let s1 := if (s.stagedOf n).isSome then s.incO (streamObj n 0xB) 1 else s
  s1.withLoop (fun l => { l with staged := Tbl.set none l.staged n (some x) })

/-- A sample is discarded and counted in LATE. -/
def State.lateSample (s : State) (n : Nat) : State := s.incO (streamObj n 0xA) 1

/-- R305: one sample of stream `n` that has fully arrived. -/
def State.stage (s : State) (n : Nat) (x : Staged) : State :=
  match s.closeFrame with
  | none => if s.o 0x400006 = 1 ∨ s.o 0x400006 = 4 then s.putStaged n x else s.lateSample n
  | some f =>
    if x.tag = f % 2 ^ 16 ∧ s.isDue n f = true then
      if s.loop.superseded.contains n then s.lateSample n else s.putStaged n x
    else if x.tag = (f + 1) % 2 ^ 16 ∧ s.isDue n (nextFrame f) = true then
      let hit := (s.stagedOf n).any (fun y => y.tag == f % 2 ^ 16)
      (s.putStaged n x).withLoop (fun l =>
        { l with superseded := if hit && !l.superseded.contains n then n :: l.superseded else l.superseded })
    else s.lateSample n

/-- R450, R458: one sample record that arrived on an accepted or another link. -/
def State.sampleRecord (s : State) (accepted : Bool) (n tag : Nat) (d : List Byte) : State :=
  if accepted && s.o (streamObj n 1) == 1 && s.o (streamObj n 8) == 0 && d.length == s.o (streamObj n 6) then
    s.stage n ⟨tag, d⟩
  else s.lateSample n

/-- The records of a SAMPLES payload, in order: stream, tag and sample bytes. -/
def sampleRecords : Nat → List Byte → List (Nat × Nat × List Byte)
  | 0, _ => []
  | k + 1, l =>
    if l.length < 8 then []
    else
      let n := nfld (wordAt l 4) 0 11
      (nfld (wordAt l 0) 16 5, nfld (wordAt l 0) 0 16, (l.drop 8).take n) ::
        sampleRecords k (l.drop (8 + cdiv n 8 * 8))

/-! ### Device time (R371 to R373) -/

/-- The reset value of INC. -/
def incNominal : Nat := 0x29AAAAAAAB

/-- A fraction rounded to the nearest integer, ties to even. -/
def roundDiv (n d : Nat) : Nat :=
  let q := n / d
  let r := n % d
  if 2 * r < d then q else if d < 2 * r then q + 1 else q + q % 2

/-- R372: INC after a tick that came `pm` ns after the one before: inc × (1 − rel / 16), clamped to 250 ppm about the reset
value and rounded to a 32.32 value. The product carries a relative error of `e` × 2^-60, from −2^-40 to 2^-40 (log 171). -/
def nextInc (inc pm period : Nat) (e : Int) : Nat :=
  let num := inc * (17 * period - pm) * ((2 : Int) ^ 60 + e).toNat
  let den := 16 * period * 2 ^ 60
  if num * 4000 < incNominal * 3999 * den then roundDiv (incNominal * 3999) 4000
  else if incNominal * 4001 * den < num * 4000 then roundDiv (incNominal * 4001) 4000
  else roundDiv num den

/-- TRIM_PPB: (INC / reset value − 1) × 10^9; which of the two integers about an inexact value is shown is free
(log 25). -/
def State.showTrim (s : State) : State :=
  let d : Int := ((s.clk.inc : Int) - incNominal) * 1000000000
  let q := d / (incNominal : Int)
  let (v, s1) := s.fresh
  s1.setO 0x500003 (trunc 32 (if d % (incNominal : Int) = 0 then q else q + (v % 2 : Nat)))

/-- The relative error of the arithmetic of INC, in 2^-60: any of magnitude 2^-40 or less (R372). -/
def incError (v : Nat) : Int := (v % (2 ^ 21 + 1) : Nat) - 2 ^ 20

/-- R372, R373: a tick accepted now disciplines the rate of device time. -/
def State.discipline (s : State) : State :=
  let s0 := (s.setO 0x500004 s.now).withLoop (fun l => { l with lastTick := some s.now })
  match s.loop.lastTick with
  | none => s0
  | some t =>
    let pm := s.now - t
    let p := s.period
    if p + 2 * tSyw < pm ∨ pm + 2 * tSyw < p then s0.withLoop (fun l => { l with goodTicks := 0 })
    else
      let dev := if pm < p then p - pm else pm - p
      let n := if dev * 2000000 < p then s.loop.goodTicks + 1 else 0
      let z := s0.fresh
      let s1 := ({ z.2 with clk := { z.2.clk with inc := nextInc z.2.clk.inc pm p (incError z.1) } }).withLoop
        (fun l => { l with goodTicks := n })
      let st := s1.o 0x500002
      let st1 := if st = 0 ∨ st = 3 then 1 else st
      (s1.setO 0x500002 (if st1 = 1 ∧ 256 ≤ n then 2 else st1)).showTrim

/-- The loop leaves RUN and FLYWHEEL for a LOOP_STATE: HOLDOVER after LOCKING or LOCKED (R373); no frame runs. -/
def State.leaveRun (s : State) (st : Nat) : State :=
  let t := (s.setO 0x400006 st).withLoop (fun l =>
    { l with start := none, lastTick := none, goodTicks := 0
             lastStart := match l.start with | some t => some (s.frame, t) | none => l.lastStart })
  if s.o 0x500002 = 1 ∨ s.o 0x500002 = 2 then t.setO 0x500002 3 else t

/-! ### Frame start (R299, R301, R457, R557) -/

/-- An error clamped to t_SLEW. -/
def clampSlew (e : Int) : Int := if e < -8 then -8 else if 8 < e then 8 else e

/-- A frame `f` starts at device time `t`: nothing of it has happened yet; failover triggers of the frame before take
effect, sensor lanes in UP are owed a TIME frame, and groups that return count the start. -/
def State.beginFrame (s : State) (f t : Nat) (early : Option Int) (first : Bool) : State :=
  (s.setO 0x400007 f).withLoop (fun l =>
    { l with
      start := some t
      corr := (early.map clampSlew).getD 0
      accepted := early.isSome || first
      settled := early.isSome || first
      early := none
      missed := if early.isSome || first then 0 else l.missed
      flywheel := false
      closed := false
      sent := false
      firstFrame := first
      members := []
      groups := []
      standbyOk := l.standbyEarly
      standbyEarly := false
      switchNow := l.switchDue
      timeOwed := [4, 5].filter (fun i => s.laneUp i)
      returning := l.returning.map (fun e => (e.1, e.2.map (fun n => n + 1))) })

/-- A free egress handle of generation `gen` for a group (R309). -/
def State.pushFree (s : State) (g gen : Nat) : State := s.push hubUnit (4 * g + 3) (mkHandle 0 gen 0 false false false) (.local_ none)

/-- The ingress unit's one ingress handle of a group (R306). -/
def State.pushIngress (s : State) (g : Nat) : State :=
  s.push hubUnit (4 * g + 1) (mkHandle 0 0 0 false false false) .created

/-- Samples staged while no frame existed are handled once, in the frame that starts (R305). -/
def State.restage (s : State) : State :=
  s.loop.staged.foldl (fun t e => match e.2 with
    | some x => t.stage e.1 x
    | none => t) (s.withLoop (fun l => { l with staged := [], superseded := [], evaluated := [] }))

/-- R301, R303, R313: a tick locks the loop: frame `f` starts at its arrival. From WAIT_SYNC each group in use receives its
free egress handle; after SYNC_LOST or a package reset the first result of every stream carries RESUMED (R312). -/
def State.lock (s : State) (f : Nat) : State :=
  let relock := s.o 0x400006 == 4 || s.loop.resumeFrom.isSome || s.loop.resetSince
  let starts := s.o 0x400006 == 1
  let s1 := (s.setO 0x400006 2).beginFrame f s.now none true
  let s2 := s1.withLoop (fun l =>
    { l with resumed := if relock then s.streams else l.resumed, resumeFrom := none, resetSince := false, lastTick := none, failMiss := 0 })
  let s3 := if starts then s2.groupsInUse.foldl (fun t g => if t.o (groupObj g 9) = 1 then (t.pushIngress g).pushFree g (f % 4096) else t) s2 else s2
  let s4 := { s3 with boot := { s3.boot with resetOpen := false } }
  s4.discipline.restage.settle

/-- The hub queues and groups of a loop that stops (R308). -/
def State.clearLoopQueues (s : State) : State :=
  (List.range 8).foldl (fun t g =>
    ((List.range 4).foldl (fun t i =>
      t.setHq hubUnit (4 * g + i) { t.hq hubUnit (4 * g + i) with items := [], occ := 0 }) t).setO (groupObj g 9) 0) s

/-- The bits of a context in CORE.CTXRST are set or cleared on every core of its CORE_MASK (R553, R557); a set bit ends the
hold of an expired watchdog (R149). -/
def State.setCtxRst (s : State) (n : Nat) (v : Bool) : State :=
  (s.ctxCores n).foldl (fun t c =>
    let x := { t.core c with ctxRst := putBit64 (t.core c).ctxRst n v }
    t.setCore c (if v then x.mapEngines (fun _ y => { y with hung := putBit64 y.hung n false }) else x)) s

/-- The contexts that wait for their return frame. -/
def State.returningCtxs (s : State) : List Nat :=
  (s.loop.returning.filter (fun e => decide (8 ≤ e.1) && e.2.isSome)).map (fun e => e.1 - 8)

/-- What outlives a stop or a restart of the loop: the last frame that sent results, and the availability account (R46 to
R49, R303). -/
def Loop.kept (l : Loop) : Loop :=
  { Loop.reset with lastSent := l.lastSent, down := l.down, outageLen := l.outageLen, lastGood := l.lastGood,
                    spansReset := l.spansReset, resetSince := l.resetSince, svcSince := l.svcSince,
                    downSince := l.downSince, faultRuns := l.faultRuns, cause := l.cause }

/-- The loop stops: OFF, hub queues cleared, groups OFF; the bits of contexts that waited for a return frame are cleared
(R308, R557). -/
def State.stopLoop (s : State) : State :=
  let t := ((s.returningCtxs.foldl (fun u n => u.setCtxRst n false) s).clearLoopQueues.leaveRun 0).withLoop (fun l =>
    { l.kept with spansReset := false, resetSince := false, modelsReady := l.modelsReady, switchDue := l.switchDue })
  t.settle

/-- R302: the frame whose tick has not been accepted is a flywheel frame, or the loop enters SYNC_LOST; as no frame starts
then, a loop that is being stopped stops (R308). -/
def State.settleFrame (s : State) : State :=
  let miss := if s.o 0x710001 = 1 ∧ s.loop.standbyOk = true then s.loop.failMiss + 1 else 0
  let s1 := (s.incO 0x40000B 1).withLoop (fun l =>
    { l with
      settled := true
      missed := l.missed + 1
      flywheel := true
      failMiss := miss
      switchDue := l.switchDue || (decide (s.o 0x710003 ≤ miss) && s.o 0x710001 == 1 && s.o 0x710002 == 0) })
  if s.o 0x400005 + 1 ≤ s1.loop.missed then (if s1.loop.stopping then s1.stopLoop else (s1.leaveRun 4).settle) else (s1.setO 0x400006 3).settle

/-- The frame is settled where its tick is missing and the window has closed. -/
def State.settleDue (s : State) : State :=
  match s.loop.start with
  | some t => if s.loopRuns && !s.loop.settled && decide (t + tSyw ≤ s.now) then s.settleFrame else s
  | none => s

/-- SYNC_WINDOW_CLOSE (R302). -/
def execSyncWindowClose (s : State) : Host.Outcome State Fault Refusal := .next s.settleDue

/-- FRAME_START: the frame timer fires at the prediction (R301); a loop that is being stopped stops here (R308). -/
def execFrameStart (s : State) : Host.Outcome State Fault Refusal :=
  .next (
    match s.prediction with
    | none => s
    | some p =>
      if ¬ s.loopRuns = true ∨ s.now < p then s
      else
        let s1 := s.settleDue
        if ¬ s1.loopRuns = true then s1
        else if s1.loop.stopping then s1.stopLoop
        else
          let e := s1.loop.early
          let s2 := s1.beginFrame (nextFrame s1.frame) p e false
          (if e.isSome then (s2.setO 0x400006 2).withLoop (fun l => { l with failMiss := 0 }) else s2).settle)

/-! ### SYNC (R301 to R303, R313, R456 to R458) -/

/-- A tick is ignored and counted (R302). -/
def State.ignoreTick (s : State) (link : Nat) : State := (s.incO 0x40000A 1).logEv 0x1C 5 link {}

/-- A drive link is owed a NOT_READY frame (R456). -/
def State.oweNotReady (s : State) (link : Nat) : State :=
  s.withLoop (fun l => { l with notReadyOwed := if l.notReadyOwed.contains link then l.notReadyOwed else link :: l.notReadyOwed })

/-- `a` lies within `w` of `b`. -/
def within (w a b : Nat) : Bool := decide (a ≤ b + w) && decide (b ≤ a + w)

/-- A tick of a running loop: it is accepted for the current frame or for the next, or ignored. -/
def State.runTick (s : State) (link f : Nat) (start pred : Nat) : State :=
  if within tSyw s.now start && !s.loop.firstFrame then
    if f ≠ s.frame then s.ignoreTick link
    else if s.loop.accepted || s.loop.settled then s
    else
      (((s.setO 0x400006 2).withLoop (fun l =>
        { l with accepted := true, settled := true, missed := 0, failMiss := 0,
                 corr := clampSlew ((s.now : Int) - start) })).discipline).settle
  else if within tSyw s.now pred then
    if f ≠ nextFrame s.frame then s.ignoreTick link
    else if s.loop.early.isSome then s
    else (s.withLoop (fun l => { l with early := some ((s.now : Int) - pred) })).discipline
  else s.ignoreTick link

/-- R313: the number that the device time elapsed since the last frame start gives. -/
def State.resumeNumber (s : State) (r : Nat × Nat) : Nat := (r.1 + roundDiv (s.now - r.2) (max 1 s.period)) % 2 ^ 32

/-- A SYNC tick on the main host link. RFC 1982 does not order two numbers 2^31 apart: whether such a tick locks a loop in
SYNC_LOST is free (log 165). -/
def State.mainTick (s : State) (link f : Nat) : State :=
  match s.o 0x400006 with
  | 1 =>
    if !s.loop.modelsReady then s.oweNotReady link
    else match s.loop.resumeFrom with
      | none => s.lock f
      | some r => if f = s.resumeNumber r then s.lock f else (s.ignoreTick link).oweNotReady link
  | 4 =>
    if s.loop.lastSent.all (fun l => f != l && serialGe 32 f l) then s.lock f
    else if s.loop.lastSent.any (fun l => f == (l + 2 ^ 31) % 2 ^ 32) && s.fresh.1 % 2 == 1 then s.fresh.2.lock f
    else (s.ignoreTick link).oweNotReady link
  | _ =>
    match s.loopRuns, s.loop.start, s.prediction with
    | true, some t, some p => s.runTick link f t p
    | _, _, _ => s.oweNotReady link

/-- A SYNC tick on the standby link, used only for the trigger of R457; with a failover due at the next frame start, the tick
of that frame is the first of the new main link (R458). -/
def State.standbyTick (s : State) (link f : Nat) : State :=
  match s.loopRuns, s.loop.start, s.prediction with
  | true, some t, some p =>
    if within tSyw s.now t then
      if f = s.frame then s.withLoop (fun l => { l with standbyOk := true }) else s.ignoreTick link
    else if within tSyw s.now p then
      if f ≠ nextFrame s.frame then s.ignoreTick link
      else
        let t := s.withLoop (fun l => { l with standbyEarly := true })
        if s.loop.switchDue && s.loop.early.isNone then
          (t.withLoop (fun l => { l with early := some ((s.now : Int) - p) })).discipline
        else t
    else s
  | _, _, _ => s.oweNotReady link

/-- The main host link (R457). -/
def State.mainLink (s : State) : Nat := s.o 0x710002

/-- A SYNC frame on DL0 or DL1. -/
def State.onSync (s : State) (link f : Nat) : State :=
  if link = s.mainLink then s.mainTick link f
  else if s.o 0x710001 = 1 then s.standbyTick link f
  else if s.loopRuns then s else s.oweNotReady link

/-- SAMPLES are accepted from the main link; from the standby while the main lane is not UP or the frame is a flywheel frame
(R458). -/
def State.takesSamples (s : State) (link : Nat) : Bool :=
  link == s.mainLink || (s.o 0x710001 == 1 && (!s.laneUp s.mainLink || s.loop.flywheel))

/-- A SAMPLES frame on DL0 or DL1: its records in order (R305, R450). -/
def State.onSamples (s : State) (link : Nat) (d : List Byte) : State :=
  let t := (sampleRecords 1024 d).foldl (fun t r => t.sampleRecord (s.takesSamples link) r.1 r.2.1 r.2.2) s
  if s.o 0x400006 = 0 ∨ (s.o 0x400006 = 1 ∧ s.loop.modelsReady = false) then t.oweNotReady link else t

/-- R456, R612: the reason of a NOT_READY frame: 5 in a package reset, 1 until the full dictionary is served, 2 until the
pinned images are loaded, then 4 where admission has failed and 3 otherwise while the loop is not enabled. For an enabled
loop that has lost SYNC the spec names none of its reasons: the reason is free. -/
def State.notReadyReason (s : State) : Nat × State :=
  if s.boot.resetOpen then (5, s)
  else if !s.boot.up then (1, s)
  else if !s.reloads.isEmpty then (2, s)
  else if s.o 0x1F2002 = 3 then (3, s)
  else if s.o 0x400001 = 0 then (if 2 ≤ s.o 0x400008 then 4 else 3, s)
  else let (v, t) := s.fresh; (v % 5 + 1, t)

/-- KiB of pinned images that wait for their reload. -/
def State.reloadKib (s : State) : Nat :=
  cdiv ((s.reloads.map (fun k => ((Tbl.get none s.pins k).map (fun l => l.length)).getD 0)).sum) 1024

/-- R612: READY_IN_US. Elapsed time is device time plus t_POR as measured, a free value; an image is reloaded and measured
in one step, so that one that waits is in both amounts. The spec gives no estimate for reasons 4 and 5: a free value. -/
def State.readyIn (s : State) (reason : Nat) : Nat × State :=
  let (v, t) := s.fresh
  match reason with
  | 1 =>
    let us := (s.now + v) / 1000
    (if 120000 ≤ us then 0xFFFFFFFF else 120000 - us, t)
  | 2 => (min 0xFFFFFFFF (cdiv (3000 * s.reloadKib) 1024 + cdiv (2000 * s.reloadKib) 1024 + 10000), s)
  | 3 => (0xFFFFFFFF, s)
  | _ => (v % 2 ^ 32, t)

/-- NOT_READY: a frame that no RESULTS frame answers is answered, at most once per 100 µs and link (R456). -/
def execNotReady (link : Fin 2) (s : State) : Host.Outcome State Fault Refusal :=
  .next (
    if ¬ s.loop.notReadyOwed.contains link.val = true then s
    else
      let s0 := s.withLoop (fun l => { l with notReadyOwed := l.notReadyOwed.filter (fun x => x != link.val) })
      let last := Tbl.get 0 s.notReadyAt link
      if (last ≠ 0 ∧ s.now + 1 < last + 100000) ∨ ¬ s.laneUp link = true then s0
      else
        let (r, s1) := s0.notReadyReason
        let (v, s2) := s1.readyIn r
        let s3 := s2.transmit link 0x04 (leBytes 4 v ++ leBytes 4 (r + s.o 0x1F1001 * 2 ^ 8))
        ({ s3 with notReadyAt := Tbl.set 0 s3.notReadyAt link (s.now + 1) }).incO (ok (0x7110 + link) 7) 1)

/-- FAILOVER: at the frame start after a trigger the main host link becomes the other of DL0 and DL1 (R457); while no frame
runs, at once (log 174). -/
def execFailover (s : State) : Host.Outcome State Fault Refusal :=
  .next (
    if s.loop.switchDue && (s.loop.switchNow || !s.loopRuns) then
      (((s.setO 0x710002 (1 - s.mainLink)).incO 0x710005 1).setO 0x710006 s.now).withLoop (fun l =>
        { l with switchDue := false, switchNow := false, failMiss := 0, standbyOk := false, standbyEarly := false })
    else s)

/-! ### Ingress close (R306 to R308) -/

/-- The state of a member for frame `f` (R307): 0 FRESH, 1 LATE, 2 SUPERSEDED, 3 NOT_DUE. -/
def State.memberState (s : State) (n f : Nat) : Nat :=
  if !s.isDue n f then 3
  else if (s.stagedOf n).any (fun x => x.tag == f % 2 ^ 16) then 0
  else if s.loop.superseded.contains n then 2
  else 1

/-- The streams of a group whose member state satisfies a test. -/
def State.membersIn (s : State) (g f : Nat) (p : Nat → Bool) : List Nat :=
  (s.streamsOf g).filter (fun n => p (s.memberState n f))

/-- A mask with the MEMBER bits of some streams. -/
def State.memberMask (s : State) (l : List Nat) : Nat := l.foldl (fun m n => nput m (s.o (streamObj n 5)) 1 1) 0

/-- The ingress buffer of a group for frame `f`: its header and 32 rows. -/
def State.ingressImage (s : State) (g f : Nat) : List Byte :=
  let row := s.o (groupObj g 2)
  let head := leBytes 4 f ++ leBytes 4 (s.memberMask (s.membersIn g f (fun v => v == 0))) ++
    leBytes 4 (s.memberMask (s.membersIn g f (fun v => v == 1))) ++
    leBytes 4 (s.memberMask (s.membersIn g f (fun v => decide (2 ≤ v)))) ++
    leBytes 8 (s.loop.start.getD 0) ++ List.replicate 40 0
  let rowOf (m : Nat) : List Byte :=
    match (s.membersIn g f (fun v => v == 0)).find? (fun n => s.o (streamObj n 5) == m) with
    | some n => let d := (((s.stagedOf n).map (fun x => x.data)).getD []).take row
                d ++ List.replicate (row - d.length) 0
    | none => List.replicate row 0
  head ++ ((List.range 32).map rowOf).flatten

/-- What a group's frame holds. -/
def State.groupFrame (s : State) (g : Nat) : GroupFrame := Tbl.get GroupFrame.reset s.loop.groups g

/-- The state with a group's frame replaced. -/
def State.setGroupFrame (s : State) (g : Nat) (x : GroupFrame) : State :=
  s.withLoop (fun l => { l with groups := Tbl.set GroupFrame.reset l.groups g x })

/-- The ingress close of one group: its handle popped, its buffer written and the handle pushed on; or its frame is lost. -/
def State.closeGroup (f : Nat) (s : State) (g : Nat) : State :=
  let fresh := s.membersIn g f (fun v => v == 0)
  let late := s.membersIn g f (fun v => v == 1)
  let image := s.ingressImage g f
  let s1 := (s.streamsOf g).foldl (fun t n =>
    t.withLoop (fun l => { l with members := Tbl.set none l.members n (some ⟨s.memberState n f, f % 2 ^ 16⟩) })) s
  let s2 := fresh.foldl (fun t n => t.withLoop (fun l => { l with staged := Tbl.set none l.staged n none })) s1
  let s3 := s2.trace 6 g 7 none 1 (fresh.length + late.length * 2 ^ 8)
  if s.ready hubUnit (4 * g + 1) = 0 then (s3.incO (groupObj g 0xA) 1).setGroupFrame g { s3.groupFrame g with lost := true }
  else
    let invalid := fresh.isEmpty && !late.isEmpty
    let s4 := (s3.pop hubUnit (4 * g + 1) 1 0).2.sramWrite (hubAddr (s.o (groupObj g 1))) image
    (s4.push hubUnit (4 * g) (mkHandle 0 (f % 4096) 0 false (fresh.isEmpty && late.isEmpty) invalid) (.local_ none)).setGroupFrame g
      { s4.groupFrame g with inInvalid := invalid }

/-- INGRESS_CLOSE: at INGRESS_CLOSE_NS every group in use is processed, ascending (R306). -/
def execIngressClose (s : State) : Host.Outcome State Fault Refusal :=
  .next (
    match s.loop.start with
    | none => s
    | some t =>
      if ¬ s.loopRuns = true ∨ s.loop.closed = true ∨ s.now < t + s.ingressClose then s
      else
        ((s.groupsInUse.filter (fun g => s.o (groupObj g 9) != 0)).foldl (State.closeGroup s.frame) s).withLoop (fun l =>
          { l with closed := true, superseded := [], evaluated := [] }))

/-! ### Egress (R309 to R312) -/

/-- The frame for which an egress handle that arrives now is handled (R309). -/
def State.egressFrame (s : State) : Nat := if s.loop.closed then s.frame else (s.frame + 2 ^ 32 - 1) % 2 ^ 32

/-- An egress handle that arrives now may be used. -/
def State.usesHandle (s : State) (g : Nat) (h : W32) : Bool :=
  match s.loop.start with
  | some t =>
    s.loopRuns && s.loop.closed && decide (t + s.ingressClose < s.now) && decide (s.now + 150 ≤ t + s.deadline) &&
      hGen h == s.frame % 4096 && (s.groupFrame g).used.isNone
  | none => false

/-- EGRESS_HANDLE_ARRIVAL: the handle in hub queue 4g + 2 is used, its group's egress buffer copied to the transmit store, or
counted stale; it goes back to hub queue 4g + 3 for the next frame (R309). A buffer that cannot be read whole is not
copied. -/
def execEgressHandleArrival (g : Fin 8) (s : State) : Host.Outcome State Fault Refusal :=
  .next (
    match s.pop hubUnit (4 * g + 2) 1 0 with
    | ([h], s1) =>
      let a := hubAddr (s.o (groupObj g 3))
      let n := 32 * s.o (groupObj g 4)
      let back (t : State) : State := t.push hubUnit (4 * g + 3) (mkHandle (hBidx h) (s.egressFrame + 1) (hOwn h) false false false) (.local_ none)
      if s.usesHandle g h then
        let r := s1.sramRead a n
        if r.2 then back (r.1.incO (groupObj g 0xB) 1)
        else back (r.1.setGroupFrame g { r.1.groupFrame g with used := some h, store := r.1.bytes a n })
      else back (s1.incO (groupObj g 0xB) 1)
    | _ => s)

/-- Status codes of R310. -/
def stValid : Nat := 0
def stSkipped : Nat := 1
def stLate : Nat := 2
def stFault : Nat := 3

/-- The status of a stream's result (R310). -/
def State.resultStatus (s : State) (n : Nat) : Nat :=
  let g := s.groupOf n
  let x := s.groupFrame g
  let m := ((Tbl.get none s.loop.members n).map (fun y => y.state)).getD 1
  match x.used with
  | none => stFault
  | some h =>
    if s.o (groupObj g 9) = 2 then stFault
    else if hInvalid h && !x.inInvalid then stFault
    else if m = 1 then stLate
    else if 2 ≤ m then stSkipped
    else if hSkip h then stSkipped
    else stValid

/-- The record of a stream's result, padded to a multiple of 8 bytes (R310, R451). -/
def State.resultRecord (s : State) (n : Nat) : List Byte :=
  let g := s.groupOf n
  let st := s.resultStatus n
  let len := s.o (streamObj n 7)
  let pay := if st = stValid then (((s.groupFrame g).store.drop (s.o (streamObj n 5) * s.o (groupObj g 4))).take len)
    else List.replicate len 0
  let head := leBytes 4 s.frame ++ leBytes 4 (s.frame % 2 ^ 16 + n * 2 ^ 16 + st * 2 ^ 21 +
    b01 (s.loop.resumed.contains n) * 2 ^ 23 + b01 s.loop.flywheel * 2 ^ 24)
  let r := head ++ pay
  r ++ List.replicate (cdiv r.length 8 * 8 - r.length) 0

/-- A cyclic frame leaves a lane that is UP: channel C's counter advances (R453). -/
def State.sendCyclic (s : State) (lane typ : Nat) (d : List Byte) : State :=
  if s.laneUp lane then
    let t := s.transmit lane typ d
    { t with cyclic := Tbl.set 0 t.cyclic lane ((Tbl.get 0 t.cyclic lane + 1) % 2 ^ 16) }
  else s

/-- The streams whose results the frame sends: enabled streams of groups that are not OFF. -/
def State.resultStreams (s : State) : List Nat := s.streams.filter (fun n => s.o (groupObj (s.groupOf n) 9) != 0)

/-- The RESULTS frames of a frame (R451, R458, R459). -/
def State.sendResults (s : State) : State :=
  let l := s.resultStreams
  let all := (l.map s.resultRecord).flatten
  let links := if s.o 0x710001 = 1 then [s.mainLink, 1 - s.mainLink] else [s.mainLink]
  let s1 := if l.isEmpty then s else links.foldl (fun t k => t.sendCyclic k 0x03 all) s
  [2, 3].foldl (fun t k =>
    let m := l.filter (fun n => nbit (s.o (ok (0x7110 + k) 1)) n)
    if m.isEmpty then t else t.sendCyclic k 0x03 ((m.map s.resultRecord).flatten)) s1

/-- The account of a frame is kept since the life-cycle state entered FIELD (0x8010). -/
def State.accounts (s : State) : Bool := decide (3 ≤ s.o 0xB00001)

/-- Service time is added (R46). -/
def State.addService (s : State) (ns : Nat) : State :=
  if s.accounts then (s.incO 0x801001 ns).withLoop (fun l => { l with svcSince := l.svcSince + ns }) else s

/-- Downtime is added; it opens a new period of downtime or lengthens the present one (R48, R49). -/
def State.addDowntime (s : State) (ns : Nat) (fresh : Bool) : State :=
  if s.accounts then
    let s1 := (s.incO 0x801002 ns).withLoop (fun l =>
      { l with downSince := l.downSince + ns, outageLen := if fresh then ns else l.outageLen + ns })
    let s2 := if fresh then s1.incO 0x801003 1 else s1
    (s2.setO 0x801005 (min (objMax 0x801005) s2.loop.outageLen)).setO 0x801006 s2.loop.cause
  else s

/-- R49: an outage that spans a package reset ends with the first result that carries RESUMED. -/
def State.closeSpan (s : State) (egress : Nat) : State :=
  let span := egress - s.loop.lastGood
  let s1 := (s.addService (span - s.loop.svcSince)).addDowntime (span - s.loop.downSince) (s.loop.downSince == 0)
  s1.withLoop (fun l => { l with spansReset := false })

/-- The frames before the present one, newest first, with the two before it inside an outage run where that run has just
reached its third result (R47). -/
def opened (opens : Bool) (d : List DownRec) : List DownRec :=
  if opens then (d.take 2).map (fun r => { r with inside := true }) ++ d.drop 2 else d

/-- R46 to R48: the account of one frame's results. A frame is downtime where it is service and inside an outage run; with the
third FAULT of a run the two frames before it become so. A flywheel frame counts neither as service nor as downtime. -/
def State.accountFrame (s : State) (faulty good : List Nat) : State :=
  let runs := good.foldl (fun r n => Tbl.set 0 r n 0)
    (faulty.foldl (fun r n => Tbl.set 0 r n (Tbl.get 0 r n + 1)) s.loop.faultRuns)
  let inside := faulty.any (fun n => decide (3 ≤ Tbl.get 0 runs n))
  let opens := faulty.any (fun n => Tbl.get 0 runs n == 3)
  let d := s.loop.down
  let service := !s.loop.flywheel
  let frames := (if opens then (d.take 2).filter (fun r => r.service && !r.inside) else []).length + b01 (inside && service)
  let joined := (opened opens d).takeWhile (fun r => r.inside) |>.any (fun r => r.charged)
  let now : DownRec := ⟨service, inside, inside && (joined || frames != 0)⟩
  let s1 := (s.incO 0x801004 faulty.length).withLoop (fun l => { l with faultRuns := runs, down := (now :: opened opens d).take 3 })
  let s2 := if service then s1.addService s.period else s1
  if inside && frames != 0 then s2.addDowntime (frames * s.period) (!joined) else s2

/-- The counters of the results of a frame. -/
def State.countResults (s : State) : State :=
  s.resultStreams.foldl (fun t n =>
    let st := s.resultStatus n
    let t1 := t.incO (streamObj n 9) 1
    if st = stLate then t1.incO (streamObj n 0xA) 1 else if st = stFault then t1.incO (streamObj n 0xC) 1 else t1) s

/-- EGRESS_INSTANT: at the deadline one result per enabled stream is sent with its status (R310, R311). -/
def execEgressInstant (s : State) : Host.Outcome State Fault Refusal :=
  .next (
    match s.loop.start with
    | none => s
    | some t =>
      if ¬ s.loopRuns = true ∨ s.loop.sent = true ∨ s.now < t + s.deadline then s
      else
        let s1 := s.settleDue
        if ¬ s1.loopRuns = true then s1
        else
          let l := s1.resultStreams
          let faulty := l.filter (fun n => s1.resultStatus n == stFault)
          let good := l.filter (fun n => s1.resultStatus n != stFault)
          let resumed := l.any (fun n => s1.loop.resumed.contains n)
          let egress := t + s1.deadline
          let s2 := (s1.groupsInUse.foldl (fun u g =>
            u.trace 6 g 7 none 2 ((faulty.filter (fun n => s1.groupOf n == g)).length * 2 ^ 16)) s1.sendResults).countResults
          let s3 := if s2.loop.spansReset && resumed then s2.closeSpan egress else s2
          let s4 := s3.accountFrame faulty good
          s4.withLoop (fun k =>
            { k with sent := true, lastSent := some s1.frame, resumed := k.resumed.filter (fun n => !l.contains n),
                     lastGood := if good.isEmpty then k.lastGood else egress,
                     svcSince := if good.isEmpty then k.svcSince else 0,
                     downSince := if good.isEmpty then k.downSince else 0 }))

end Sys2Proof.Machine
end

