-- ==== Sys2Proof/Machine/Sensor.lean ====
section
/-! DEFINITION. Sensor sources, their rings and history, the aligner, and the TIME frames of sensor lanes (R374 to R381,
R384, R461, R462). -/

namespace Sys2Proof.Machine

/-- The key of sub-index `b` of SOURCE n. -/
def srcObj (n b : Nat) : Nat := ok (0x5010 + n) b
/-- The key of sub-index `b` of ALIGN c. -/
def alignObj (c b : Nat) : Nat := ok (0x5100 + c) b

/-- Source `n`. -/
def State.source (s : State) (n : Nat) : Source := Tbl.get Source.reset s.sources n

/-- The state with a source replaced. -/
def State.setSource (s : State) (n : Nat) (x : Source) : State := { s with sources := Tbl.set Source.reset s.sources n x }

/-- R377: one output of a source goes to its ring, if it has one, and to the aligner's history of 64. -/
def State.sourceOutput (s : State) (n t v : Nat) : State :=
  let x := s.source n
  let h := x.hist ++ [⟨t, v, s.now⟩]
  let s1 := s.setSource n { x with hist := h.drop (h.length - 64) }
  let entries := s.o (srcObj n 9)
  if entries = 0 then s1
  else
    let wc := s.o (srcObj n 0xA)
    (s1.sramWrite (hubAddr (s.o (srcObj n 8) + 16 * (wc % entries))) (leBytes 8 t ++ leBytes 4 v ++ leBytes 4 wc)).setO
      (srcObj n 0xA) ((wc + 1) % 2 ^ 64)

/-- R374, R376: one sample of a source: discarded if it is not later than the one before; with DECIM = D one output per D
accepted samples, their sum times RECIP(D) at the middle of their times. -/
def State.sourceSample (s : State) (n : Nat) (p : Nat × Nat) : State :=
  if p.1 ≤ s.o (srcObj n 0xD) then s.incO (srcObj n 0xC) 1
  else
    let s1 := s.setO (srcObj n 0xD) (p.1 % 2 ^ 64)
    let d := s.o (srcObj n 7)
    if d ≤ 1 then s1.sourceOutput n p.1 p.2
    else
      let g := (s1.source n).gather ++ [p]
      if g.length < d then s1.setSource n { s1.source n with gather := g }
      else
        let s2 := s1.setSource n { s1.source n with gather := [] }
        let t0 := (g.headD p).1
        let sum := (g.drop 1).foldl (fun a q => add32 a (ofBits32 q.2)) (ofBits32 (g.headD p).2)
        s2.sourceOutput n (t0 + (p.1 - t0) / 2) (toBits32 (mul32 sum (recip32 (Num.ofInt d))))

/-- The source that a packet's link and number name, if one is enabled. -/
def State.sourceFor (s : State) (link id : Nat) : Option Nat :=
  (List.range 64).find? (fun n => s.o (srcObj n 1) == 1 && s.o (srcObj n 2) == link && s.o (srcObj n 3) == id)

/-- The samples of a packet: time and FP32 value of each (R71, R374, R375, R462). -/
def State.packetSamples (s : State) (n : Nat) (d : List Byte) : List (Nat × Nat) :=
  let fmt := (Fmt.ofCode (s.o (srcObj n 4))).getD .int16
  let count := nfld (wordAt d 0) 16 16
  let step (i : Nat) : Nat := i * wordAt d 4 / 256
  let time (i : Nat) : Nat :=
    if s.o (srcObj n 5) = 0 then natAt d 8 8 + step i
    else s.now - s.o (srcObj n 6) - (step (count - 1) - step i)
  (List.range count).map (fun i => (time i, toBits32 (fmt.value (natAt d (16 + i * fmt.bytes) fmt.bytes) 0)))

/-- A SAMPLE_PKT on a sensor lane (R384, R462); `excess` says that it would exceed the decoder's rate. -/
def State.onSamplePkt (s : State) (lane : Nat) (d : List Byte) (excess : Bool) : State :=
  match s.sourceFor (lane - 4) (nfld (wordAt d 0) 0 8) with
  | none => s.incO (ok (0x7120 + (lane - 4)) 8) 1
  | some n =>
    let count := nfld (wordAt d 0) 16 16
    if nfld (wordAt d 0) 8 4 ≠ s.o (srcObj n 4) then s.incO (ok (0x7120 + (lane - 4)) 8) 1
    else if excess ∨ s.o 0x400001 = 0 then (s.incO (srcObj n 0xB) count).incO 0x500005 count
    else (s.packetSamples n d).foldl (fun t p => t.sourceSample n p) s

/-! ### The aligner (R378 to R381) -/

/-- num / den rounded once to FP32. -/
def quot32 (num den : Nat) : Num := if num = 0 then .zero else ratio32 num den

/-- The enabled aligner channels of a stream, ascending. -/
def State.channelsOf (s : State) (n : Nat) : List Nat :=
  (List.range 64).filter (fun c => s.o (alignObj c 1) == 1 && s.o (alignObj c 3) == n)

/-- Consecutive outputs are no more than `age` apart. -/
def spacingOk (age : Nat) : List HistItem → Bool
  | a :: b :: r => decide (b.t - a.t ≤ age) && spacingOk age (b :: r)
  | _ => true

/-- The value of one channel for target time `tf` from the outputs of its source known at the evaluation, oldest first; none
where it misses (R379). -/
def alignValue (method age : Nat) (coef : List Byte) (tf : Int) (h : List HistItem) : Option Num :=
  let before := h.filter (fun x => decide ((x.t : Int) ≤ tf))
  let k := before.length
  if k = 0 then none
  else
    let at_ (i : Nat) : HistItem := h.getD i ⟨0, 0, 0⟩
    let xk := at_ (k - 1)
    if method = 0 then (if (tf - xk.t : Int) ≤ (age : Int) then some (ofBits32 xk.v) else none)
    else if h.length ≤ k then none
    else
      let nx := at_ k
      let phi := quot32 (tf - xk.t).toNat (nx.t - xk.t)
      if method = 1 then
        if spacingOk age [xk, nx] then some (fma32 phi (sub32 (ofBits32 nx.v) (ofBits32 xk.v)) (ofBits32 xk.v)) else none
      else
        let p0 := (roundInt .near (phi.scale2 6)).toNat
        -- p = 64 moves on by one output
        let p := if p0 = 64 then 0 else p0
        let m := if p0 = 64 then k + 1 else k
        if m < 8 ∨ h.length < m + 8 then none
        else
          let win := (h.drop (m - 8)).take 16
          if spacingOk age win then
            some ((List.range 16).foldl (fun a j =>
              fma32 (ofBits32 (natAt coef (64 * p + 4 * j) 4)) (ofBits32 ((win.getD j ⟨0, 0, 0⟩).v)) a) .zero)
          else none

/-- The value of channel `c` for target start `sf`, from outputs that entered by `ef` (R378, R379). -/
def State.channelValue (s : State) (c sf ef : Nat) : Option Num :=
  alignValue (s.o (alignObj c 6)) (s.o (alignObj c 8)) (s.d (ok (0x5140 + s.o (alignObj c 9)) 1))
    ((sf : Int) - s.o (alignObj c 7)) ((s.source (s.o (alignObj c 2))).hist.filter (fun x => decide (x.entered ≤ ef)))

/-- R380: the bytes of one channel's value. -/
def State.channelBytes (s : State) (c : Nat) (v : Num) : List Byte :=
  let f := (Fmt.ofCode (s.o (alignObj c 5))).getD .fp32
  leBytes f.bytes (convert f true .near (mul32 v (ofBits32 (s.o (alignObj c 0xA))))).code

/-- R380: one evaluation: every channel forms its value and the row is staged with tag f, or each missing channel counts. -/
def State.alignRow (s : State) (n f sf ef : Nat) : State :=
  let cs := s.channelsOf n
  let vs := cs.map (fun c => (c, s.channelValue c sf ef))
  let s1 := vs.foldl (fun t p => match p.2 with
    | some v => t.setO (alignObj p.1 0xC) (toBits32 v)
    | none => t.incO (alignObj p.1 0xB) 1) s
  if vs.all (fun p => p.2.isSome) then
    let row := vs.foldl (fun r p => match p.2 with
      | some v => spliceBytes r (s.o (alignObj p.1 4)) (s.channelBytes p.1 v)
      | none => r) (List.replicate (s.o (streamObj n 6)) 0)
    s1.putStaged n ⟨f % 2 ^ 16, row⟩
  else s1

/-- The frame whose aligned row is evaluated next, with its predicted start (R378); none for a frame that a lock started. -/
def State.alignFrame (s : State) : Option (Nat × Nat) :=
  match s.closeFrame, s.loop.start, s.prediction with
  | some f, some t, some p => if s.loop.closed then some (f, p) else if s.loop.firstFrame then none else some (f, t)
  | _, _, _ => none

/-- ALIGNER_EVALUATION: at E_f = S_f + INGRESS_CLOSE_NS − t_ALE the channels of a stream are evaluated, in its due frames
(R378 to R381). -/
def execAlignerEvaluation (n : Fin 32) (s : State) : Host.Outcome State Fault Refusal :=
  .next (
    match s.alignFrame with
    | none => s
    | some (f, sf) =>
      let ef := sf + s.ingressClose - 400
      if s.now < ef ∨ s.loop.evaluated.contains n.val = true ∨ s.o (streamObj n 1) = 0 ∨ s.o (streamObj n 8) = 0 ∨
          ¬ s.isDue n f = true then s
      else (s.alignRow n f sf ef).withLoop (fun l => { l with evaluated := n.val :: l.evaluated }))

/-! ### TIME frames (R461) -/

/-- The payload of a TIME frame. -/
def State.timePayload (s : State) : List Byte :=
  leBytes 8 s.now ++ leBytes 4 (if s.loopRuns then s.frame else 0) ++ leBytes 4 (b01 s.loopRuns + b01 (s.o 0x500002 == 2) * 2)

/-- TIME_FRAME: on a sensor lane in UP, at each frame start while the loop runs and every TIME_PERIOD_US otherwise. -/
def execTimeFrame (sl : Fin 2) (s : State) : Host.Outcome State Fault Refusal :=
  .next (
    let lane := 4 + sl.val
    let due := if s.loopRuns then s.loop.timeOwed.contains lane else decide ((s.lane lane).timeAt ≤ s.now)
    if due && s.laneUp lane then
      let s1 := s.sendCyclic lane 0x30 s.timePayload
      (s1.putLane lane { s1.lane lane with timeAt := s.now + s.o (ok (0x7120 + sl) 9) * 1000 }).withLoop (fun l =>
        { l with timeOwed := l.timeOwed.filter (fun x => x != lane) })
    else s)

end Sys2Proof.Machine
end

