-- ==== Sys2Proof/Machine/Lane.lean ====
section
/-! DEFINITION. The optical lanes: light, seating, training and refusal, identity records, margin probes, and lasers with
their spares (R426 to R444, R60, R432 to R434, R468, R615). -/

namespace Sys2Proof.Machine

/-! ### Lanes, ports and masters -/

/-- P_SEAT and P_LOS of R444, in 0.01 dBm. -/
def pSeat : Int := -1400
def pLos : Int := -1800

/-- A lane of a peer link. -/
def peerLaneNo (lane : Nat) : Bool := decide (6 ≤ lane)

/-- The master whose port a drive lane is (0 main host, 2 DL2, 3 DL3). -/
def masterOf (lane : Nat) : Nat := if lane < 2 then 0 else lane

/-- The port of a master is up: DL0 or DL1 for the main host, LINK_UP for the management port (R492). -/
def State.portUp (s : State) (m : Nat) : Bool :=
  if m = 0 then s.laneUp 0 || s.laneUp 1 else if m = 1 then s.o 0x730002 == 1 else s.laneUp m

/-- Master `m`. -/
def State.master (s : State) (m : Nat) : Master := Tbl.get Master.reset s.masters m

/-- The state with a master replaced. -/
def State.setMaster (s : State) (m : Nat) (x : Master) : State := { s with masters := Tbl.set Master.reset s.masters m x }

/-- The time since which each port is lost follows its links. -/
def State.notePorts (s : State) : State :=
  (List.range 4).foldl (fun t m =>
    let x := t.master m
    if t.portUp m then t.setMaster m { x with lostAt := 0 }
    else if x.lostAt = 0 then t.setMaster m { x with lostAt := t.now + 1 } else t) s

/-! ### Transfers that end (R354, R489, R490) -/

/-- A slot enters FAILED with an error. -/
def State.failSlot (s : State) (k err : Nat) : State := (s.setO (slotObj k 3) 5).setO (slotObj k 4) err

/-- An open transfer ends with no change of the object; one of a code-object image fails its slot with error 0x000A, and
one of a firmware image leaves its slot INVALID (R509). -/
def State.endTransfer (s : State) (key : Nat) : State :=
  match Tbl.get none s.transfers key with
  | none => s
  | some x =>
    let s1 := { s with transfers := Tbl.set none s.transfers key none }
    if x.write ∧ x.key % 256 = 2 ∧ 0x3040 ≤ x.key / 256 ∧ x.key / 256 < 0x3060 then
      s1.failSlot (x.key / 256 - 0x303F) 0x000A
    else if x.write ∧ (x.key = 0xA00005 ∨ x.key = 0xA00105) then s1.setO (ok (x.key / 256) 1) 2
    else s1

/-- The open transfers of a master that satisfy a test end, and the next request on each transfer number is answered with
status `st`. -/
def State.endTransfers (s : State) (m st : Nat) (p : Transfer → Bool) : State :=
  let keys := (s.transfers.filter (fun e => e.1 / 256 == m && e.2.any p)).map (fun e => e.1)
  keys.foldl (fun t k =>
    let u := t.endTransfer k
    { u with aborted := Tbl.set 0 u.aborted k st }) s

/-! ### Lane states (R431) -/

/-- The other lane of a peer link. -/
def mateOf (i : Nat) : Nat := if i % 2 = 0 then i + 1 else i - 1

/-- Channel `ch` of a lane with its counters at 0 (R455, R473). Frames of a peer lane whose link goes on with its other lane
wait to be resent (R472). -/
def State.restartRel (s : State) (i ch : Nat) : State :=
  let x := s.rel i ch
  s.setRel i ch { RelChan.reset with waiting := if 6 ≤ i ∧ s.laneUp (mateOf i) = true then x.unacked ++ x.waiting else [] }

/-- The reliable channels of a lane start again at 0, a retrain ends its master's transfers, and an injection on the link
stops (R455, R473, R490, R514). -/
def State.beginTraining (s : State) (i : Nat) : State :=
  let s1 := (s.restartRel i 0).restartRel i 1
  let s2 := if i < 4 then s1.endTransfers (masterOf i) 0x08 (fun _ => true) else s1
  let s3 := if s2.inject.any (fun j => j.link == linkOfLane i) then { s2 with inject := none } else s2
  s3.putLane i { s3.lane i with good := 0, idDone := false, cause := 0, identAt := s3.now, backoff := 0, echoes := [] }

/-- A lane enters a state. DL0 that leaves UP while it is the main host link is a failover trigger (R457). -/
def State.enterLane (s : State) (i st : Nat) : State :=
  let old := s.laneState i
  let s1 := ((s.setO (laneObj i 1) st).putLane i { s.lane i with since := s.now }).trace 5 i 7 none st 0
  let s2 := if st = 3 then s1.beginTraining i else s1
  let s3 := if old = 4 ∧ st ≠ 4 ∧ i = 0 ∧ s.mainLink = 0 ∧ s.o 0x710001 = 1 then
    s2.withLoop (fun l => { l with switchDue := true }) else s2
  let s4 := if st = 4 then s3.putLane i { s3.lane i with goodSince := s3.now, timeAt := s3.now } else s3
  let n := (i - 6) / 2
  let s5 := if 6 ≤ i ∧ st = 4 ∧ s.o (peerObj n 1) = 0 then s4.setPeer n { s4.peer n with soloSince := s4.now } else s4
  s5.notePorts

/-- Received power is shown (LANE:02). -/
def State.seePower (s : State) (i : Nat) (p : Int) : State := s.setO (laneObj i 2) (trunc 16 p)

/-- LIGHT_ABOVE_SEAT: NO_LIGHT to SEATING (R429, R431). -/
def execLightAboveSeat (i : Fin 12) (p : BitVec 16) (s : State) : Host.Outcome State Fault Refusal :=
  .next (
    if p.toInt < pSeat then s
    else
      let t := s.seePower i p.toInt
      if s.laneState i = 1 then t.enterLane i 2 else t)

/-- SEATING_POWER_DROP: power falls below P_SEAT while SEATING (R429, R431). -/
def execSeatingPowerDrop (i : Fin 12) (p : BitVec 16) (s : State) : Host.Outcome State Fault Refusal :=
  .next (
    if pSeat ≤ p.toInt ∨ s.laneState i ≠ 2 then s else (s.seePower i p.toInt).enterLane i 1)

/-- LANE_SEATED: power at or above P_SEAT for t_SEAT = 20 ms (R429). -/
def execLaneSeated (i : Fin 12) (s : State) : Host.Outcome State Fault Refusal :=
  .next (if s.laneState i = 2 ∧ (s.lane i).since + 20000000 ≤ s.now then s.enterLane i 3 else s)

/-- LOSS_OF_LIGHT: power below P_LOS in TRAINING, UP or REFUSED enters LOS; an announced swap gap is no loss (R430,
R439). -/
def execLossOfLight (i : Fin 12) (p : BitVec 16) (s : State) : Host.Outcome State Fault Refusal :=
  .next (
    if pLos ≤ p.toInt then s
    else
      let t := s.seePower i p.toInt
      let st := s.laneState i
      if (st = 3 ∨ st = 4 ∨ st = 6) ∧ (s.lane i).gapUntil ≤ s.now then
        (((t.incO (laneObj i 0xD) 1).enterLane i 5).logEv 0x19 4 i {}).settle
      else t)

/-- LIGHT_RETURN: power back at P_SEAT or more within t_UNP = 50 ms of the loss (R430). -/
def execLightReturn (i : Fin 12) (p : BitVec 16) (s : State) : Host.Outcome State Fault Refusal :=
  .next (
    if p.toInt < pSeat then s
    else
      let t := s.seePower i p.toInt
      if s.laneState i = 5 ∧ s.now < (s.lane i).since + 50000000 then t.enterLane i 3 else t)

/-- UNPLUG_EVENT: LOS for t_UNP; NO_LIGHT, any refusal cleared (R430). -/
def execUnplugEvent (i : Fin 12) (s : State) : Host.Outcome State Fault Refusal :=
  .next (
    if s.laneState i = 5 ∧ (s.lane i).since + 50000000 ≤ s.now then
      let t := (s.incO (laneObj i 0xE) 1).enterLane i 1
      ((t.putLane i { t.lane i with cause := 0 }).logEv 0x19 4 i {}).settle
    else s)

/-- A lane enters UP. -/
def State.laneToUp (s : State) (i : Nat) : State := (s.enterLane i 4).settle

/-- TRAINING_COMPLETE: a drive or sensor lane that has passed its identity phase is at rate (R431). -/
def execTrainingComplete (i : Fin 6) (s : State) : Host.Outcome State Fault Refusal :=
  .next (if s.laneState i = 3 ∧ (s.lane i).idDone = true then s.laneToUp i else s)

/-- A write of RETRAIN = 1: UP or REFUSED to TRAINING (R431). -/
def State.retrain (s : State) (i : Nat) : State :=
  if s.laneState i = 4 ∨ s.laneState i = 6 then (s.enterLane i 3).settle else s

/-- A lane goes OFF. -/
def State.laneOff (s : State) (i : Nat) : State :=
  let t := s.enterLane i 0
  let x := t.lane i
  let u := if t.o (laneObj i 8) = 2 then t.setO (laneObj i 8) 1 else t
  u.putLane i { x with warmAt := 0, warmed := false, cause := 0 }

/-- An enabled lane is lit once the optical reference PLL has locked: OFF to NO_LIGHT (R431, R610). A swap that was due
starts again at its pre-warm (R443). -/
def State.lightLane (s : State) (i : Nat) : State :=
  if s.laneState i ≠ 0 ∨ s.o (laneObj i 3) = 0 ∨ s.oBit 0x202001 10 = false then s
  else
    let u := s.enterLane i 1
    if u.o (laneObj i 8) = 1 then
      (u.setO (laneObj i 8) 2).putLane i { u.lane i with warmAt := u.now + 1, warmed := false }
    else u

/-- ENABLE of a lane (LANE:03, R431): 0 goes OFF; 1 goes to NO_LIGHT from OFF. -/
def State.laneEnable (s : State) (i v : Nat) : State :=
  let t := s.setO (laneObj i 3) v
  if v = 0 then (if t.laneState i = 0 then t else t.laneOff i).settle
  else (t.lightLane i).settle

/-- A change of DEV_NUM_LOCAL lets every refused lane train again (R434). -/
def State.setDevNum (s : State) (v : Nat) : State :=
  let t := s.setO 0x700008 v
  if s.o 0x700008 = v then t
  else (((List.range 12).filter (fun i => s.laneState i == 6)).foldl (fun u i => u.enterLane i 3) t).settle

/-! ### Identity records (R432 to R434, R460) -/

/-- PORT of a lane. -/
def portOf (i : Nat) : Nat := if i < 6 then i else 6 + (i - 6) / 2

/-- A record with its CRC. -/
def sealRecord (l : List Byte) : List Byte := l ++ leBytes 4 (crc32c l)

/-- An identity record of this device: type, port, lane bit, and REFUSE (R432). -/
def State.identity (s : State) (typ port laneB refuse : Nat) : List Byte :=
  let num := s.o 0x700008
  let dev := if typ = 5 ∧ num ≠ 0xFF then num % 4 * 2 ^ 16 + 2 ^ 18 else 0
  sealRecord (leBytes 4 (0x5A + typ * 2 ^ 8 + port * 2 ^ 16 + laneB * 2 ^ 20) ++
    leBytes 4 (s.o 0x108301 % 2 ^ 16 + dev + refuse * 2 ^ 24) ++ leBytes 8 Config.serialNumber ++ List.replicate 12 0)

/-- The identity record a lane sends. -/
def State.laneIdentity (s : State) (i : Nat) : List Byte :=
  s.identity (if i < 4 then 2 else if i < 6 then 4 else 5) (portOf i) (if i < 6 then 0 else i % 2) (s.lane i).cause

/-- IDENTITY_RECORD_REPEAT: every 100 µs in the identity phase, every 100 ms while REFUSED (R432, R434, R615). -/
def execIdentityRecordRepeat (i : Fin 12) (s : State) : Host.Outcome State Fault Refusal :=
  .next (
    let x := s.lane i
    let phase := s.laneState i == 3 && !x.idDone && x.backoff == 0
    if (phase || s.laneState i == 6) && decide (x.identAt ≤ s.now) then
      (s.transmit i 0x20 (s.laneIdentity i)).putLane i
        { x with identAt := s.now + (if s.laneState i = 6 then 100000000 else 100000) }
    else s)

/-- A record is valid: MAGIC, TYPE, reserved fields and CRC (R432). -/
def identValid (r : List Byte) : Bool :=
  let w0 := wordAt r 0
  let t := nfld w0 8 8
  nfld w0 0 8 == 0x5A && decide (1 ≤ t) && decide (t ≤ 6) && nfld w0 21 11 == 0 && nfld (wordAt r 4) 19 5 == 0 &&
    natAt r 16 12 == 0 && wordAt r 28 == crc32c (r.take 28)

/-- TYPE of a record. -/
def idType (r : List Byte) : Nat := nfld (wordAt r 0) 8 8
/-- DEV_NUM of a record. -/
def idNum (r : List Byte) : Nat := nfld (wordAt r 4) 16 2
/-- REFUSE of a record. -/
def idRefuse (r : List Byte) : Nat := nfld (wordAt r 4) 24 8
/-- DEVICE_ID of a record. -/
def idDevice (r : List Byte) : Nat := natAt r 8 8

/-- The last valid record of a lane (LANE:10). -/
def State.partner (s : State) (i : Nat) : List Byte := s.d (laneObj i 0x10)

/-- A peer lane holds its partner: in TRAINING with one valid record seen, or UP. -/
def State.holdsPartner (s : State) (i : Nat) : Bool :=
  s.laneState i == 4 || (s.laneState i == 3 && ((s.lane i).idDone || (s.lane i).good != 0))

/-- The peer lanes other than those of lane `i`'s link that hold a partner. -/
def State.otherPeers (s : State) (i : Nat) : List Nat :=
  ((List.range 6).map (fun j => 6 + j)).filter (fun j => (j - 6) / 2 != (i - 6) / 2 && s.holdsPartner j)

/-- The first cause of R433 that applies to record `r` on lane `i`; 0 none. -/
def State.refusal (s : State) (i : Nat) (r : List Byte) : Nat :=
  let t := idType r
  let mate := mateOf i
  let p := s.partner mate
  let dup (q : List Byte) : Bool :=
    if t = 6 then idType q == 6 else idType q == 5 && (idNum q == idNum r || idDevice q == idDevice r)
  if idDevice r = Config.serialNumber % 2 ^ 64 then 1
  else if (i < 4 ∧ t ≠ 1) ∨ (4 ≤ i ∧ i < 6 ∧ t ≠ 3) ∨ (6 ≤ i ∧ t ≠ 5 ∧ t ≠ 6) then 2
  else if 6 ≤ i ∧ (s.o 0x700008 = 0xFF ∨ (t = 5 ∧ ¬ nbit (wordAt r 4) 18 = true)) then 3
  else if 6 ≤ i ∧ t = 5 ∧ idNum r = s.o 0x700008 then 4
  else if 6 ≤ i ∧ (s.otherPeers i).any (fun j => dup (s.partner j)) = true then 5
  else if 6 ≤ i ∧ (nfld (wordAt r 0) 20 1 ≠ i % 2 ∨ (s.holdsPartner mate = true ∧
      (idDevice p ≠ idDevice r ∨ nfld (wordAt p 0) 16 4 ≠ nfld (wordAt r 0) 16 4))) then 6
  else if nfld (wordAt r 4) 0 16 ≠ s.o 0x108301 then 7
  else 0

/-- A lane refuses its partner: REFUSED, the cause in its record and its objects, logged, and an attention event (R434). -/
def State.refuseLane (s : State) (i c : Nat) (sent : Nat) : State :=
  let t := (s.setO (laneObj i 0x11) c).enterLane i 6
  ((t.putLane i { t.lane i with cause := sent, identAt := t.now }).logEv 0x19 4 i { detail := c }).settle

/-- IDENT: an identity record is received in the identity phase; a record whose REFUSE is nonzero refuses with cause 8; two
consecutive valid records pass the phase (R432 to R434). On a peer lane the 16 ECHO frames of R468 follow at rate. -/
def State.onIdent (s : State) (i : Nat) (r : List Byte) : State :=
  if ¬ identValid r = true then
    (if s.laneState i = 3 ∧ (s.lane i).idDone = false then s.putLane i { s.lane i with good := 0 } else s)
  else if s.laneState i = 6 then s.setD (laneObj i 0x10) r
  else if s.laneState i ≠ 3 ∨ (s.lane i).idDone = true ∨ (s.lane i).backoff ≠ 0 then s
  else
    let s1 := s.setD (laneObj i 0x10) r
    if idRefuse r ≠ 0 then s1.refuseLane i 8 0
    else
      let c := s1.refusal i r
      if c ≠ 0 then s1.refuseLane i c c
      else
        let x := s1.lane i
        if x.good = 0 then s1.putLane i { x with good := 1 }
        else
          let s2 := s1.putLane i { x with good := 2, idDone := true }
          if 6 ≤ i then s2.transmit i 0x09 (leBytes 8 0) else s2

/-- IDENT (R432). -/
def execIdent (i : Fin 12) (r : List Byte) (s : State) : Host.Outcome State Fault Refusal :=
  if r.length ≠ 32 then .fault .illFormed else .next (s.onIdent i r)

/-- PEER_TRAINING_TIMEOUT: an identity phase passed, but not UP within t_TRNP = 120 ms: a back-off of 1 to 8 ms, counted
(R615). The device draws it from its entropy source: a free value. -/
def execPeerTrainingTimeout (j : Fin 6) (s : State) : Host.Outcome State Fault Refusal :=
  .next (
    let i := 6 + j.val
    let x := s.lane i
    if s.laneState i = 3 ∧ x.idDone = true ∧ x.since + 120000000 ≤ s.now then
      let (v, t) := s.fresh
      (t.putLane i { x with good := 0, idDone := false, echoes := [], backoff := s.now + (v % 8 + 1) * 1000000 }).incO
        (peerObj (j.val / 2) 6) 1
    else s)

/-- PEER_BACKOFF_EXPIRY: the identity phase starts again (R615). -/
def execPeerBackoffExpiry (j : Fin 6) (s : State) : Host.Outcome State Fault Refusal :=
  .next (
    let i := 6 + j.val
    let x := s.lane i
    if s.laneState i = 3 ∧ x.backoff ≠ 0 ∧ x.backoff ≤ s.now then
      s.putLane i { x with backoff := 0, since := s.now, identAt := s.now }
    else s)

/-- A swap notice on a lane in UP: a loss of light of up to 4 µs after it is a swap gap (R439). -/
def State.onSwapNotice (s : State) (i : Nat) : State :=
  if s.laneUp i then s.putLane i { s.lane i with gapUntil := s.now + 4000 } else s

/-! ### Margin (R436) -/

/-- MARGIN_PROBE: each PROBE_PERIOD_S a lane in UP is probed, not during its pre-warm (R436, R443). -/
def execMarginProbe (i : Fin 12) (h v : BitVec 16) (s : State) : Host.Outcome State Fault Refusal :=
  .next (
    let last := s.o (laneObj i 0xB)
    if ¬ s.laneUp i = true ∨ s.o (laneObj i 8) = 2 ∨ (last ≠ 0 ∧ s.now < last + s.o 0x700001 * 1000000000) then s
    else
      let t := ((s.setO (laneObj i 9) h.toNat).setO (laneObj i 0xA) v.toNat).setO (laneObj i 0xB) s.now
      (t.putLane i { t.lane i with
        marginLow := decide (h.toNat < s.o 0x700003) || decide (v.toNat < s.o 0x700004) }).settle)

/-! ### Lasers (R437 to R441, R443, R60) -/

/-- The lane's spare laser is unused. -/
def State.hasSpare (s : State) (i : Nat) : Bool := s.oBit 0x700007 i

/-- A laser of the lane is lit (R428). -/
def State.lit (s : State) (i : Nat) : Bool := s.laneState i != 0 && s.laneState i != 7

/-- A swap has fallen due: DUE, and the spare's pre-warm starts where the lane is lit. -/
def State.swapDue (s : State) (i : Nat) : State :=
  let x := s.lane i
  if s.lit i then (s.setO (laneObj i 8) 2).putLane i { x with dueAt := s.now + 1, warmAt := s.now + 1, warmed := false }
  else (s.setO (laneObj i 8) 1).putLane i { x with dueAt := s.now + 1 }

/-- BIAS_MEASUREMENT: the normalised bias of one second; the first after FIELD is BIAS_INIT; a 60 s mean of 1.25 × BIAS_INIT
makes a swap due, or sets WEAR on a lane whose spare is used (R437, R441). -/
def execBiasMeasurement (i : Fin 12) (ua : BitVec 32) (s : State) : Host.Outcome State Fault Refusal :=
  .next (
    if ¬ s.lit i = true then s
    else
      let x := s.lane i
      let l := (ua.toNat :: x.biases).take 60
      let s1 := s.putLane i { x with biases := l }
      let s2 := if s1.o (laneObj i 6) = 0 ∧ 3 ≤ s1.o 0xB00001 then s1.setO (laneObj i 6) ua.toNat else s1
      if l.length < 60 then s2
      else
        let mean := l.sum / 60
        let s3 := s2.setO (laneObj i 7) mean
        let init := s3.o (laneObj i 6)
        let high := init != 0 && decide (5 * init * 60 ≤ 4 * l.sum)
        if !s3.hasSpare i then (s3.putLane i { s3.lane i with wear := high }).settle
        else if high && s3.o 0x700002 == 1 && s3.o (laneObj i 8) == 0 then s3.swapDue i
        else s3)

/-- SPARE_PREWARM_DONE: t_PRW = 100 ms of pre-warm have passed (R439). -/
def execSparePrewarmDone (i : Fin 12) (s : State) : Host.Outcome State Fault Refusal :=
  .next (
    let x := s.lane i
    if s.o (laneObj i 8) = 2 ∧ x.warmAt ≠ 0 ∧ x.warmAt + 100000000 ≤ s.now + 1 then s.putLane i { x with warmed := true }
    else s)

/-- Blocks of a drive or sensor frame (R446). -/
def frameBlocks (len : Nat) : Nat := 2 + cdiv (len + 4) 8

/-- The lane sends RESULTS in each frame (R451, R458, R459). -/
def State.sendsResults (s : State) (i : Nat) : Bool :=
  i == s.mainLink || (i == 1 - s.mainLink && s.o 0x710001 == 1) ||
    ((i == 2 || i == 3) && s.o (ok (0x7110 + i) 1) != 0)

/-- R438: a planned swap that starts now lies in a link-quiet window of the lane. Times are in tenths of ns: a block takes
6.4 ns, the notice 3 blocks, the dark interval 2,000 ns, t_SWG 10,000 ns. -/
def State.linkQuiet (s : State) (i : Nat) : Bool :=
  match s.frameTime with
  | none => true
  | some t =>
    !s.laneUp i ||
    (let left := if s.sendsResults i then
        10 * s.deadline + 64 + 64 * frameBlocks (Tbl.get [] s.sent (i * 256 + 3)).length else 10 * s.deadline
     let fin := 10 * t + 192 + 20000
     let next := if s.sendsResults i then 10 * (s.period + s.deadline)
       else if i = 4 ∨ i = 5 then 10 * s.period else 10 * s.period + 100000
     (!s.sendsResults i || s.loop.sent) && decide (left ≤ 10 * t) && decide (fin ≤ 10 * s.period) && decide (fin + 100000 ≤ next))

/-- R443: a swap of the lane waits: lane a of its peer link goes first or has swapped in this window, or the lane is UP and
its peer link runs on one lane, or the other main host link is not UP (log 93). -/
def State.swapWaits (s : State) (i : Nat) : Bool :=
  if 6 ≤ i then
    let n := (i - 6) / 2
    let mate := mateOf i
    let since := match s.loop.start with
      | some t => if s.loopRuns then t else s.now
      | none => s.now
    (s.laneUp i && (s.o (peerObj n 1) == 2 || s.o (peerObj n 1) == 3)) ||
      (i % 2 == 1 && (s.o (laneObj mate 8) == 1 || s.o (laneObj mate 8) == 2)) || decide (since < (s.lane mate).swapAt)
  else if i < 2 then s.laneUp i && !s.laneUp (1 - i)
  else false

/-- The transmitter moves to its spare laser, which records its BIAS_INIT (R439, R440). -/
def State.takeSpare (s : State) (i bias : Nat) : State :=
  let s1 := ((s.setO (laneObj i 5) (1 - s.o (laneObj i 5) % 2)).setOBit 0x700007 i false).setO (laneObj i 8) 3
  (s1.setO (laneObj i 6) bias).putLane i { s1.lane i with biases := [], dueAt := 0, warmAt := 0, warmed := false }

/-- A planned swap: the notice goes out, the transmitter is dark for at most 2 µs, and the lane stays in its state. -/
def State.swapLaser (s : State) (i bias : Nat) : State :=
  let s1 := if s.laneUp i then
      (if 6 ≤ i then s.transmit i 0x06 (leBytes 4 2000 ++ leBytes 4 0) else s.transmit i 0x21 (leBytes 4 2000)) else s
  let s2 := s1.takeSpare i bias
  ((s2.putLane i { s2.lane i with swapAt := s2.now + 1 }).logEv 0x1A 4 i {}).settle

/-! ### The order of repairs in the free portion of a frame (R65) -/

/-- A poisoned line of a pinned image awaits its reload. -/
def State.reloadDue (s : State) : Bool :=
  s.line.any (fun e => nbit e.2 0 && !s.retiredPages.contains (e.1 / 0x8000) &&
    (((s.coverOf true (e.1 / 0x8000)).bind s.slotOfEntry).map (fun k => (Tbl.get none s.pins k).isSome)).getD false)

/-- A lane's swap has waited 60 s for a link-quiet window (R60). -/
def State.fallbackDue (s : State) (i : Nat) : Bool :=
  s.o (laneObj i 8) == 2 && (s.lane i).warmed && decide ((s.lane i).dueAt + 60000000000 ≤ s.now + 1) && !s.swapWaits i

/-- A row is to be copied to a spare. -/
def State.sparingDue (s : State) : Bool := s.ceRows.any (fun r => s.rowDue r && s.channels.contains r.ch)

/-- A repair of rank `rank` (0 model reload, 1 laser swap, 2 row sparing, 3 in-service self-test) leaves the free portion of the
running frame to one of lower rank that is due (R65). -/
def State.yields (s : State) (rank : Nat) : Bool :=
  s.loopRuns && ((decide (1 ≤ rank) && s.reloadDue) || (decide (2 ≤ rank) && anyBelow 12 s.fallbackDue) ||
    (decide (3 ≤ rank) && s.sparingDue))

/-- LASER_SWAP: a warmed spare is taken in a link-quiet window of the free portion (R315, R438, R439, R443), which the repair
state records (R64); `bias` is the spare's first normalised value. -/
def execLaserSwap (i : Fin 12) (bias : BitVec 32) (s : State) : Host.Outcome State Fault Refusal :=
  .next (
    if s.o (laneObj i 8) = 2 ∧ (s.lane i).warmed = true ∧ s.linkQuiet i = true ∧ s.swapWaits i = false ∧
        s.freePortion = true ∧ s.yields 1 = false then
      (s.swapLaser i bias.toNat).recordRepair s
    else s)

/-- LASER_SWAP_FALLBACK: after 60 s without a window the swap is made in the free portion, and counted (R60, R439). -/
def execLaserSwapFallback (i : Fin 12) (bias : BitVec 32) (s : State) : Host.Outcome State Fault Refusal :=
  .next (
    if s.fallbackDue i = true ∧ s.freePortion = true ∧ s.yields 1 = false then
      ((s.swapLaser i bias.toNat).incO (laneObj i 0xC) 1).recordRepair s
    else s)

/-- A lane enters FAILED, logged (R440). -/
def State.failLane (s : State) (i : Nat) : State := ((s.enterLane i 7).logEv 0x19 4 i {}).settle

/-- LASER_FAILURE: the active laser loses regulation: an unused spare is taken at once and the lane retrains; with none left
the lane fails (R440, R443). -/
def execLaserFailure (i : Fin 12) (bias : BitVec 32) (s : State) : Host.Outcome State Fault Refusal :=
  .next (
    if ¬ s.lit i = true then s
    else if s.hasSpare i then
      let t := s.takeSpare i bias.toNat
      ((if t.laneState i = 3 ∨ t.laneState i = 4 ∨ t.laneState i = 6 then t.enterLane i 3 else t).settle).recordRepair s
    else ((s.setO (laneObj i 5) 0xFF).failLane i).recordRepair s)

/-- RECEIVER_FAULT: the receiver of a lit lane reports a fault (R440). -/
def execReceiverFault (i : Fin 12) (s : State) : Host.Outcome State Fault Refusal :=
  .next (if s.lit i then s.failLane i else s)

end Sys2Proof.Machine
end

