-- ==== Sys2Proof/Machine/Links.lean ====
section
/-! DEFINITION. The reliable channels of drive and peer links at work, cyclic numbering, discarded frames, window-write
packets and their answers, peer links in one-lane and two-lane mode, and their loss (R442, R447 to R455, R467 to R475). -/

namespace Sys2Proof.Machine

/-! ### Counters of a link -/

/-- The key of sub-index `b` of the drive or sensor link of a lane. -/
def linkObj (lane b : Nat) : Nat := if lane < 4 then ok (0x7110 + lane) b else ok (0x7120 + (lane - 4)) b

/-- A frame event of the LINK trace class: 1 CRC, 2 retransmit, 3 gap. -/
def State.frameEvent (s : State) (lane kind seq : Nat) : State := s.trace 5 lane 7 none 0xF (kind + seq * 2 ^ 16)

/-- The unit of a lane's link in the log: LINK as FAULT_INJECT numbers links. -/
def State.logLink (s : State) (lane : Nat) : State := s.logEv 0x18 5 (linkOfLane lane) {}

/-- A frame whose CRC fails is discarded and counted (R448, R469). -/
def State.crcError (s : State) (lane seq : Nat) : State :=
  ((s.incO (if lane < 6 then linkObj lane 2 else peerObj ((lane - 6) / 2) 5) 1).frameEvent lane 1 seq).logLink lane

/-- A frame discarded and counted in DISCARDS of its link (R447, R459, R467). -/
def State.discardFrame (s : State) (lane : Nat) : State :=
  (s.incO (if lane < 6 then linkObj lane 6 else peerObj ((lane - 6) / 2) 7) 1).logLink lane

/-- The partner of a peer lane is an observation device, which sends nothing but ACK (R467). -/
def State.observed (s : State) (lane : Nat) : Bool := decide (6 ≤ lane) && s.o (peerObj ((lane - 6) / 2) 2) == 4

/-- SWAP_NOTICE (R439, R460, R469); one from an observation device is discarded (R467). -/
def execSwapNotice (i : Fin 12) (s : State) : Host.Outcome State Fault Refusal :=
  .next (if s.laneUp i && s.observed i then s.discardFrame i else s.onSwapNotice i)

/-- DISCARDED_FRAME (R445 to R448, R469); an injection acts on it first (R513). -/
def execDiscardedFrame (lane : Fin 12) (why : BadFrame) (seq : Fin 65536) (s : State) : Host.Outcome State Fault Refusal :=
  .next (
    if ¬ s.laneUp lane = true then s
    else if s.injects lane 0 = 1 then s.acted
    else if s.injects lane 0 = 2 then s.acted.crcError lane seq
    else match why with
      | .crc => s.crcError lane seq
      | .header => s.discardFrame lane
      | .codeword => if 6 ≤ lane.val then (s.incO (laneObj lane 0x12) 1).logLink lane else s.crcError lane seq)

/-- MGMT_LINK_UP: the management port's receiver gains or loses sync (0x7300:02). -/
def execMgmtLinkUp (up : Bool) (s : State) : Host.Outcome State Fault Refusal :=
  .next ((s.setO 0x730002 (b01 up)).notePorts)

/-! ### Channel C (R453) -/

/-- A cyclic frame of number `seq` arrives: each missing number counts in CYCLIC_GAPS; whether one that RFC 1982 does not order
comes after a gap is free (log 165). -/
def State.noteCyclic (s : State) (lane seq : Nat) : State :=
  let want := Tbl.get 0 s.cyclic (16 + lane)
  let s1 := { s with cyclic := Tbl.set 0 s.cyclic (16 + lane) ((seq + 1) % 2 ^ 16) }
  if seq = want then s1
  else if serialGe 16 seq want then (s1.incO (linkObj lane 3) ((seq + 2 ^ 16 - want) % 2 ^ 16)).frameEvent lane 3 seq
  else if serialTie 16 seq want && s.fresh.1 % 2 == 1 then
    ({ (s1.incO (linkObj lane 3) (2 ^ 15)) with free := s.free + 1 }).frameEvent lane 3 seq
  else s

/-! ### Channels A and B, and the classes of peer lanes (R454, R455, R473) -/

/-- The acknowledgement a lane sends: the next number expected of a channel, or of both classes of a peer lane. -/
def State.sendAck (s : State) (lane ch : Nat) : State :=
  if lane < 6 then s.transmit lane 0x12 (leBytes 2 ch ++ leBytes 2 (s.rel lane ch).rx)
  else s.transmit lane 0x05 (leBytes 2 (s.rel lane 0).rx ++ leBytes 2 (s.rel lane 1).rx ++ leBytes 4 0)

/-- A frame of a reliable channel arrives: the next in sequence is taken; every frame is answered with an ACK. -/
def State.relReceive (s : State) (lane ch seq : Nat) : State × Bool :=
  let x := s.rel lane ch
  if seq = x.rx then ((s.setRel lane ch { x with rx := (x.rx + 1) % 2 ^ 16 }).sendAck lane ch, true)
  else (s.sendAck lane ch, false)

/-- RETRANSMIT_TIMEOUT: the oldest unacknowledged frame of channel A or B of a drive lane has waited t_ART = 50 µs: it and
every later frame go again; 16 timeouts of one frame break the channels and retrain the lane (R454, R455). -/
def execRetransmitTimeout (lane : Fin 4) (ch : Fin 2) (s : State) : Host.Outcome State Fault Refusal :=
  .next (
    let seq := (((s.rel lane ch).unacked.head?).map (fun f => f.seq)).getD 0
    let r := s.resendRel lane ch 50000
    if ¬ s.laneUp lane = true ∨ r.2 = 0 then s
    else
      let t := (r.1.incO (linkObj lane 4) r.2).frameEvent lane 2 seq
      if 16 ≤ (t.rel lane ch).tries then (t.incO (linkObj lane 5) 1).retrain lane else t)

/-- PEER_RETRANSMIT_TIMEOUT: the same for a class of a peer lane, after t_PRT = 2 µs (R473). -/
def execPeerRetransmitTimeout (j : Fin 6) (cls : Fin 2) (s : State) : Host.Outcome State Fault Refusal :=
  .next (
    let lane := 6 + j.val
    let seq := (((s.rel lane cls).unacked.head?).map (fun f => f.seq)).getD 0
    let r := s.resendRel lane cls 2000
    if ¬ s.laneUp lane = true ∨ r.2 = 0 then s
    else
      let t := (r.1.incO (peerObj (j.val / 2) 6) r.2).frameEvent lane 2 seq
      if 16 ≤ (t.rel lane cls).tries then t.retrain lane else t)

/-- An ACK frame: on a drive lane of channel A or B; on a peer lane of both classes. -/
def State.onAck (s : State) (lane ch next : Nat) : State := if s.laneUp lane then s.ackRel lane ch next else s

/-! ### Window writes toward another device (R470) -/

/-- The command a write belongs to, changed. -/
def State.mapWriter (s : State) (x : PWrite) (f : Flight → Flight) : State :=
  let y := s.engine x.core x.eng
  s.setEngine x.core x.eng { y with flights := y.flights.map (fun g =>
    if g.started && !g.done && g.status == 0 && writeTag x.core x.eng g.pos == x.tag then f g else g) }

/-- The state with a write replaced, or without it once every packet of it is answered or withdrawn. -/
def State.putWrite (s : State) (x : PWrite) : State :=
  if x.packets.all (fun p => p.done) then { s with writes := s.writes.filter (fun y => y.tag != x.tag) }
  else { s with writes := s.writes.map (fun y => if y.tag = x.tag then x else y) }

/-- The granule offsets of the packets of a write that still wait to be sent. -/
def State.unsent (s : State) (tag : Nat) : List Nat :=
  (List.range 6).flatMap (fun j => (List.range 2).flatMap (fun c =>
    ((s.rel (6 + j) c).waiting.filter (fun f => f.key == tag && f.typ == 1)).map (fun f => f.w2 / 2 ^ 12)))

/-- The packets of a write that wait to be sent are withdrawn. -/
def State.withdraw (s : State) (tag : Nat) : State :=
  (List.range 6).foldl (fun t j => (List.range 2).foldl (fun t c =>
    let x := t.rel (6 + j) c
    t.setRel (6 + j) c { x with waiting := x.waiting.filter (fun f => !(f.key == tag && f.typ == 1)) }) t) s

/-- A write ends with an error: its command stops with that status and sends no further packet; the packets on their way
are still answered (R170). -/
def State.endWrite (s : State) (x : PWrite) (st : Nat) : State :=
  let u := s.unsent x.tag
  ((s.withdraw x.tag).putWrite { x with ended := true, packets := x.packets.map (fun p =>
      { p with done := p.done || p.retryAt != 0 || u.contains p.woff }) }).mapWriter x
    (fun g => { g with status := st, bad := true })

/-- The first packet of a write with a number modulo 16 that is not committed, changed. -/
def changePacket (n : Nat) (f : PPacket → PPacket) : List PPacket → List PPacket
  | [] => []
  | p :: r => if p.n % 16 = n ∧ p.done = false then f p :: r else p :: changePacket n f r

/-- A packet that its WSTATUS has answered for good. -/
def PPacket.answered (p : PPacket) : PPacket := { p with done := true, retryAt := 0 }

/-- A WSTATUS answers packet `n` of a write (R470): committed; refused, which ends the command with WINDOW_REMOTE; or to be
resent after 1 µs. For a write that has ended every answer is final (R170). -/
def State.onWstatus (s : State) (dev tag n code : Nat) : State :=
  match s.writes.find? (fun x => x.tag == tag && x.dev == dev) with
  | none => s
  | some x =>
    let y := { x with packets := changePacket n PPacket.answered x.packets }
    if x.ended then (if code < 3 then s.putWrite y else s)
    else match code with
    | 0 => if y.packets.all (fun p => p.done) then (s.putWrite y).mapWriter x Flight.finish else s.putWrite y
    | 1 => s.endWrite y 0x12
    | 2 => s.putWrite { x with packets := changePacket n (fun p => { p with retryAt := s.now + 1001 }) x.packets }
    | _ => s

/-- PACKET_RESEND: 1 µs after a WSTATUS of RETRY the packets concerned of a write go again (R470). -/
def execPacketResend (core : Fin 24) (se : Fin 2) (pos : Fin 64) (s : State) : Host.Outcome State Fault Refusal :=
  .next (
    let due (p : PPacket) : Bool := p.retryAt != 0 && decide (p.retryAt ≤ s.now + 1)
    match s.writes.find? (fun x => x.tag == writeTag core (2 + se) pos) with
    | none => s
    | some x =>
      let y := { x with packets := x.packets.map (fun p => if due p then { p with retryAt := 0 } else p) }
      (x.packets.filter due).foldl (fun t p => t.sendPacket x p) (s.putWrite y))

/-! ### Window writes from another device (R269 to R271, R470) -/

/-- The answer of a window to one packet: 0 committed, 1 refused, 2 retry; a window being closed refuses (R268). -/
def State.packetAnswer (s : State) (n dev own off len : Nat) : Nat :=
  if s.windowClosing n then 1 else s.windowAnswer n dev own off len

/-- What has arrived of a write of device `dev`. -/
def State.inWrite (s : State) (key woff : Nat) : InWrite := ((Tbl.get none s.inWrites key)).getD ⟨woff, 0, none, false⟩

/-- Whether a write of `dev` is complete: committed to its end, or refused and its last packet seen. -/
def InWrite.ended (x : InWrite) : Bool :=
  match x.last with
  | some e => x.refused || decide (e ≤ x.first + x.count)
  | none => false

/-- One packet of a write of device `dev` with its tag: it lands, is refused, or is to be retried; after the last granule
of a write with NOTIFY has committed the write is announced (R269 to R271). -/
def State.packetIn (s : State) (dev tag n own woff : Nat) (notify last : Bool) (d : List Byte) : State × Nat :=
  let key := dev * 2 ^ 16 + tag
  let a := s.packetAnswer n dev own (64 * woff) d.length
  let x := s.inWrite key woff
  let fin := if last then some (woff + d.length / 64) else x.last
  let save (t : State) (y : InWrite) : State :=
    { t with inWrites := Tbl.set none t.inWrites key (if y.ended then none else some y) }
  match a with
  | 0 =>
    let y : InWrite := { x with first := min x.first woff, count := x.count + d.length / 64, last := fin }
    let t := save (s.windowStore n (64 * woff) d) y
    (if y.ended && !y.refused && notify then t.announce n y.first else t, 0)
  | 1 => (save (s.windowRefused n own) { x with last := fin, refused := true }, 1)
  | _ => (save (s.retried (s.windowAt n 0).1) { x with first := min x.first woff, last := fin }, 2)

/-! ### Peer links in one lane and two (R442, R466 to R468, R472) -/

/-- The partner of a link as PEER_LINK:02 shows it: its number, 4 for an observer. -/
def State.partnerCode (s : State) (n : Nat) : Nat :=
  let a := 6 + 2 * n
  let r := if s.laneUp a then s.partner a else s.partner (a + 1)
  if idType r = 6 then 4 else idNum r

/-- A peer link is UP in a mode. -/
def State.linkUp (s : State) (n mode : Nat) : State :=
  ((s.setO (peerObj n 1) mode).setO (peerObj n 2) (s.partnerCode n)).settle

/-- Frames that waited for a lane are sent. -/
def State.pumpLane (s : State) (lane : Nat) : State :=
  (List.range 2).foldl (fun t c => t.setRel lane c (RelChan.pump 32 t.now 33 (t.rel lane c))) s

/-- A peer lane has entered UP: with both lanes UP a link that was down runs in two-lane mode (R468). -/
def State.peerLaneReady (s : State) (lane : Nat) : State :=
  let n := (lane - 6) / 2
  let t := (s.laneToUp lane).pumpLane lane
  if t.o (peerObj n 1) = 0 ∧ t.laneUp (6 + 2 * n) = true ∧ t.laneUp (7 + 2 * n) = true then t.linkUp n 1 else t

/-- The reply to an ECHO, with this device's turnaround, which no rule fixes: a free value (R468). -/
def State.echoReply (s : State) (lane : Nat) : State :=
  let (v, t) := s.fresh
  t.transmit lane 0x09 (leBytes 4 1 ++ leBytes 4 v)

/-- An ECHO frame on a peer lane whose FEC is locked: a request is returned at once; the 16th reply gives FIBRE_NS and LONG,
and the lane enters UP (R468). `rtt` is the measured round trip. -/
def State.onEcho (s : State) (lane : Nat) (reply : Bool) (turn rtt : Nat) : State :=
  let x := s.lane lane
  let n := (lane - 6) / 2
  if s.laneState lane = 3 ∧ x.idDone = true then
    if !reply then s.echoReply lane
    else
      let l := (rtt - turn) :: x.echoes
      let t := s.putLane lane { x with echoes := l }
      if l.length < 16 then t
      else
        let f := (l.foldl min (rtt - turn)) / 2
        ((t.setO (peerObj n 3) (min 0xFFFF f)).setO (peerObj n 4) (b01 (decide (25 < f)))).peerLaneReady lane
  else if ¬ s.laneUp lane = true then s
  else if s.observed lane then s.discardFrame lane
  else if reply then s else s.echoReply lane

/-- ONE_LANE_LINK_UP: one lane has been UP for 1 s and the other has not (R468). -/
def execOneLaneLinkUp (n : Fin 3) (s : State) : Host.Outcome State Fault Refusal :=
  .next (
    let a := 6 + 2 * n.val
    let ua := s.laneUp a
    let ub := s.laneUp (a + 1)
    if s.o (peerObj n 1) = 0 ∧ (ua != ub) = true ∧ (s.peer n).soloSince + 1000000000 ≤ s.now then
      s.linkUp n (if ua then 2 else 3)
    else s)

/-- The frames of a lane move to the other lane of its link, class by class, in their order (R472). -/
def State.moveFrames (s : State) (lost keep : Nat) : State :=
  (List.range 2).foldl (fun t c =>
    let x := t.rel lost c
    let y := t.rel keep c
    let z := { y with waiting := x.unacked ++ x.waiting ++ y.waiting }
    (t.setRel lost c { x with unacked := [], waiting := [], tries := 0 }).setRel keep c
      (RelChan.pump 32 t.now 33 z)) s

/-- A link goes to one-lane mode on lane `keep` (R442, R472). -/
def State.toOneLane (s : State) (n keep : Nat) : State :=
  let a := 6 + 2 * n
  let lost := if keep = a then a + 1 else a
  let resent := (List.range 2).foldl (fun m c =>
    m + (s.rel lost c).unacked.length + ((s.rel lost c).waiting.filter (fun f => f.sentAt != 0)).length) 0
  let mode := if keep = a then 2 else 3
  ((((s.setO (peerObj n 1) mode).incO (peerObj n 8) 1).incO (peerObj n 6) resent).moveFrames lost keep).logEv 0x19 4 lost {}

/-- LANE_DEGRADE: a lane of a two-lane link, or the one lane in use, leaves UP while the other is UP, or its FEC reports
`bad` uncorrectable codewords of `total` over 1 s, more than 1 in 10^6; the switch is signalled on the remaining lane
(R442). -/
def execLaneDegrade (j : Fin 6) (bad total : BitVec 32) (s : State) : Host.Outcome State Fault Refusal :=
  .next (
    let lane := 6 + j.val
    let n := j.val / 2
    let keep := if j.val % 2 = 0 then lane + 1 else lane - 1
    let excess := decide (total.toNat < bad.toNat * 1000000)
    let s1 := if s.laneUp lane then
        (let t := s.incO (laneObj lane 0x12) bad.toNat
         if excess then t.putLane lane { t.lane lane with goodSince := t.now } else t) else s
    let only := if j.val % 2 = 0 then 2 else 3
    if s.laneUp keep = true ∧ ((s.o (peerObj n 1) = 1 ∧ (s.laneUp lane = false ∨ excess = true)) ∨
        (s.o (peerObj n 1) = only ∧ s.laneUp lane = false)) then
      ((s1.toOneLane n keep).transmit keep 0x07 (leBytes 4 (if j.val % 2 = 0 then 2 else 1) ++
        leBytes 4 0)).settle
    else s1)

/-- LANE_RESTORE: the lost lane has been UP for 1 s without exceeding the FEC limit; it rejoins in a free portion (R442). -/
def execLaneRestore (n : Fin 3) (s : State) : Host.Outcome State Fault Refusal :=
  .next (
    let a := 6 + 2 * n.val
    let m := s.o (peerObj n 1)
    let lost := if m = 2 then a + 1 else a
    let keep := if m = 2 then a else a + 1
    if (m = 2 ∨ m = 3) ∧ s.laneUp lost = true ∧ s.laneUp keep = true ∧ (s.lane lost).goodSince + 1000000000 ≤ s.now ∧
        s.freePortion = true then
      ((s.setO (peerObj n 1) 1).transmit keep 0x07 (leBytes 8 0)).settle
    else s)

/-- A LANE_MODE frame: the partner has switched (R442). -/
def State.onLaneMode (s : State) (lane mode : Nat) : State :=
  let n := (lane - 6) / 2
  let a := 6 + 2 * n
  let m := s.o (peerObj n 1)
  match mode with
  | 0 => if (m = 2 ∨ m = 3) ∧ s.laneUp a = true ∧ s.laneUp (a + 1) = true then (s.setO (peerObj n 1) 1).settle else s
  | 1 => if m = 1 ∨ (m = 3 ∧ s.laneUp a = true) then (s.toOneLane n a).settle else s
  | 2 => if m = 1 ∨ (m = 2 ∧ s.laneUp (a + 1) = true) then (s.toOneLane n (a + 1)).settle else s
  | _ => s

/-! ### A link that goes down (R475) -/

/-- The partitions that hold an end of a forwarding pair with device `d`. -/
def State.pairPartitions (s : State) (d : Nat) : List Nat :=
  (List.range 4).filter (fun p => (s.clustersOf p).any (fun k => anyBelow 31 (fun q =>
    let x := s.hq k q
    x.depth != 0 && ((x.isForward && fld x.w0 7 2 == d) || (!x.isForward && x.sen && fld x.w1 0 2 == d)))))

/-- PEER_LINK_DOWN: neither lane is UP. Every outstanding window write toward the partner is answered with TRANSFER, every
unacknowledged frame is discarded, and the PMC is asked to reset every partition that holds an end of a forwarding pair
with the partner (R475). -/
def execPeerLinkDown (n : Fin 3) (s : State) : Host.Outcome State Fault Refusal :=
  .next (
    let a := 6 + 2 * n.val
    if s.o (peerObj n 1) = 0 ∨ s.laneUp a = true ∨ s.laneUp (a + 1) = true then s
    else
      let d := s.o (peerObj n 2)
      let s1 := (s.writes.filter (fun x => x.dev == d)).foldl (fun t x =>
        t.endWrite { x with packets := x.packets.map PPacket.answered } 0x11) s
      let s2 := [a, a + 1].foldl (fun t l => (List.range 2).foldl (fun u c =>
        u.setRel l c { u.rel l c with unacked := [], waiting := [], tries := 0 }) t) s1
      let s3 := { s2 with inWrites := s2.inWrites.filter (fun e => e.1 / 2 ^ 16 != d) }
      let s4 := (((s3.setO (peerObj n 1) 0).setO (peerObj n 2) 0xFF).incO (peerObj n 9) 1).logEv 0x1B 5 (6 + n) {}
      let s5 := s4.setPeer n PeerLink.reset
      ((s.pairPartitions d).foldl (fun t p => t.raise ⟨3, p, 0, none, true⟩) s5).settle)

end Sys2Proof.Machine
end

