-- ==== Sys2Proof/Machine/CodeObj.lean ====
section
/-! DEFINITION. The code-object container: header, sections, directory, core programs, buckets, variants, and the checks of a
load (R339 to R346, R348, R353). An image is its bytes. -/

namespace Sys2Proof.Machine

/-! ### Header and sections (R339) -/

/-- Header word `w` of an image. -/
def hdr (img : List Byte) (w : Nat) : Nat := wordAt img (4 * w)

/-- TOTAL_SIZE. -/
def imgTotal (img : List Byte) : Nat := hdr img 2
/-- OWN. -/
def imgOwn (img : List Byte) : Nat := nfld (hdr img 3) 0 2
/-- RT. -/
def imgRt (img : List Byte) : Bool := nbit (hdr img 3) 2
/-- PRED. -/
def imgPred (img : List Byte) : Bool := nbit (hdr img 3) 3
/-- IDEMP. -/
def imgIdemp (img : List Byte) : Bool := nbit (hdr img 3) 4
/-- NM1. -/
def imgNm1 (img : List Byte) : Bool := nbit (hdr img 3) 5
/-- WIDTHS: bit c is set where width code c is declared. -/
def imgWidths (img : List Byte) : Nat := nfld (hdr img 3) 6 3
/-- N, the logical cores. -/
def imgN (img : List Byte) : Nat := nfld (hdr img 3) 9 5 + 1
/-- NDIM. -/
def imgNdim (img : List Byte) : Nat := nfld (hdr img 3) 14 4
/-- TILED. -/
def imgTiled (img : List Byte) : Bool := nbit (hdr img 3) 18
/-- NCH. -/
def imgNch (img : List Byte) : Nat := nfld (hdr img 4) 0 12
/-- NSECT. -/
def imgNsect (img : List Byte) : Nat := nfld (hdr img 5) 0 8
/-- MODEL_VERSION. -/
def imgVersion (img : List Byte) : Nat := hdr img 7

/-- A section: type, offset and size. -/
structure Section where
  typ : Nat
  off : Nat
  size : Nat
  deriving DecidableEq, Repr

/-- The section table. -/
def imgSections (img : List Byte) : List Section :=
  (List.range (imgNsect img)).map (fun (i : Nat) =>
    let a := hdr img 6 + 16 * i
    ⟨nfld (wordAt img a) 0 8, wordAt img (a + 4), wordAt img (a + 8)⟩)

/-- The bytes of the section of a type; none if it is absent. -/
def imgSection (img : List Byte) (t : Nat) : List Byte :=
  match (imgSections img).find? (fun x => x.typ == t) with
  | some x => (img.drop x.off).take x.size
  | none => []

/-- The image has a section of a type. -/
def imgHas (img : List Byte) (t : Nat) : Bool := (imgSections img).any (fun x => x.typ == t)

/-- Two byte ranges share a byte. -/
def rangesMeet (a n b m : Nat) : Bool := decide (a < b + m) && decide (b < a + n)

/-- No two ranges of a list share a byte. -/
def apart : List (Nat × Nat) → Bool
  | [] => true
  | r :: l => !(l.any (fun q => rangesMeet r.1 r.2 q.1 q.2)) && apart l

/-- R339 for sections: the table and the sections stand where they may. -/
def sectionsOk (img : List Byte) : Bool :=
  let total := imgTotal img
  let l := imgSections img
  let reserved := (List.range (imgNsect img)).all (fun i =>
    nfld (wordAt img (hdr img 6 + 16 * i)) 8 24 == 0 && wordAt img (hdr img 6 + 16 * i + 12) == 0)
  decide (total % 64 = 0) && reserved &&
    l.all (fun x => decide (1 ≤ x.typ) && decide (x.typ ≤ 7) && x.off % 64 == 0 && decide (x.off + x.size + 4 ≤ total) &&
      (l.filter (fun y => y.typ == x.typ)).length == 1) &&
    decide (hdr img 6 + 16 * imgNsect img + 4 ≤ total) &&
    apart ((0, 128) :: (hdr img 6, 16 * imgNsect img) :: l.map (fun x => (x.off, x.size))) &&
    imgHas img 2 && imgHas img 3 && (imgNdim img == 0 || imgHas img 1) && (!imgTiled img || imgHas img 6)

/-! ### Dimensions and buckets (R340, R341) -/

/-- The bucket sizes of dimension `d`. -/
def imgBuckets (img : List Byte) (d : Nat) : List Nat :=
  let r := (imgSection img 1).drop (36 * d)
  (List.range (nfld (wordAt r 0) 0 4)).map (fun (i : Nat) => wordAt r (4 + 4 * i))

/-- The tuple count of an image. -/
def imgTuples (img : List Byte) : Nat :=
  ((List.range (imgNdim img)).map (fun d => (imgBuckets img d).length)).prod

/-- Strictly ascending. -/
def ascending : List Nat → Bool
  | a :: b :: r => decide (a < b) && ascending (b :: r)
  | _ => true

/-- R340. -/
def dimsOk (img : List Byte) : Bool :=
  let n := imgNdim img
  decide (36 * n ≤ (imgSection img 1).length) &&
    (List.range n).all (fun d =>
      let r := (imgSection img 1).drop (36 * d)
      let b := imgBuckets img d
      decide (1 ≤ b.length) && decide (b.length ≤ 8) && nfld (wordAt r 0) 4 28 == 0 && b.all (fun v => v != 0) &&
        ascending b && (List.range 8).all (fun i => decide (i < b.length) || wordAt r (4 + 4 * i) == 0)) &&
    decide (imgTuples img ≤ 64)

/-- R341: the bucket of a value in a dimension. -/
def bucketOf (sizes : List Nat) (v : Nat) : Option Nat := sizes.findIdx? (fun z => decide (v ≤ z))

/-- The tuple index of bucket indexes, dimension 0 first (R340). -/
def tupleIndex : List Nat → List Nat → Nat
  | b :: r, n :: m => b + n * tupleIndex r m
  | _, _ => 0

/-- The bucket indexes of dimension values, or the first dimension that has none. -/
def bucketsOf (img : List Byte) (vals : List Nat) : List Nat × Option Nat :=
  let l := (List.range (imgNdim img)).map (fun (d : Nat) => bucketOf (imgBuckets img d) (vals.getD d 0))
  (l.map (fun b => b.getD 0), l.findIdx? (fun b => b.isNone))

/-- The tuple of bucket indexes. -/
def tupleOf (img : List Byte) (bs : List Nat) : Nat :=
  tupleIndex bs ((List.range (imgNdim img)).map (fun d => (imgBuckets img d).length))

/-! ### Directory (R343) -/

/-- A directory entry. -/
structure DirEntry where
  lcore : Nat
  wcode : Nat
  nm1 : Bool
  tuple : Nat
  poff : Nat
  psize : Nat
  spadKib : Nat
  cmKib : Nat
  deriving DecidableEq, Repr

/-- The directory entries. -/
def imgDir (img : List Byte) : List DirEntry :=
  let d := imgSection img 2
  (List.range (d.length / 16)).map (fun (i : Nat) =>
    let w := wordAt d (16 * i)
    ⟨nfld w 0 5, nfld w 5 2, nbit w 7, nfld w 8 6, wordAt d (16 * i + 4), wordAt d (16 * i + 8),
      natAt d (16 * i + 12) 2, natAt d (16 * i + 14) 2⟩)

/-- The entry for a logical core, width code, count and tuple. -/
def dirFind (img : List Byte) (lc wc : Nat) (nm1 : Bool) (t : Nat) : Option DirEntry :=
  (imgDir img).find? (fun e => e.lcore == lc && e.wcode == wc && e.nm1 == nm1 && e.tuple == t)

/-- R343. -/
def directoryOk (img : List Byte) : Bool :=
  let d := imgSection img 2
  let l := imgDir img
  let n := imgN img
  d.length % 16 == 0 &&
    (List.range (d.length / 16)).all (fun i => nfld (wordAt d (16 * i)) 14 18 == 0) &&
    (List.range (imgTuples img)).all (fun t =>
      (List.range n).all (fun c => (dirFind img c 0 false t).isSome) &&
        (!imgNm1 img || (List.range (n - 1)).all (fun c => (dirFind img c 0 true t).isSome))) &&
    l.all (fun e =>
      nbit (imgWidths img) e.wcode && decide (e.lcore < if e.nm1 then n - 1 else n) && (!e.nm1 || imgNm1 img) &&
        decide (e.tuple < imgTuples img) && decide (e.spadKib ≤ 2048) && decide (e.cmKib ≤ 4096) &&
        decide (e.poff + e.psize ≤ (imgSection img 3).length) &&
        (l.filter (fun f => f.lcore == e.lcore && f.wcode == e.wcode && f.nm1 == e.nm1 && f.tuple == e.tuple)).length == 1)

/-! ### Core programs (R344) -/

/-- The bytes of a core program in a PROG section. -/
def progOf (prog : List Byte) (e : DirEntry) : List Byte := (prog.drop e.poff).take e.psize

/-- Entry count of part `h`. -/
def partCount (p : List Byte) (h : Nat) : Nat := natAt p (2 * h) 2

/-- Bytes of one entry of part `h`. -/
def partEntry (h : Nat) : Nat := [32, 32, 32, 32, 32, 16, 32, 40, 4, 4, 4, 4, 4, 4, 16].getD h 0

/-- The offset of part `h` in its program: parts stand in order, each at a multiple of 64. -/
def partOff (p : List Byte) (h : Nat) : Nat :=
  (List.range h).foldl (fun a i => a + cdiv (partCount p i * partEntry i) 64 * 64) 64

/-- The 32-bit words of entry `i` of part `h`. -/
def partWords (p : List Byte) (h i : Nat) : List W32 :=
  (List.range (partEntry h / 4)).map (fun (w : Nat) => BitVec.ofNat 32 (wordAt p (partOff p h + i * partEntry h + 4 * w)))

/-- The entries of part `h` as words. -/
def partAll (p : List Byte) (h : Nat) : List (List W32) := (List.range (partCount p h)).map (partWords p h)

/-- A command from its eight words. -/
def cmdOfWords (w : List W32) : Cmd :=
  ⟨w.getD 0 0, w.getD 1 0, w.getD 2 0, w.getD 3 0, w.getD 4 0, w.getD 5 0, w.getD 6 0, w.getD 7 0⟩

/-- The commands of engine `e`. -/
def progCmds (p : List Byte) (e : Nat) : List Cmd := (partAll p e).map cmdOfWords

/-- The words of a placement record of R344. -/
structure Placement where
  src : Nat
  cm : Bool
  dst : Nat
  bytes : Nat
  deriving DecidableEq, Repr

/-- The placement records. -/
def progPlacements (p : List Byte) : List Placement :=
  (partAll p 14).map (fun w => ⟨(w.getD 0 0).toNat, bit (w.getD 1 0) 0, (w.getD 2 0).toNat, (w.getD 3 0).toNat⟩)

/-- The limit of part `h`, if it has one (R344; 32 commands per engine for RT = 1 under R325). -/
def partLimit (rt : Bool) (h : Nat) : Option Nat :=
  if h < 5 then (if rt then some 32 else none)
  else some ([63, 16, 63, 16, 16, 16, 16, 16, 8, 256].getD (h - 5) 0)

/-- A core program obeys R344. -/
def progOk (img : List Byte) (e : DirEntry) : Bool :=
  let p := progOf (imgSection img 3) e
  let rt := imgRt img
  decide (64 ≤ e.psize) && (List.range 17).all (fun i => natAt p (30 + 2 * i) 2 == 0) &&
    (List.range 15).all (fun h =>
      (match partLimit rt h with | some m => decide (partCount p h ≤ m) | none => true) &&
        (partCount p h == 0 || decide (partOff p h + partCount p h * partEntry h ≤ e.psize)) &&
        (rt || decide (h < 8) || h == 14 || partCount p h == 0)) &&
    (partAll p 14).all (fun w => fld (w.getD 1 0) 1 31 == 0) &&
    (progPlacements p).all (fun r => r.bytes != 0 && decide (r.src + r.bytes ≤ (imgSection img 5).length) &&
      decide (r.dst + r.bytes ≤ 1024 * if r.cm then e.cmKib else e.spadKib))

/-! ### Relocation entries (R348) -/

/-- A relocation entry: field offset within PROG, kind, logical core. -/
structure Reloc where
  off : Nat
  kind : Nat
  lcore : Nat
  deriving DecidableEq, Repr

/-- The relocation entries. -/
def imgRelocs (img : List Byte) : List Reloc :=
  let r := imgSection img 4
  (List.range (r.length / 8)).map (fun (i : Nat) =>
    ⟨nfld (wordAt r (8 * i)) 0 24, nfld (wordAt r (8 * i)) 24 4, nfld (wordAt r (8 * i + 4)) 0 5⟩)

/-- R348: kinds 0 to 3, fields inside PROG, and a kind 2 entry below every kind 3 entry. -/
def relocsOk (img : List Byte) : Bool :=
  let l := imgRelocs img
  (imgSection img 4).length % 8 == 0 &&
    l.all (fun r => decide (r.kind ≤ 3) && decide (r.off + 4 ≤ (imgSection img 3).length) && decide (r.lcore < imgN img) &&
      (r.kind != 3 || l.any (fun q => q.kind == 2 && q.off + 4 == r.off)))

/-- The PROG section with its relocations applied: bases of the logical cores' cluster memory, the hub SRAM region and the
DRAM address of the image. -/
def relocate (img : List Byte) (cmBase : Nat → Nat) (hub dram : Nat) : List Byte :=
  let prog := imgSection img 3
  let orig (o : Nat) : Nat := wordAt prog o
  (imgRelocs img).foldl (fun p r =>
    let v := orig r.off
    let add := match r.kind with
      | 0 => cmBase r.lcore
      | 1 => hub
      | 2 => dram % 2 ^ 32
      | _ => dram / 2 ^ 32 + (orig (r.off - 4) + dram % 2 ^ 32) / 2 ^ 32
    spliceBytes p r.off (leBytes 4 (v + add))) prog

/-! ### Verification of commands (R353, VERIFY) -/

/-- R128 for a command of engine `e`, but for the context table; and R161; and no view or descriptor 63, and OWN. -/
def cmdVerifies (own e : Nat) (c : Cmd) : Bool :=
  c.eng == e && decide (c.psel ≤ 8) && fld c.w0 27 5 == 0 && fld c.w1 0 16 != 0 && pairOk c.inq c.inN &&
    pairOk c.freeq c.freeN && pairOk c.outq c.outN && pairOk c.retq c.retN && c.outN == c.freeN && c.retN == c.inN &&
    !(c.outq == c.retq && c.outN != 0 && c.retN != 0) && c.opcodeOk && c.own == own &&
    (c.usesViews.zip ((List.range 4).map c.viewNo)).all (fun p => !p.1 || p.2 != 63) &&
    !((c.opc == 0x50 || c.opc == 0x51) && fld c.w3 6 6 == 63)

/-- The ME list of a core program: after a HOLD only commands that keep the bank, and no MARK until it drains. -/
def holdsOk : Bool → List Cmd → Bool
  | _, [] => true
  | held, c :: r =>
    let keeps := isMatrix c && c.init == 2
    if held && !keeps then false
    else if isMatrix c && c.hold then !c.markFlag && holdsOk true r
    else holdsOk false r

/-- Field offsets of kinds 2 and 3. -/
def dramFields (img : List Byte) : List Nat :=
  ((imgRelocs img).filter (fun r => decide (2 ≤ r.kind))).map (fun r => r.off)

/-- Stream descriptor `i` of a program with RT = 1 has its far side in DRAM. -/
def descInDram (img : List Byte) (e : DirEntry) (i : Nat) : Bool :=
  let p := progOf (imgSection img 3) e
  let w := partWords p 7 i
  let at_ := e.poff + partOff p 7 + 40 * i
  decide (sdAddr w < 0x200000000) || (dramFields img).any (fun o => o == at_ || o == at_ + 4)

/-- VERIFY of one core program. -/
def progVerifies (img : List Byte) (e : DirEntry) : Bool :=
  let p := progOf (imgSection img 3) e
  (List.range 5).all (fun g => (progCmds p g).all (cmdVerifies (imgOwn img) g)) && holdsOk false (progCmds p 0) &&
    (!imgRt img || (List.range (partCount p 7)).all (fun i => !descInDram img e i))

/-! ### The checks of a load (R353) -/

/-- FORMAT: MAGIC, MAJOR, reserved fields and field ranges. -/
def formatOk (img : List Byte) : Bool :=
  hdr img 0 == 0x424F435A && nfld (hdr img 1) 0 16 == 1 && nfld (hdr img 3) 19 13 == 0 && nfld (hdr img 4) 12 20 == 0 &&
    nfld (hdr img 5) 8 24 == 0 && (List.range 16).all (fun i => hdr img (16 + i) == 0) && nbit (imgWidths img) 0 &&
    decide (imgN img ≤ 24) && decide (imgNch img ≤ 2048) && decide (imgNdim img ≤ 8) && imgNsect img != 0 &&
    decide (imgNsect img ≤ 8) && !(imgTiled img && imgRt img)

/-- The first of the checks of R353 that needs no device state to fail: its error, or 0. -/
def imageError (own : Nat) (img : List Byte) : Nat :=
  if wordAt img (img.length - 4) ≠ crc32c (img.take (img.length - 4)) then 1
  else if ¬ formatOk img = true then 2
  else if imgTotal img ≠ img.length ∨ 512 * 2 ^ 20 < imgTotal img then 3
  else if imgOwn img ≠ own then 4
  else if ¬ sectionsOk img = true then 5
  else if ¬ dimsOk img = true then 6
  else if ¬ (directoryOk img && (imgDir img).all (progOk img)) = true then 7
  else if ¬ ((imgDir img).all (progVerifies img) && relocsOk img) = true then 8
  else 0

/-! ### Variants (R345, R346) -/

/-- The width code of a core that presents `w` columns. -/
def widthCode (w : Nat) : Nat := 32 - w

/-- The core count used for `m` cores in service, if the image has one: N, or N − 1 where NM1 is 1. -/
def countUsed (img : List Byte) (m : Nat) : Option (Nat × Bool) :=
  if m = imgN img then some (m, false) else if m + 1 = imgN img ∧ imgNm1 img = true ∧ m ≠ 0 then some (m, true) else none

/-- The key of a variant (R346): width codes of the logical cores, 3 beyond them, the count minus 1, NM1 and the tuple. -/
def variantKey (codes : List Nat) (nm1 : Bool) (tuple : Nat) : Nat :=
  ((List.range 24).map (fun (i : Nat) => codes.getD i 3 * 4 ^ i)).sum +
    ((codes.length + 31) % 32) * 2 ^ 48 + b01 nm1 * 2 ^ 53 + tuple * 2 ^ 54

/-- The variant of an image for cores of these width codes and a tuple: its key and, where it exists, its entries. -/
def variantOf (img : List Byte) (codes : List Nat) (tuple : Nat) : Nat × Option (List DirEntry) :=
  match countUsed img codes.length with
  | some (_, nm1) =>
    let l := codes.zipIdx.map (fun p => dirFind img p.2 p.1 nm1 tuple)
    (variantKey codes nm1 tuple, if l.all (fun e => e.isSome) then some (l.filterMap (fun e => e)) else none)
  | none => (variantKey codes (decide (codes.length < imgN img)) tuple, none)

/-! ### Logical queues (R347) -/

/-- An entry of the QUEUES section. -/
structure LQueue where
  q : Nat
  lcore : Nat
  depth : Nat
  genchk : Bool
  fwd : Bool
  target : Nat
  deriving DecidableEq, Repr

/-- The logical queues of an image. -/
def imgQueues (img : List Byte) : List LQueue :=
  let d := imgSection img 7
  (List.range (d.length / 8)).map (fun (i : Nat) =>
    let w := wordAt d (8 * i)
    ⟨nfld w 0 5, nfld w 5 5, nfld w 10 5, nbit w 15, nbit w 16, nfld w 17 5⟩)

end Sys2Proof.Machine
end

