-- ==== Sys2Proof/Machine/Mapping.lean ====
section
/-! DEFINITION. Mapping a variant onto cores (R345 to R349): physical queues, table entries and cluster memory, rewritten
commands, and the mapping's installation in the hub unit registers. -/

namespace Sys2Proof.Machine

/-! ### Images and configurations (R345) -/

/-- The bytes of the image a code-object slot holds in DRAM. -/
def State.imageOf (s : State) (k : Nat) : List Byte := s.bytes (s.o (slotObj k 0xC)) (s.o (slotObj k 5))

/-- The in-service cores of a context's CORE_MASK, ascending. -/
def State.configCores (s : State) (n : Nat) : List Nat := (s.ctxCores n).filter s.inService

/-- The width codes of cores. -/
def State.widthCodes (s : State) (cores : List Nat) : List Nat := cores.map (fun c => widthCode (s.core c).width)

/-- Every mapping in force but that of context `n`. -/
def State.otherMaps (s : State) (n : Nat) : List Mapped :=
  (s.maps.filter (fun p => p.1 != n)).filterMap (fun p => p.2)

/-! ### Queues (R347) -/

/-- The cluster queue a LOOP_GROUP object names: its cluster and queue; none where it names none. -/
def clusterQueue (v : Nat) : Option (Nat × Nat) := if v = 0xFFFF then none else some (nfld v 0 3, nfld v 3 5)

/-- The cluster queues that the groups in use name. -/
def State.groupQueues (s : State) : List (Nat × Nat) :=
  s.groupsInUse.flatMap (fun g => [5, 6, 7, 8].filterMap (fun b => clusterQueue (s.o (groupObj g b))))

/-- The lowest free queue of a unit: off, not named by a group, not taken. -/
def State.freeQueue (s : State) (u : Nat) (taken : List (Nat × Nat)) : Option Nat :=
  (List.range 31).find? (fun q => (s.hq u q).depth == 0 && !taken.contains (u, q))

/-- A free queue for each logical queue, in the order of the section; none where a cluster has too few. -/
def State.assignQueues (s : State) (cores : List Nat) (lqs : List LQueue) : Option (List (Nat × Nat × Nat)) :=
  lqs.foldl (fun acc l =>
    match acc with
    | none => none
    | some r =>
      let u := cores.getD l.lcore 0 / 4
      (s.freeQueue u (s.groupQueues ++ r.map (fun p => (p.2.1, p.2.2)))).map (fun q => r ++ [(l.q, u, q)])) (some [])

/-- The physical queue of a logical one on the unit of a core; a queue that the section does not list stands for itself. -/
def mapQueue (qs : List (Nat × Nat × Nat)) (q : Nat) : Nat :=
  match qs.find? (fun p => p.1 == q) with
  | some p => p.2.2
  | none => q

/-- The two configuration words of a logical queue (R290, R347). -/
def State.queueWords (s : State) (own : Nat) (lqs : List LQueue) (qs : List (Nat × Nat × Nat)) (l : LQueue) : W32 × W32 :=
  let at_ (q : Nat) : Nat × Nat := match qs.find? (fun p => p.1 == q) with | some p => p.2 | none => (0, q)
  let tgt := at_ l.target
  let w0 := l.depth + own * 2 ^ 17 + b01 l.genchk * 2 ^ 19 +
    (if l.fwd then 2 ^ 5 + s.devNum * 2 ^ 7 + tgt.1 * 2 ^ 9 + tgt.2 * 2 ^ 12 else 0)
  let w1 := match lqs.find? (fun m => m.fwd && m.target == l.q) with
    | some m => s.devNum + (at_ m.q).1 * 2 ^ 2 + (at_ m.q).2 * 2 ^ 5 + 2 ^ 10
    | none => 0
  (BitVec.ofNat 32 w0, BitVec.ofNat 32 w1)

/-! ### Numbers of a core (R347) -/

/-- The first `k` numbers below `limit` that are not in use. -/
def freeNumbers (limit : Nat) (used : List Nat) (k : Nat) : Option (List Nat) :=
  let l := ((List.range limit).filter (fun i => !used.contains i)).take k
  if l.length = k then some l else none

/-- A command with its queues, views, geometry, descriptor, channels and context rewritten. -/
def rewriteCmd (ctx first : Nat) (qs : List (Nat × Nat × Nat)) (vs gs ds : List Nat) (c : Cmd) : Cmd :=
  let q (w : W32) (b : Nat) : W32 := put32 w b 5 (mapQueue qs (fld w b 5))
  let pick (l : List Nat) (i : Nat) : Nat := l.getD i i
  let w2 := if c.opc = 0x60 then c.w2 else q (q (q (q c.w2 0) 8) 16) 24
  let w3v := c.usesViews.zipIdx.foldl (fun w p => if p.1 then put32 w (6 * p.2) 6 (pick vs (fld w (6 * p.2) 6)) else w) c.w3
  let w3 :=
    if c.opc = 0x60 then q c.w3 0
    else if c.opc = 0x50 ∨ c.opc = 0x51 then put32 w3v 6 6 (pick ds (fld c.w3 6 6))
    else w3v
  let chan (w : W32) (b : Nat) : W32 := put32 w b 11 ((fld w b 11 + first) % 2 ^ 11)
  let w4 := if c.opc = 0x13 then chan c.w4 0 else c.w4
  let w5 :=
    if isMatrix c then
      let w := chan c.w5 16
      if c.opc = 0x12 then put32 w 11 4 (pick gs (fld c.w5 11 4)) else w
    else if c.opc = 0x36 ∨ c.opc = 0x37 ∨ c.opc = 0x38 then chan c.w5 0
    else if c.opc = 0x3C then put32 c.w5 0 4 (pick gs (fld c.w5 0 4))
    else c.w5
  { c with w0 := put32 c.w0 16 6 ctx, w2 := w2, w3 := w3, w4 := w4, w5 := w5 }

/-- Word `w` of a table entry with a context number in its CTX field. -/
def putCtx (l : List W32) (w lo ctx : Nat) : List W32 := l.set w (put32 (l.getD w 0) lo 6 ctx)

/-- The lowest cluster-memory offset, a multiple of a region, at which `kib` KiB lie clear of the ranges in use. -/
def cmBaseFor (used : List (Nat × Nat)) (kib : Nat) : Option Nat :=
  ((List.range 64).map (fun i => i * 0x10000)).find? (fun b =>
    decide (b + 1024 * kib ≤ 0x400000) && used.all (fun p => !rangesMeet b (1024 * kib) p.1 p.2))

/-- The cluster-memory ranges of programs in a cluster. -/
def cmRanges (ps : List MapProg) (k : Nat) : List (Nat × Nat) :=
  (ps.filter (fun p => p.core / 4 == k && p.cmKib != 0)).map (fun p => (p.cmBase, 1024 * p.cmKib))

/-- Cluster-memory bases of the logical cores, lowest fit, in ascending logical core; none where one does not fit. -/
def allotCm (others : List MapProg) (cores : List Nat) (es : List DirEntry) : Option (List Nat) :=
  ((es.zip cores).foldl (fun acc p =>
    match acc with
    | none => none
    | some (l, used) =>
      let k := p.2 / 4
      match cmBaseFor (cmRanges others k ++ (used.filter (fun u => u.1 == k)).map (fun u => u.2)) p.1.cmKib with
      | some b => some (l ++ [b], if p.1.cmKib = 0 then used else (k, b, 1024 * p.1.cmKib) :: used)
      | none => none) (some (([] : List Nat), ([] : List (Nat × Nat × Nat))))).map (fun r => r.1)

/-- One core program mapped onto its core; none where the core has too few free entries (R347). -/
def mapProg (others : List MapProg) (ctx first : Nat) (qs : List (Nat × Nat × Nat)) (prog : List Byte) (e : DirEntry)
    (core cmBase : Nat) : Option MapProg :=
  let here := others.filter (fun p => p.core == core)
  let p := progOf prog e
  match freeNumbers 63 (here.flatMap (fun m => m.views.map (fun v => v.1))) (partCount p 5),
    freeNumbers 16 (here.flatMap (fun m => m.geos.map (fun v => v.1))) (partCount p 6),
    freeNumbers 63 (here.flatMap (fun m => m.descs.map (fun v => v.1))) (partCount p 7) with
  | some vs, some gs, some ds =>
    some { lcore := e.lcore, core := core
           cmds := (List.range 5).map (fun g => (progCmds p g).map (rewriteCmd ctx first qs vs gs ds))
           slots := (List.range 5).map (fun g => (partAll p (8 + g)).map (fun w => w.getD 0 0))
           views := vs.zip ((partAll p 5).map (fun w => putCtx w 0 26 ctx))
           geos := gs.zip ((partAll p 6).map (fun w => putCtx w 5 8 ctx))
           descs := ds.zip ((partAll p 7).map (fun w => putCtx w 1 25 ctx))
           spadKib := e.spadKib, cmBase := cmBase, cmKib := e.cmKib }
  | _, _, _ => none

/-- Every element of a list of options, if none is missing. -/
def allSome {α : Type} (l : List (Option α)) : Option (List α) :=
  if l.all (fun x => x.isSome) then some (l.filterMap (fun x => x)) else none

/-- The offset of the context's hub SRAM region (relocation kind 1), which the spec does not define, is a free value (log 26).
The mapping of a variant of slot `k`'s image for context `n` on `cores`, with the queues `qs`. -/
def State.mapVariant (s : State) (n k : Nat) (img : List Byte) (cores : List Nat) (key : Nat) (es : List DirEntry)
    (qs : List (Nat × Nat × Nat)) : Option Mapped :=
  let others := (s.otherMaps n).flatMap (fun m => m.progs)
  match allotCm others cores es with
  | none => none
  | some bases =>
    let prog := relocate img (fun l => bases.getD l 0) s.fresh.1 (s.o (slotObj k 0xC))
    let first := nfld (s.o (ctxObj n 9)) 0 11
    (allSome ((es.zip (cores.zip bases)).map (fun p => mapProg others n first qs prog p.1 p.2.1 p.2.2))).map (fun ps =>
      { slot := k, key := key, rt := imgRt img, progs := ps, queues := qs })

/-! ### Installation -/

/-- Table words in a core's tables of views, geometry entries and stream descriptors. -/
def putEntries (t : Tbl W32) (size : Nat) (l : List (Nat × List W32)) : Tbl W32 :=
  l.foldl (fun t e => t.setList 0 (e.1 * size) e.2) t

/-- The table entries of a mapped program are written to its core. -/
def State.installTables (s : State) (p : MapProg) : State :=
  let x := s.core p.core
  s.setCore p.core { x with views := putEntries x.views 4 p.views, geos := putEntries x.geos 8 p.geos
                            sdescs := putEntries x.sdescs 10 p.descs }

/-- The queues of a mapping are configured, targets before the sources that forward to them (R290, R347). -/
def State.installQueues (s : State) (own : Nat) (lqs : List LQueue) (qs : List (Nat × Nat × Nat)) : State :=
  let set (t : State) (l : LQueue) : State :=
    match qs.find? (fun p => p.1 == l.q) with
    | some p =>
      let w := s.queueWords own lqs qs l
      (t.configQueue p.2.1 p.2.2 1 w.2).configQueue p.2.1 p.2.2 0 w.1
    | none => t
  (lqs.filter (fun l => l.fwd)).foldl set ((lqs.filter (fun l => !l.fwd)).foldl set s)

/-- The queues of a mapping are switched off and emptied. -/
def State.dropQueues (s : State) (m : Mapped) : State :=
  m.queues.foldl (fun t p => t.setHq p.2.1 p.2.2 HQueue.reset) s

/-- Owner-map regions of a program's footprint: memory and region. -/
def MapProg.regions (p : MapProg) : List (Nat × Nat) :=
  (List.range (cdiv p.spadKib 32)).map (fun i => (p.core, i)) ++
    (List.range (cdiv p.cmKib 64)).map (fun i => (24 + p.core / 4, p.cmBase / 0x10000 + i))

/-- A region of a footprint comes to the owner; where its owner changes it is cleared first (R264, R349). -/
def State.takeRegion (s : State) (own : Nat) (r : Nat × Nat) : State :=
  (s.ownerMapWrite r.1 r.2 (BitVec.ofNat 32 (own + 4))).clearRegion r.1 r.2

/-- The placement records of a program are carried out from the image's DATA section (R349). -/
def State.place_ (s : State) (img : List Byte) (p : MapProg) (recs : List Placement) : State :=
  let data := imgSection img 5
  recs.foldl (fun t r =>
    let a := if r.cm then cmAddr (p.core / 4) (p.cmBase + r.dst) else spadAddr p.core r.dst
    t.sramWrite a ((data.drop r.src).take r.bytes)) s

/-- The placement records of the directory entry a mapped program came from. -/
def placementsOf (img : List Byte) (e : DirEntry) : List Placement := progPlacements (progOf (imgSection img 3) e)

/-- A mapping's memory: its footprint comes to the owner, and its data is placed. -/
def State.placeAll (s : State) (own : Nat) (img : List Byte) (es : List DirEntry) (m : Mapped) : State :=
  let s1 := m.progs.foldl (fun t p => p.regions.foldl (fun t r => t.takeRegion own r) t) s
  (m.progs.zip es).foldl (fun t p => t.place_ img p.1 (placementsOf img p.2)) s1

end Sys2Proof.Machine
end

