-- ==== Sys2Proof/Machine/Admission.lean ====
section
/-! DEFINITION. Admission of frame plans (R288, R314, R315, R476, R556), hold windows (R327), and the plan's way into the
inactive banks (R137). -/

namespace Sys2Proof.Machine

/-! ### The planned commands (R314) -/

/-- A real-time command of the plan: core, engine, issue time, whether it issues inside its slot, and the operands bound
for each buffer its views can select. -/
structure Planned where
  core : Nat
  e : Nat
  cmd : Cmd
  i : Nat
  inSlot : Bool
  deriving DecidableEq, Repr

/-- R(x) = I(x) + B(x). -/
def Planned.r (p : Planned) : Nat := p.i + p.cmd.budget

/-- The commands of an engine in groups that SLOT_END closes; the commands after the last SLOT_END stand apart. -/
def slotGroups : List Cmd → List (List Cmd) × List Cmd
  | [] => ([], [])
  | c :: r =>
    let q := slotGroups r
    if c.slotEnd then ([c] :: q.1, q.2)
    else match q.1 with
      | g :: gs => ((c :: g) :: gs, q.2)
      | [] => ([], c :: q.2)

/-- The commands a program runs in every frame: all but the HINITs that seed its rings (DEDUCED, log 27). -/
def MapProg.frameCmds (p : MapProg) (e : Nat) : List Cmd := (p.cmds.getD e []).filter (fun c => c.opc != 0x60)

/-- START and LEN of a slot word in cycles. -/
def slotCycles (w : W32) : Nat × Nat := (4 * fld w 0 16, 4 * fld w 16 16)

/-- The used slots of an engine of a program. -/
def MapProg.usedSlots (p : MapProg) (e : Nat) : List (Nat × Nat) :=
  ((p.slots.getD e []).map slotCycles).takeWhile (fun w => w.2 != 0)

/-- The planned commands of an engine of a program. -/
def MapProg.planned (p : MapProg) (e : Nat) : List Planned :=
  ((slotGroups (p.frameCmds e)).1.zip (p.usedSlots e)).flatMap (fun gs =>
    gs.1.map (fun c =>
      let i := 20 + gs.2.1 + 4 * c.at_
      ⟨p.core, e, c, i, decide (i < 20 + gs.2.1 + gs.2.2)⟩))

/-- The commands of a queue are planned in the order in which they stand in it, since the engine takes them in that order. -/
def queueAscends (l : List Planned) : Bool := (l.zip (l.drop 1)).all (fun p => decide (p.1.i ≤ p.2.i))

/-- Each used slot of an engine is closed by a command, and each command has a slot. -/
def MapProg.slotsClosed (p : MapProg) (e : Nat) : Bool :=
  (slotGroups (p.frameCmds e)).1.length == (p.usedSlots e).length && (slotGroups (p.frameCmds e)).2.isEmpty

/-- Insertion of an element in a list ordered by a key; equal keys keep their order. -/
def insertBy {α : Type} (key : α → Nat) (x : α) : List α → List α
  | [] => [x]
  | y :: r => if key x < key y then x :: y :: r else y :: insertBy key x r

/-- A list ordered by a key. -/
def sortBy {α : Type} (key : α → Nat) (l : List α) : List α := l.foldl (fun acc x => insertBy key x acc) []

/-- All programs of a plan. -/
def progsOf (ms : List Mapped) : List MapProg := ms.flatMap (fun m => m.progs)

/-- The plan of a core's engine: the planned commands of every program on it, in order of issue. -/
def engineClaims (ms : List Mapped) (core e : Nat) : List Planned :=
  sortBy Planned.i (((progsOf ms).filter (fun p => p.core == core)).flatMap (fun p => p.planned e))

/-- Every planned command, in the order of core, engine and issue (R292). -/
def planOf (ms : List Mapped) : List Planned :=
  (List.range 24).flatMap (fun c => (List.range 5).flatMap (fun e => engineClaims ms c e))

/-- The slots of a core's engine, ascending. -/
def slotTable (ms : List Mapped) (core e : Nat) : List (Nat × Nat) :=
  sortBy (fun w => w.1) (((progsOf ms).filter (fun p => p.core == core)).flatMap (fun p => p.usedSlots e))

/-! ### Operands of a planned command -/

/-- The core with the tables of the programs mapped to it. -/
def coreWith (x : Core) (ms : List Mapped) (core : Nat) : Core :=
  ((progsOf ms).filter (fun p => p.core == core)).foldl (fun x p =>
    { x with views := putEntries x.views 4 p.views, geos := putEntries x.geos 8 p.geos
             sdescs := putEntries x.sdescs 10 p.descs }) x

/-- The operands of a command for each buffer of its rings (R163, R288). -/
def boundsOf (x : Core) (c : Cmd) : List Bound :=
  let ring := ((c.usesViews.zip ((List.range 4).map c.viewNo)).filter (fun p => p.1 && x.viewHsel p.2 != 0)).map
    (fun p => fld (x.viewWord p.2 1) 21 4)
  (List.range (ring.foldl max 0 + 1)).map (fun (b : Nat) => x.bind c (List.replicate 32 (BitVec.ofNat 32 b)))

/-- The feed end of a matrix command after its issue: t_RAMP counts 32 on a FILL_MODE = 0 core, and 0 where RAMP_EXEMPT is set
(R124). -/
def feedOf (x : Core) (c : Cmd) : Nat := ((x.bind c []).time (if x.fillMode || c.rampExempt then 0 else 32)).2

/-- R132: command `q` of an engine may issue at its time behind command `p`, the one before it (for a stream engine, the
fourth before it). -/
def successorOk (x : Core) (p q : Planned) : Bool :=
  decide (p.r ≤ q.i) ||
    (p.e == 0 && isMatrix p.cmd && isMatrix q.cmd && (p.cmd.opc == 0x11) == (q.cmd.opc == 0x11) &&
      (x.bind p.cmd []).kLen != 0 && decide (p.i + feedOf x p.cmd ≤ q.i))

/-- The commands of an engine, in order of issue, issue no earlier than R132 allows. -/
def engineOrderOk (x : Core) (e : Nat) (l : List Planned) : Bool :=
  (l.zip (l.drop (if e = 2 ∨ e = 3 then 4 else 1))).all (fun p => successorOk x p.1 p.2)

/-- Condition 4 of R314. -/
def State.slotsOk (s : State) (ms : List Mapped) : Bool :=
  (List.range 24).all (fun c =>
    let x := coreWith (s.core c) ms c
    let ps := (progsOf ms).filter (fun p => p.core == c)
    ps.isEmpty ||
    (List.range 5).all (fun e =>
      let t := slotTable ms c e
      let l := engineClaims ms c e
      ps.all (fun p => p.slotsClosed e && queueAscends (p.planned e)) && decide (t.length ≤ 16) && tableOk s.period t &&
        t.all (fun w => decide (20 + w.1 + w.2 ≤ s.deadline)) && l.all (fun p => p.inSlot) && engineOrderOk x e l))

/-! ### Handles (conditions 1 to 3 and 6) -/

/-- Max latency of a handle from a queue of unit `u` to the gates of unit `v` (R298). -/
def pathLatency (u v : Nat) : Nat :=
  if u = v then 12 else if u = hubUnit ∨ v = hubUnit then 40 else if u / 3 = v / 3 then 28 else 72

/-- Where a push to queue `q` of unit `u` arrives: device, unit, queue and latency. -/
def State.arrivalOf (s : State) (u q : Nat) : Nat × Nat × Nat × Nat :=
  let x := s.hq u q
  if x.isForward then
    let d := fld x.w0 7 2
    (d, fld x.w0 9 3, fld x.w0 12 5, if d = s.devNum then pathLatency u (fld x.w0 9 3) else 480)
  else (s.devNum, u, q, 12)

/-- A push or a pop of the plan. -/
structure HandleMove where
  unit : Nat
  q : Nat
  /-- Issue time of a pop; R of a push. -/
  t : Nat
  lat : Nat
  deriving DecidableEq, Repr

/-- The pops of a command. -/
def Planned.pops (p : Planned) : List HandleMove :=
  let u := p.core / 4
  (if p.cmd.inq = 31 then [] else List.replicate p.cmd.inN ⟨u, p.cmd.inq, p.i, 0⟩) ++
    (if p.cmd.freeq = 31 then [] else List.replicate p.cmd.freeN ⟨u, p.cmd.freeq, p.i, 0⟩)

/-- Queue and count of the pushes of a command. -/
def pushesOf (c : Cmd) : List (Nat × Nat) :=
  (if c.outq = 31 then [] else [(c.outq, c.outN)]) ++ (if c.retq = 31 then [] else [(c.retq, c.retN)])

/-- The pushes of a command, where they arrive on this device. -/
def State.pushesFrom (s : State) (p : Planned) : List HandleMove :=
  (pushesOf p.cmd).flatMap (fun q =>
    let a := s.arrivalOf (p.core / 4) q.1
    if a.1 = s.devNum then List.replicate q.2 ⟨a.2.1, a.2.2.1, p.r, a.2.2.2⟩ else [])

/-- Handles that the HINITs of a plan seed in queue `q` of unit `u`. -/
def State.seeded (s : State) (ms : List Mapped) (u q : Nat) : Nat :=
  ((progsOf ms).map (fun p =>
    (((p.cmds.flatMap (fun l => l)).filter (fun c => c.opc == 0x60)).map (fun c =>
      let a := s.arrivalOf (p.core / 4) (fld c.w3 0 5)
      if a.1 = s.devNum ∧ a.2.1 = u ∧ a.2.2.1 = q then fld c.w3 5 4 + 1 else 0)).sum)).sum

/-- The pairing of condition 2 for one queue holding `h` handles at frame start: pop `j` takes the push `j − h` of its
frame, or of a frame before. -/
def pairingOk (period h : Nat) (pops pushes : List HandleMove) : Bool :=
  let n := pushes.length
  pops.length == n &&
    pops.zipIdx.all (fun p =>
      let k := (p.2 : Int) - (h : Int)
      let back := if k < 0 ∧ n ≠ 0 then ((-k).toNat + n - 1) / n else 0
      match pushes[(k + (back * n : Nat)).toNat]? with
      | some y => decide ((y.t : Int) + (y.lat : Int) ≤ (p.1.t : Int) + ((back * period : Nat) : Int))
      | none => false)

/-- The cluster queue that sub-index `b` of group `g` names. -/
def State.groupQueue (s : State) (g b : Nat) : Option (Nat × Nat) := clusterQueue (s.o (groupObj g b))

/-- The queue is fed by a source that the plan does not hold: the hub, another device, or a window's announcements. -/
def State.fedFromOutside (s : State) (u q : Nat) : Bool :=
  let x := s.hq u q
  (x.sen && (fld x.w1 0 2 != s.devNum || fld x.w1 2 3 == hubUnit)) ||
    (List.range 64).any (fun n => bit (s.win n 0) 31 && fld (s.win n 1) 0 5 == q && s.windowCluster n == u)

/-- Conditions 1, 2, 3 and 6 for the groups `gs`. The hub pops one handle per frame from each of a group's two LOCAL queues
(R306, R309), which must receive one. -/
def State.handlesOk (s : State) (ms : List Mapped) (gs : List Nat) (plan : List Planned) : Bool :=
  let pops := sortBy HandleMove.t (plan.flatMap Planned.pops)
  let pushes := sortBy HandleMove.t (plan.flatMap s.pushesFrom)
  let popsAt (u q : Nat) : List HandleMove := pops.filter (fun m => m.unit == u && m.q == q)
  let into := gs.filterMap (fun g => s.groupQueue g 5)
  let free := gs.filterMap (fun g => s.groupQueue g 8)
  let sources := gs.filterMap (fun g => s.groupQueue g 7)
  let cond1 := into.all (fun k => (popsAt k.1 k.2).length == 1 &&
    (popsAt k.1 k.2).all (fun m => decide (s.ingressClose + 600 ≤ m.t)))
  let cond1f := free.all (fun k => (popsAt k.1 k.2).length == 1)
  let out := plan.flatMap (fun p => ((pushesOf p.cmd).filter (fun q => q.2 != 0)).map (fun q => (p.core / 4, q.1, p.r)))
  let cond3 := sources.all (fun k => out.all (fun o => o.1 != k.1 || o.2.1 != k.2 || decide (o.2.2 + 500 ≤ s.deadline)))
  let cond6 := gs.all (fun g =>
    (match s.groupQueue g 5 with | some k => !(popsAt k.1 k.2).isEmpty | none => false) &&
      (match s.groupQueue g 7 with | some k => out.any (fun o => o.1 == k.1 && o.2.1 == k.2) | none => false))
  let units := (List.range 6).flatMap (fun u => (List.range 31).map (fun q => (u, q)))
  let cond2 := units.all (fun k =>
    into.contains k || free.contains k || s.fedFromOutside k.1 k.2 ||
      pairingOk s.period (s.seeded ms k.1 k.2) (popsAt k.1 k.2) (pushes.filter (fun m => m.unit == k.1 && m.q == k.2)))
  let cond2h := gs.all (fun g => [1, 2].all (fun i =>
    (pushes.filter (fun m => m.unit == hubUnit && m.q == 4 * g + i)).length == 1))
  cond1 && cond1f && cond2 && cond2h && cond3 && cond6

/-- The smallest slack over the groups: DEADLINE_NS minus the latest R(z) + t_EGR; DEADLINE_NS where no group is in use. -/
def State.slackOf (s : State) (gs : List Nat) (plan : List Planned) : Int :=
  let slack (g : Nat) : Int :=
    match s.groupQueue g 7 with
    | some k =>
      let rs := (plan.filter (fun p => p.core / 4 == k.1 && (pushesOf p.cmd).any (fun q => q.1 == k.2 && q.2 != 0))).map
        Planned.r
      (s.deadline : Int) - ((rs.foldl max 0 + 500 : Nat) : Int)
    | none => (s.deadline : Int)
  (gs.map slack).foldl min (s.deadline : Int)

/-! ### Stream budgets (condition 5) -/

/-- The far port of a place, and t_FL from a core (R260, R298): the core's own port of its cluster memory, number `core`;
the hub port of another cluster memory k, number 24 + k; hub SRAM, number 30. -/
def Place.farPort (core : Nat) : Place → Option (Nat × Nat)
  | .cm k _ => some (if k = core / 4 then core else 24 + k, if k = core / 4 then 16 else if k / 3 = core / 12 then 40 else 96)
  | .hubSram _ => some (30, 64)
  | _ => none

/-- The far port of an address. -/
def State.farPort (s : State) (core a : Nat) : Option (Nat × Nat) := (s.place a).farPort core

/-- n_g of a stream command: the larger of its local granules and its distinct far granules, over every buffer. -/
def streamGranules (x : Core) (c : Cmd) : Nat :=
  ((boundsOf x c).map (fun b => max b.localPieces.length b.farPieces.length)).foldl max 0

/-- A stream command with its far port, t_FL and n_g. -/
def State.streamLoad (s : State) (ms : List Mapped) (p : Planned) : Option (Nat × Nat × Nat) :=
  if p.cmd.opc = 0x50 ∨ p.cmd.opc = 0x51 then
    let x := coreWith (s.core p.core) ms p.core
    (s.farPort p.core (sdAddr (x.bind p.cmd []).sdesc)).map (fun t => (t.1, t.2, streamGranules x p.cmd))
  else none

/-- Two planned commands are outstanding at one time. -/
def overlapInTime (p q : Planned) : Bool := decide (p.i < q.r) && decide (q.i < p.r)

/-- The link a real-time window write to another device crosses, if one in UP faces it, and its granules. -/
def State.peerLoad (s : State) (p : Planned) : Option (Option Nat × Nat) :=
  if p.cmd.opc = 0x54 ∧ fld p.cmd.w3 12 2 ≠ s.devNum then some (s.linkTo (fld p.cmd.w3 12 2), p.cmd.granules) else none

/-- A stream command with the load it puts on a far port, where its composer knows it. -/
abbrev KnownLoad := Planned × Nat × Nat × Nat

/-- The load of a planned command: the known one, else that of its tables. -/
def State.loadOf (s : State) (ms : List Mapped) (known : List KnownLoad) (p : Planned) : Option (Nat × Nat × Nat) :=
  match known.find? (fun k => k.1 == p) with
  | some k => some k.2
  | none => s.streamLoad ms p

/-- Condition 5 of R314, with R288 for streams and R476 for window writes to another device. -/
def State.budgetsOk (s : State) (ms : List Mapped) (plan : List Planned) (known : List KnownLoad) : Bool :=
  let loads := plan.zipIdx.filterMap (fun p => (s.loadOf ms known p.1).map (fun l => (p.2, p.1, l)))
  let peers := plan.zipIdx.filterMap (fun p => (s.peerLoad p.1).map (fun l => (p.2, p.1, l)))
  loads.all (fun a =>
    let nw := ((loads.filter (fun b => b.1 != a.1 && b.2.2.1 == a.2.2.1 && overlapInTime a.2.1 b.2.1)).map
      (fun b => b.2.2.2.2)).sum
    decide (8 + a.2.2.2.1 + a.2.2.2.2 + nw ≤ a.2.1.cmd.budget)) &&
  peers.all (fun a =>
    let nw := ((peers.filter (fun b => b.1 != a.1 && b.2.2.1 == a.2.2.1 && overlapInTime a.2.1 b.2.1)).map
      (fun b => b.2.2.2)).sum
    decide (8 + 2 * 480 + 12 * (a.2.2.2 + nw) ≤ a.2.1.cmd.budget))

/-- A real-time handle or window write crosses a link with LONG = 1, or goes to a device that no link in UP faces. -/
def State.peerBarred (s : State) (plan : List Planned) : Bool :=
  let bad (d : Nat) : Bool := match s.linkTo d with | some n => s.o (peerObj n 4) == 1 | none => true
  plan.any (fun p =>
    (p.cmd.opc == 0x54 && fld p.cmd.w3 12 2 != s.devNum && bad (fld p.cmd.w3 12 2)) ||
      (pushesOf p.cmd).any (fun q =>
        let a := s.arrivalOf (p.core / 4) q.1
        q.2 != 0 && a.1 != s.devNum && bad a.1))

/-! ### The decision (R315, R556) -/

/-- ADMIT_RESULT of a plan: 1 admitted, else the lowest code of the conditions it fails. Its queues are configured in
`s`. -/
def State.admitCode (s : State) (ms : List Mapped) (gs : List Nat) (known : List KnownLoad := []) : Nat :=
  let plan := planOf ms
  if !s.handlesOk ms gs plan then 2
  else if !s.slotsOk ms then 3
  else if s.period < s.deadline + 4000 then 4
  else if plan.any (fun p => decide (s.period < p.i + watchOf p.cmd + 3000)) then 6
  else if s.peerBarred plan then 7
  else if !s.budgetsOk ms plan known then 8
  else 1

/-- The real-time mappings in force. -/
def State.rtMaps (s : State) : List Mapped := (s.maps.filterMap (fun p => p.2)).filter (fun m => m.rt)

/-- The groups that admission counts: those in use while LOOP_ENABLE is 1 (DEDUCED, log 28). -/
def State.admitGroups (s : State) : List Nat := if s.o 0x400001 = 1 then s.groupsInUse else []

/-- Admission of the plan of the real-time mappings in force: ADMIT_RESULT, and on success ADMIT_SLACK_NS, are set. -/
def State.admitted (s : State) : State × Bool :=
  let gs := s.admitGroups
  let code := s.admitCode s.rtMaps gs
  let s1 := s.setO 0x400008 code
  if code = 1 then (s1.setO 0x400009 (trunc 32 (s.slackOf gs (planOf s.rtMaps))), true) else (s1, false)

/-! ### Hold windows and the plan's tables (R327, R137) -/

/-- One more interval after those gathered, the last of them first; it joins the last where they are less than `gap` apart. -/
def mergeInto (gap : Nat) : List (Nat × Nat) → Nat × Nat → List (Nat × Nat)
  | [], w => [w]
  | p :: r, w => if w.1 < p.2 + gap then (p.1, max p.2 w.2) :: r else w :: p :: r

/-- Intervals ordered by their starts, those less than `gap` apart merged. -/
def mergeNear (gap : Nat) (l : List (Nat × Nat)) : List (Nat × Nat) := (l.foldl (mergeInto gap) []).reverse

/-- The gap between two adjacent windows. -/
def gaps : List (Nat × Nat) → List Nat
  | p :: q :: r => (q.1 - p.2) :: gaps (q :: r)
  | _ => []

/-- The adjacent windows number `k` and `k + 1` merged. -/
def mergeAt : Nat → List (Nat × Nat) → List (Nat × Nat)
  | 0, p :: q :: r => (p.1, max p.2 q.2) :: r
  | k + 1, p :: r => p :: mergeAt k r
  | _, l => l

/-- While more than eight windows remain, the two with the shortest gap between them are merged. -/
def mergeToEight : Nat → List (Nat × Nat) → List (Nat × Nat)
  | 0, l => l
  | fuel + 1, l =>
    if l.length ≤ 8 then l
    else
      let g := gaps l
      mergeToEight fuel (mergeAt (g.findIdx (fun x => x == g.foldl min (g.headD 0))) l)

/-- The hold windows of a core, in cycles after the core frame tick. -/
def holdWindows (ms : List Mapped) (core : Nat) : List (Nat × Nat) :=
  let l := sortBy (fun w => w.1) (((List.range 5).flatMap (fun e => engineClaims ms core e)).map (fun p => (p.i - 20, p.r - 20)))
  let m := mergeNear 64 l
  mergeToEight m.length m

/-- A table word from a start and an end in cycles. -/
def windowWord (w : Nat × Nat) : W32 := BitVec.ofNat 32 (w.1 / 4 + (cdiv w.2 4 - w.1 / 4) * 2 ^ 16)

/-- Sixteen or eight entries of a table, the rest unused. -/
def tableWords (n : Nat) (l : List (Nat × Nat)) : List W32 :=
  (List.range n).map (fun (i : Nat) => match l[i]? with | some w => windowWord w | none => 0)

/-- The plan of one core enters its inactive banks and a swap becomes pending (R137, R300, R314). -/
def State.loadCorePlan (s : State) (ms : List Mapped) (c : Nat) : State :=
  let x := s.core c
  let b := 1 - x.frameActive
  let x1 := { (x.mapEngines (fun e y =>
      { y with slots := y.slots.setList 0 (b * 16) (tableWords 16 ((slotTable ms c e).map (fun w => (w.1, w.1 + w.2)))) })) with
    rtHold := x.rtHold.setList 0 (b * 8) (tableWords 8 (holdWindows ms c))
    framePeriod := s.period }
  (s.setCore c x1).frameSwapWrite c

/-- A plan enters every core of partition 0. -/
def State.loadPlan (s : State) : State := (s.coresOf 0).foldl (fun t c => t.loadCorePlan s.rtMaps c) s

/-- The longest gap between the hold windows a core will have, in cycles, the wrap included; none where it has none
(R327). -/
def State.longestGap (s : State) (c : Nat) : Option Nat :=
  let x := s.core c
  let l := (x.usedHolds x.nextBank).map (fun w => (w.1, w.1 + w.2))
  match l with
  | [] => none
  | p :: _ => some ((gaps l).foldl max (p.1 + s.period - (l.getLastD p).2))

end Sys2Proof.Machine
end

