-- ==== Sys2Proof/Machine/Adapt.lean ====
section
/-! DEFINITION. In-field adaptation: batches of labelled samples and their augmentation, and publications (R357 to R369, R382,
R383). -/

namespace Sys2Proof.Machine

/-- The key of sub-index `b` of ADAPT n. -/
def adaptObj (n b : Nat) : Nat := ok (0x3060 + n) b

/-- Context `n` as an adaptation context. -/
def State.adapt (s : State) (n : Nat) : AdaptSt := Tbl.get AdaptSt.reset s.adapts n

/-- The state with an adaptation context replaced. -/
def State.setAdapt (s : State) (n : Nat) (x : AdaptSt) : State :=
  { s with adapts := Tbl.set AdaptSt.reset s.adapts n x }

/-- Context `n` is an adaptation context. -/
def State.adapts? (s : State) (n : Nat) : Bool := s.o (adaptObj n 1) == 1

/-! ### The batch buffer and the dimension record (R357, R361, R363) -/

/-- Bytes of a half. -/
def State.halfBytes (s : State) (n : Nat) : Nat := s.o (adaptObj n 6) * s.o (adaptObj n 5)

/-- Offset in hub SRAM of row `r` of the half of batch `b`. -/
def State.rowOffset (s : State) (n b r : Nat) : Nat :=
  s.o (adaptObj n 4) + (b % 2 * s.o (adaptObj n 6) + r) * s.o (adaptObj n 5)

/-- Word `w` of a context's dimension record. -/
def State.dimWord (s : State) (n w : Nat) : Nat := leNat (s.bytes (hubAddr (s.o (ctxObj n 0x14)) + 4 * w) 4)

/-- A word of the dimension record is written. -/
def State.putDim (s : State) (n w v : Nat) : State := s.sramWrite (hubAddr (s.o (ctxObj n 0x14)) + 4 * w) (leBytes 4 v)

/-- The half that batch `b` fills is free, where firmware's read of DONE_SEQ returns data: DONE_SEQ has reached the SEQ of
the batch that last filled it, which is trained or refused (R363, log 170). -/
def State.halfFree (s : State) (n b : Nat) : Bool :=
  let last := Tbl.get 0 (s.adapt n).lastSeq (b % 2)
  last == 0 || (!(s.dirtyWords (hubAddr (s.o (ctxObj n 0x14)) + 4) 4).any badWord &&
    serialGe 32 (s.dimWord n 1) (last % 2 ^ 32))

/-- Both halves lie in hub SRAM (R357). -/
def State.halvesFit (s : State) (n : Nat) : Bool := decide (s.o (adaptObj n 4) + 2 * s.halfBytes n ≤ 0x800000)

/-- The words of the region-table entry that gives an adaptation context read access to its halves. -/
def State.halvesEntry (s : State) (n : Nat) : W32 × W32 :=
  let a := s.o (adaptObj n 4)
  let g := a / 0x1000
  let cnt := (a + 2 * s.halfBytes n - 1) / 0x1000 - g + 1
  (BitVec.ofNat 32 (g + (cnt - 1) * 2 ^ 12 + 2 ^ 24 + s.o (ctxObj n 1) % 4 * 2 ^ 25 + 2 ^ 27 + 2 ^ 31),
   BitVec.ofNat 32 (2 ^ (4 + s.o (ctxObj n 2) % 4)))

/-- Firmware obtains read access to the halves of an adaptation context that starts: the entry it holds for them takes their
words, through the steps of R32 where rights are removed; else an entry of its own, where none covers them and one is free.
-/
def State.obtainHalves (s : State) (n : Nat) : State :=
  let w := s.halvesEntry n
  let x := s.adapt n
  if (rgnGranules w.1).any (fun g => (s.coverOf false g).any (fun e => some e != x.entry)) then s
  else match x.entry with
    | some e =>
      if s.rgn e 0 = w.1 ∧ (Tbl.get none s.rgnNext e).isNone = true then s
      else (s.rgnChange e w.1 w.2).setO (ok (0x6100 + e) 4) 1
    | none =>
      match (List.range 64).find? (fun e => !bit (s.rgn e 0) 31 && (Tbl.get none s.rgnNext e).isNone) with
      | none => s
      | some e =>
        let t := (s.rgnChange e w.1 w.2).setO (ok (0x6100 + e) 4) 1
        t.setAdapt n { t.adapt n with entry := some e }

/-- A START of an adaptation context: counts and batches begin anew, and SEQ, DONE_SEQ and DIM0 to DIM7 are 0 (R357). -/
def State.adaptStart (s : State) (n : Nat) : State :=
  if !s.adapts? n then s
  else
    let s1 := (s.obtainHalves n).setAdapt n { (s.obtainHalves n).adapt n with batch := 0, rows := 0, closing := [], lastSeq := [] }
    let s2 := { s1 with submissions := s1.submissions.filter (fun x => x.ctx != n) }
    let s3 := ([0, 1] ++ (List.range 8).map (fun i => 4 + i)).foldl (fun (t : State) w => t.putDim n w 0) s2
    (s3.setO (adaptObj n 3) 0).setO (adaptObj n 9) 0

/-! ### Submissions (R360 to R362, R382, R383) -/

/-- A field of word `w` of a submission's header. -/
def subFld (r : List Byte) (w lo n : Nat) : Nat := nfld (wordAt r (4 * w)) lo n

/-- The sample format of a submission. -/
def subFmt (r : List Byte) : Option Fmt :=
  match Fmt.ofCode (subFld r 1 16 4) with
  | some f => if [Fmt.fp32, .fp16, .bf16, .int16, .int8, .uint8].contains f then some f else none
  | none => none

/-- IMAGE of a submission. -/
def subImage (r : List Byte) : Bool := subFld r 1 20 1 == 1

/-- Elements per channel, rows and columns of the crop, and channels, of an image submission. -/
def subShape (r : List Byte) : Nat × Nat × Nat := (subFld r 5 0 16, subFld r 3 0 16, subFld r 3 16 16)

/-- The augmented sample size a. -/
def subBytes (r : List Byte) (f : Fmt) : Nat :=
  if subImage r then
    let d := subShape r
    d.1 * d.2.1 * d.2.2 * f.bytes
  else subFld r 0 0 20

/-- DATA_LEN and LABEL_LEN. -/
def subLens (r : List Byte) : Nat × Nat := (subFld r 0 0 20, subFld r 1 0 16)

/-- Reserved fields are 0. -/
def subReservedOk (r : List Byte) : Bool :=
  subFld r 0 20 12 == 0 && subFld r 1 23 9 == 0 && subFld r 9 16 16 == 0 &&
    (List.range 6).all (fun i => wordAt r (40 + 4 * i) == 0)

/-- R360: the record is well formed for rows of `row` bytes. -/
def subOk (r : List Byte) (row : Nat) : Bool :=
  match subFmt r with
  | none => false
  | some f =>
    let l := subLens r
    let d := subShape r
    let gain := ofBits32 (wordAt r 24)
    let sigma := ofBits32 (wordAt r 28)
    let a := subBytes r f
    decide (64 ≤ r.length) && subReservedOk r && decide (1 ≤ l.1) && decide (l.1 ≤ 1048512) &&
      r.length == 64 + l.1 + l.2 &&
      (if subImage r then
        l.1 == d.1 * subFld r 2 0 16 * subFld r 2 16 16 * f.bytes &&
          decide (subFld r 4 0 16 + d.2.1 ≤ subFld r 2 0 16) && decide (subFld r 4 16 16 + d.2.2 ≤ subFld r 2 16 16)
      else subFld r 1 21 2 == 0 && wordAt r 8 == 0 && wordAt r 12 == 0 && wordAt r 16 == 0 && subFld r 5 0 16 == 0) &&
      !gain.isNan && !gain.isInf && !sigma.isNan && !sigma.isInf && !sigma.lt .zero &&
      decide (64 + cdiv a 64 * 64 + l.2 ≤ row)

/-- The batch being filled is left for the other half, its closing to come (R361, R362). -/
def State.rollBatch (s : State) (n : Nat) : State :=
  let x := s.adapt n
  if x.rows = 0 then s
  else s.setAdapt n { x with batch := x.batch + 1, rows := 0, closing := x.closing ++ [(x.batch, x.rows)]
                             lastSeq := Tbl.set 0 x.lastSeq (x.batch % 2) (x.batch + 1) }

/-- SUBMIT of a whole record (R360, R361). -/
def State.submit (s : State) (n : Nat) (r : List Byte) : State × Nat :=
  let st := s.o (ctxObj n 0xB)
  if !subOk r (s.o (adaptObj n 5)) then (s, 0x05)
  else if (st ≠ 2 ∧ st ≠ 4) ∨ s.adapts? n = false then (s, 0x06)
  else
    let x := s.adapt n
    if !s.halfFree n x.batch then (s.incO (adaptObj n 0xA) 1, 0x07)
    else
      let k := s.o (adaptObj n 9)
      let s1 := { s with submissions := s.submissions ++ [Submission.mk n x.batch x.rows (k % 2 ^ 32) r] }
      let s2 := (s1.incO (adaptObj n 9) 1).setAdapt n { x with rows := x.rows + 1 }
      (if s.o (adaptObj n 6) ≤ x.rows + 1 then s2.rollBatch n else s2, 0)

/-- The seed of an adaptation context's noise: its ACTIVE_SEED. -/
def State.activeSeed (s : State) (n : Nat) : Nat := s.o (ok (0x5500 + n) 3)

/-- Output element `e` of a submission from input element `i` (R383). -/
def State.augment (s : State) (n : Nat) (r : List Byte) (f : Fmt) (e i : Nat) : List Byte :=
  let v := f.value (natAt r (64 + i * f.bytes) f.bytes) 0
  let gain := ofBits32 (wordAt r 24)
  let sigma := ofBits32 (wordAt r 28)
  let k := (wordAt r 32 + subFld r 9 0 16 * 2 ^ 32 + e) % 2 ^ 48
  let sub := subFld r 5 16 16
  let seed := s.activeSeed n
  let w := if sigma.isZero then mul32 v gain
    else fma32 v gain (normal32 sigma (rng seed sub (2 * k % 2 ^ 48)) (rng seed sub ((2 * k + 1) % 2 ^ 48)))
  leBytes f.bytes (convert f true .near w).code

/-- The input element of each output element, in CHW order (R383). -/
def subIndices (r : List Byte) (f : Fmt) : List Nat :=
  if !subImage r then List.range (subFld r 0 0 20 / f.bytes)
  else
    let d := subShape r
    let ih := subFld r 2 0 16
    let iw := subFld r 2 16 16
    let cy := subFld r 4 0 16
    let cx := subFld r 4 16 16
    (List.range d.1).flatMap (fun c => (List.range d.2.1).flatMap (fun y => (List.range d.2.2).map (fun x =>
      let iy := cy + (if subFld r 1 21 1 = 1 then d.2.1 - 1 - y else y)
      let ix := cx + (if subFld r 1 22 1 = 1 then d.2.2 - 1 - x else x)
      c * ih * iw + iy * iw + ix)))

/-- The bytes of a batch row: header, augmented sample, label, zeros (R361). Bytes of a sample that form no whole element
have no stated value. -/
def State.batchRow (s : State) (x : Submission) (f : Fmt) : List Byte :=
  let r := x.data
  let a := subBytes r f
  let img := (subIndices r f).zipIdx.flatMap (fun p => s.augment x.ctx r f p.2 p.1)
  let tail := (List.range (a - img.length)).map (fun i => BitVec.ofNat 8 (Config.freeValue (s.free + i)))
  let head := leBytes 4 1 ++ leBytes 4 x.number ++ leBytes 4 a ++ leBytes 4 (subLens r).2 ++ List.replicate 48 0
  let body := head ++ img ++ tail ++ List.replicate (cdiv a 64 * 64 - a) 0 ++ (r.drop (64 + (subLens r).1))
  body ++ List.replicate (s.o (adaptObj x.ctx 5) - body.length) 0

/-- SUBMISSION_ROW_WRITTEN: the oldest accepted submission is augmented and its row written in full (R382, R383). -/
def execSubmissionRowWritten (s : State) : Host.Outcome State Fault Refusal :=
  .next (
    match s.submissions with
    | [] => s
    | x :: rest =>
      let f := (subFmt x.data).getD .fp32
      let s1 := s.sramWrite (hubAddr (s.rowOffset x.ctx x.batch x.row)) (s.batchRow x f)
      { s1 with submissions := rest, free := s1.free + f.bytes })

/-- The oldest batch that awaits its closing closes once its last row is written: the remaining rows are zero, then DIM0,
then SEQ (R362, R382). -/
def State.closeBatch (s : State) (n : Nat) : State :=
  let x := s.adapt n
  match x.closing with
  | [] => s
  | (b, k) :: rest =>
    if s.submissions.any (fun y => y.ctx == n && y.batch == b) then s
    else
      let row := s.o (adaptObj n 5)
      let left := s.o (adaptObj n 6) - k
      let s1 := s.sramWrite (hubAddr (s.rowOffset n b k)) (List.replicate (left * row) 0)
      let s2 := (s1.putDim n 4 k).putDim n 0 (b + 1)
      s2.setAdapt n { x with closing := rest }

/-! ### Random indexes of a batch (R359) -/

/-- The opcode carries IBASE, and the command draws with it. -/
def drawsAt (c : Cmd) : Bool := c.opc == 0x39 || c.opc == 0x3A || ([0x35, 0x36, 0x37].contains c.opc && c.rnd == 1)

/-- IBASE of a command replaced. -/
def setIbase (c : Cmd) (v : Nat) : Cmd := { c with w6 := BitVec.ofNat 32 v, w7 := put32 c.w7 0 16 (v / 2 ^ 32) }

/-- R359: the command as the cluster control core appends it: in the invocation of batch b of an adaptation context, IBASE
moves on by b × IDX_SPAN. -/
def State.workingCopy (s : State) (c : Cmd) : Cmd :=
  let v := Tbl.get 0 s.invocations c.ctx
  if s.adapts? c.ctx && drawsAt c && decide (2 ≤ v) then
    setIbase c ((c.ibase + (v - 2) * s.o (adaptObj c.ctx 2)) % 2 ^ 48)
  else c

/-! ### Publication (R364 to R368) -/

/-- Entry `i` of a PUBLISH_MAP, by fields: LCORE, KIND, SRC, DST, bytes, CH0. -/
structure MapEntry where
  lcore : Nat
  kind : Nat
  src : Nat
  dst : Nat
  len : Nat
  ch0 : Nat
  deriving DecidableEq, Repr

/-- The entries of a map. -/
def mapEntries (d : List Byte) : List MapEntry :=
  (List.range (d.length / 16)).map (fun (i : Nat) =>
    let w (k : Nat) : Nat := wordAt d (16 * i + 4 * k)
    ⟨nfld (w 0) 0 5, nfld (w 0) 5 1, w 1, w 2, 64 * (nfld (w 3) 0 15 + 1), nfld (w 3) 21 11⟩)

/-- The reserved fields of entry `i` are 0. -/
def mapReservedOk (d : List Byte) (i : Nat) : Bool := wordAt d (16 * i) / 2 ^ 6 == 0 && nfld (wordAt d (16 * i + 12)) 15 6 == 0

/-- An entry keeps its field limits. -/
def MapEntry.ok_ (e : MapEntry) : Bool :=
  decide (e.lcore < 24) && e.src % 64 == 0 && e.dst % 64 == 0 && decide (e.src + e.len ≤ 0x400000) &&
    decide (e.dst + e.len ≤ 0x200000) && (e.kind == 0 || decide (e.ch0 + e.len / 16 ≤ 2048))

/-- No two entries of a list meet under a test. -/
def noneMeet (p : MapEntry → MapEntry → Bool) : List MapEntry → Bool
  | [] => true
  | e :: r => r.all (fun f => !p e f) && noneMeet p r

/-- R364: the map is accepted. -/
def mapOk (d : List Byte) : Bool :=
  let l := mapEntries d
  d.length % 16 == 0 && decide (l.length ≤ 32) && (List.range l.length).all (mapReservedOk d) && l.all MapEntry.ok_ &&
    noneMeet (fun e f => e.lcore == f.lcore && (rangesMeet e.src e.len f.src f.len || rangesMeet e.dst e.len f.dst f.len)) l

/-- PUBLISH_STATE of context `n`. -/
def State.pubState (s : State) (n : Nat) : Nat := s.o (adaptObj n 0xE)

/-- The command writes or exchanges scale-file banks. -/
def scaleWriter (c : Cmd) : Bool := c.opc == 0x13 || c.opc == 0x14 || c.opc == 0x38

/-- A composed publication that has not retired into a context other than `ctx` adds commands on a core (R368). -/
def State.publishedCore (s : State) (core ctx : Nat) : Bool :=
  (List.range 64).any (fun n =>
    let a := s.adapt n
    (s.pubState n == 1 || s.pubState n == 2) && a.phase != 0 && a.target != ctx &&
      (match Tbl.get none s.maps a.target with
       | some m => m.progs.any (fun p => p.core == core &&
           (mapEntries (s.d (adaptObj n 0xC))).any (fun e => e.lcore == p.lcore))
       | none => false))

/-- Published data of context `n` is overwritten by its images as they are placed (R369). -/
def State.endPublished (s : State) (n : Nat) : State :=
  (List.range 64).foldl (fun t k =>
    if (t.adapt k).phase = 5 ∧ (t.adapt k).target = n then t.setAdapt k { t.adapt k with phase := 0 } else t) s

/-- A publication is IN_FRAME (R368). -/
def State.publishing (s : State) : Bool := anyBelow 64 (fun n => s.pubState n == 2)

/-- Publications into targets that satisfy a test are aborted (R366, R368); the plan in force is taken back. -/
def State.abortPublications (s : State) (p : Nat → Bool) : State :=
  (List.range 64).foldl (fun t n =>
    if (t.pubState n = 1 ∨ t.pubState n = 2) ∧ p (t.adapt n).target = true then
      let u := (t.setO (adaptObj n 0xE) 5).setAdapt n { t.adapt n with phase := 0 }
      if (t.adapt n).phase = 2 ∨ (t.adapt n).phase = 3 then u.loadPlan else u
    else t) s

end Sys2Proof.Machine
end

