-- ==== Sys2Proof/Machine/Contexts.lean ====
section
/-! DEFINITION. Contexts: start, stop, pre-emption, resumption and invocations (R246, R320 to R336, R342 to R352). A control
write answers the dictionary status beside the new state. -/

namespace Sys2Proof.Machine

/-! ### What a context holds -/

/-- CTXTAB of a context that is not STOPPED: OWN, PART, VALID and LEASE (R322). -/
def State.tableWord (s : State) (n : Nat) (lease : Bool) : W32 :=
  BitVec.ofNat 32 (s.o (ctxObj n 1) + s.o (ctxObj n 2) * 4 + 16 + b01 lease * 32)

/-- CTXTAB of a context is written (R322, R323). -/
def State.enterTable (s : State) (n : Nat) (lease : Bool) : State :=
  { s with ctxTab := Tbl.set 0 s.ctxTab n (s.tableWord n lease) }

/-- The context has a command in a queue of a core or executing there. -/
def State.holdsCmds (s : State) (n core : Nat) : Bool :=
  (List.range 5).any (fun e =>
    let y := s.engine core e
    y.queue.any (fun q => q.cmd.ctx == n) || y.flights.any (fun f => f.cmd.ctx == n))

/-- The context has a command anywhere. -/
def State.busyCtx (s : State) (n : Nat) : Bool := anyBelow 24 (fun c => s.holdsCmds n c)

/-- The groups that a context's appends to the engines of a core have left open are closed. -/
def Core.closeGroups (x : Core) (n : Nat) : Core :=
  x.mapEngines (fun _ y => if y.group = some n then { y with group := none } else y)

/-- The context's bit in CORE.CTXEN of every core of its CORE_MASK (R323). Its appends begin with a new segment, and with a
new group, and a save of it goes no further (R324, R330, R335). -/
def State.setCtxEn (s : State) (n : Nat) (v : Bool) : State :=
  (s.ctxCores n).foldl (fun t c =>
    let x := (t.core c).closeGroups n
    t.setCore c { x with ctxEn := putBit64 x.ctxEn n v, segs := Tbl.set SegRec.reset x.segs n SegRec.reset
                         segOut := Tbl.set [] x.segOut n []
                         saving := if x.saving.any (fun p => p.1 == n) then none else x.saving }) s

/-- CONTEXT STATE. -/
def State.ctxState (s : State) (n : Nat) : Nat := s.o (ctxObj n 0xB)

/-- CONTEXT STATE is set, and what follows it. -/
def State.setCtxState (s : State) (n v : Nat) : State := (s.setO (ctxObj n 0xB) v).settle

/-- The mapping of a context. -/
def State.mapOf (s : State) (n : Nat) : Option Mapped := Tbl.get none s.maps n

/-- A context's scale-file range: first channel and count. -/
def State.ctxChannels (s : State) (n : Nat) : Nat × Nat := (nfld (s.o (ctxObj n 9)) 0 11, nfld (s.o (ctxObj n 9)) 16 11 + 1)

/-- R336: zero records in both banks of a context's range on its cores. -/
def State.zeroScales (s : State) (n : Nat) : State :=
  let r := s.ctxChannels n
  (s.ctxCores n).foldl (fun t c =>
    let x := t.core c
    t.setCore c { x with scales :=
      (List.range 2).foldl (fun sc b => Tbl.clear sc ((b * 2048 + r.1) * 4) (r.2 * 4)) x.scales }) s

/-! ### Stopping (R321, R323, R336) -/

/-- The plan of partition 0 is composed anew; where it is admitted it enters the inactive banks (R314, R315). -/
def State.recompose (s : State) : State :=
  let a := s.admitted
  if a.2 then a.1.loadPlan else a.1

/-- A context becomes STOPPED: it leaves the context table, its queues are switched off, its scale records are zeroed, and
a real-time context leaves the plan. The channels of a REFUSED context are not its own (R322 check 6), and stay as they
are. -/
def State.ctxStopped (s : State) (n : Nat) : State :=
  let m := s.mapOf n
  let s0 := s.setCtxEn n false
  let s1 := if s.ctxState n = 6 then s0 else s0.zeroScales n
  let s2 := match m with | some x => s1.dropQueues x | none => s1
  let s3 := { s2 with maps := Tbl.set none s2.maps n none
                      invocations := Tbl.set 0 s2.invocations n 0
                      saved := Tbl.clear (Tbl.set 0 s2.saved n 0) (64 + 32 * n) 32
                      stoppingCtx := s2.stoppingCtx.filter (fun i => i != n)
                      power := { s2.power with waiting := s2.power.waiting.filter (fun w => w.1 != n) }
                      ctxTab := Tbl.set 0 s2.ctxTab n 0 }
  let s4 := ((s3.setO (ctxObj n 0x12) 0).setO (ctxObj n 0x13) 0).setCtxState n 0
  if (m.map (fun x => x.rt)).getD false then s4.recompose else s4

/-- An accepted write of an RWS object takes a context from REFUSED to STOPPED (R321). -/
def State.leaveRefused (s : State) (n : Nat) : State :=
  { s with ctxTab := Tbl.set 0 s.ctxTab n 0 }.setO (ctxObj n 0xB) 0

/-- Contexts that STOP has reached become STOPPED once no command of theirs is left, unless a reset holds them. -/
def State.finishStops (s : State) : State :=
  (s.stoppingCtx.filter (fun n => !s.busyCtx n && s.ctxState n != 5)).foldl State.ctxStopped s

/-- CONTROL = STOP (R321, R322, R335). -/
def State.ctxStop (s0 : State) (n : Nat) : State × Nat :=
  let s := s0.abortPublications (fun t => t == n)
  match s.ctxState n with
  | 0 => (s, 0x06)
  | 6 => (s.ctxStopped n, 0)
  | 4 => (s.ctxStopped n, 0)
  | _ => (({ (s.setCtxEn n false) with stoppingCtx := n :: s.stoppingCtx.filter (fun i => i != n) }).finishStops, 0)

/-! ### Starting (R322, R345 to R351) -/

/-- What a start maps: the key sought, the mapping with the state in which its queues are configured, the entries, and the
image. -/
structure Trial where
  key : Nat
  mapped : Option (Mapped × State)
  entries : List DirEntry

/-- A configuration of cores tried for a context: its variant found, mapped in place of the context's present mapping, its
queues configured. -/
def State.tryConfig (s : State) (n k : Nat) (img : List Byte) (cores codes : List Nat) (tuple : Nat) : Trial :=
  let v := variantOf img codes tuple
  match v.2 with
  | none => ⟨v.1, none, []⟩
  | some es =>
    let s0 := match s.mapOf n with | some m => s.dropQueues m | none => s
    let s1 := { s0 with maps := Tbl.set none s0.maps n none }
    let lqs := imgQueues img
    match s1.assignQueues cores lqs with
    | none => ⟨v.1, none, es⟩
    | some qs =>
      match s1.mapVariant n k img cores v.1 es qs with
      | none => ⟨v.1, none, es⟩
      | some m =>
        let s2 := s1.installQueues (imgOwn img) lqs qs
        ⟨v.1, some (m, { s2 with maps := Tbl.set none s2.maps n (some m) }), es⟩

/-- The variant exists. -/
def Trial.exists_ (t : Trial) : Bool := !t.entries.isEmpty

/-- The dimension values of CONTEXT:10. -/
def State.dimValues (s : State) (n : Nat) : List Nat := (List.range 8).map (fun (i : Nat) => wordAt (s.d (ctxObj n 0x10)) (4 * i))

/-- Check 2 of a start: the first core of CORE_MASK that R320 does not allow. -/
def State.badCore (s : State) (n : Nat) : Option Nat :=
  let p := s.o (ctxObj n 2)
  let gap := s.o (ok (0x3100 + s.o (ctxObj n 1)) 3) == 1
  (s.ctxCores n).find? (fun c => !((s.coresOf p).contains c || (p != 0 && gap && (s.coresOf 0).contains c)))

/-- Check 3: the slot holds a loaded code object of the owner, for the context's class. -/
def State.objectOk (s : State) (n : Nat) : Bool :=
  let k := s.o (ctxObj n 4)
  let st := s.o (slotObj k 3)
  decide (1 ≤ k) && decide (k ≤ 32) && (st == 3 || st == 4) && s.o (slotObj k 1) == s.o (ctxObj n 1) &&
    imgRt (s.imageOf k) == (s.o (ctxObj n 2) == 0)

/-- The tuples a start must map: the one of DIM_VALUES for a real-time context (none if a value has no bucket), every one
for a best-effort context, the lowest first (log 29). -/
def State.startTuples (s : State) (n : Nat) (img : List Byte) : Option (List Nat) :=
  if s.o (ctxObj n 2) = 0 then
    let b := bucketsOf img (s.dimValues n)
    if b.2.isSome then none else some [tupleOf img b.1]
  else some (List.range (imgTuples img))

/-- A footprint region of a program is taken by another active owner's program (log 30). -/
def State.footprintTaken (s : State) (n own : Nat) (q : MapProg) : Bool :=
  (s.maps.filter (fun p => p.1 != n && s.o (ctxObj p.1 1) != own)).any (fun p =>
    match p.2 with
    | some m => (m.progs.flatMap MapProg.regions).any (fun r => q.regions.contains r)
    | none => false)

/-- A best-effort command of a program that fits no gap of its gap core (R327). -/
def State.gapTooShort (s : State) (p : MapProg) : Bool :=
  (s.coresOf 0).contains p.core &&
    match s.longestGap p.core with
    | some g => (p.cmds.flatMap (fun l => l)).any (fun c => decide (g < watchOf c + 16))
    | none => false

/-- Another declaring context holds the predicate lease on a core (R332). -/
def State.leaseHeld (s : State) (n core : Nat) : Bool :=
  (List.range 64).any (fun i => i != n && bit (Tbl.get 0 s.ctxTab i) 5 && (s.configCores i).contains core)

/-- Check 5 for a mapped variant: its failing core, if it fails; 0 where it fails for no core of its own (R325, R327, R332,
R347, log 166). -/
def State.check5 (s : State) (n : Nat) (img : List Byte) (cores : List Nat) (m : Mapped) : Option Nat :=
  if (s.ctxChannels n).2 < imgNch img then some 0
  else if !m.rt && imgPred img && cores.any (s.leaseHeld n) then cores.find? (s.leaseHeld n)
  else (m.progs.find? (fun p => s.footprintTaken n (imgOwn img) p ||
    (if m.rt then (List.range 5).any (fun e => decide (32 < (p.frameCmds e).length)) else s.gapTooShort p))).map
      (fun p => p.core)

/-- Check 6: another context that is not STOPPED has an overlapping channel range on a core. -/
def State.clashOn (s : State) (n core : Nat) : Bool :=
  let r := s.ctxChannels n
  (List.range 64).any (fun i => i != n && s.ctxActive i && (s.ctxCores i).contains core &&
    rangesMeet r.1 r.2 (s.ctxChannels i).1 (s.ctxChannels i).2)

/-- Check 6: another context that is not STOPPED has an overlapping channel range on one of these cores. -/
def State.channelClash (s : State) (n : Nat) (cores : List Nat) : Bool := cores.any (s.clashOn n)

/-- The core for which a variant cannot be mapped: that of the first queue with no physical one, of the first program whose
cluster memory does not fit, or of the first with too few free table entries (R347). -/
def State.mapFailCore (s0 : State) (n : Nat) (img : List Byte) (cores : List Nat) (es : List DirEntry) : Nat :=
  let s := match s0.mapOf n with | some m => s0.dropQueues m | none => s0
  let others := (s.otherMaps n).flatMap (fun m => m.progs)
  let lqs := imgQueues img
  match (List.range lqs.length).find? (fun i => (s.assignQueues cores (lqs.take (i + 1))).isNone) with
  | some i => cores.getD ((lqs[i]?.map (fun l => l.lcore)).getD 0) 0
  | none =>
    match (List.range es.length).find? (fun i => (allotCm others cores (es.take (i + 1))).isNone) with
    | some i => cores.getD i 0
    | none => (((es.zip cores).find? (fun p => (mapProg others n 0 [] (imgSection img 3) p.1 p.2 0).isNone)).map
        (fun p => p.2)).getD 0

/-- A start is refused: REFUSE_REASON holds the check and the failing core, and the context enters REFUSED. -/
def State.refuseStart (s : State) (n reason core : Nat) : State :=
  (s.setO (ctxObj n 0xC) (reason + core * 2 ^ 8)).setCtxState n 6

/-- ACTIVE_SEED of a start (R247): SEED, or 64 bits keyed with the per-boot key, and its copies on the context's cores
(R246). -/
def State.seedContext (s : State) (n : Nat) : State :=
  let k := ok (0x5500 + n) 1
  let msg := leBytes 1 n ++ leBytes 4 (s.o (ctxObj n 0xD)) ++ leBytes 8 s.now
  let seed := if s.o (k + 1) = 1 then leNat ((hmac (leBytes 32 (Config.freeValue s.bootKey)) msg).take 8) else s.o k
  (s.ctxCores n).foldl (fun t c =>
    t.setCore c { t.core c with seeds := (t.core c).seeds.setList 0 (2 * n)
                                  [BitVec.ofNat 32 seed, BitVec.ofNat 32 (seed / 2 ^ 32)] }) (s.setO (k + 2) seed)

/-- The classes of a context on every core: real-time on the cores of a partition-0 context (R129). -/
def State.setClass (s : State) (n : Nat) (rt : Bool) : State :=
  (List.range 24).foldl (fun t c =>
    let v := rt && (t.ctxCores n).contains c
    if bit (t.core c).ctxClass n = v then t
    else t.setCore c { t.core c with ctxClass := putBit64 (t.core c).ctxClass n v }) s


/-! ### REPAIR_READY (R350, R351) -/

/-- A configuration has a variant and, for a real-time context, an admitted plan. -/
def State.configOk (s : State) (n k : Nat) (img : List Byte) (cores codes : List Nat) (tuple : Nat) : Bool :=
  match (s.tryConfig n k img cores codes tuple).mapped with
  | some m => !m.1.rt || m.2.admitCode m.2.rtMaps m.2.admitGroups == 1
  | none => false

/-- Standby images in the order of R350, as core and entry: the next narrower width of each core, then the core programs
each would run under the N − 1 count. -/
def standbyImages (img : List Byte) (cores codes : List Nat) (nm1 : Bool) (tuple : Nat) :
    List (Nat × DirEntry) × List (Nat × DirEntry) :=
  let l := (cores.zip codes).zipIdx
  (l.filterMap (fun p => (dirFind img p.2 (p.1.2 + 1) nm1 tuple).map (fun e => (p.1.1, e))),
   l.flatMap (fun p => ([p.2 - 1, p.2].eraseDups).filterMap (fun i =>
     if nm1 then none else (dirFind img i p.1.2 true tuple).map (fun e => (p.1.1, e)))))

/-- The images fit beside those placed: scratchpad of each core and cluster memory of each cluster, in KiB. -/
def standbyFit (placed : List MapProg) (l : List (Nat × DirEntry)) : Bool :=
  (List.range 24).all (fun c =>
    decide (((placed.filter (fun p => p.core == c)).map (fun p => p.spadKib)).sum +
      ((l.filter (fun x => x.1 == c)).map (fun x => x.2.spadKib)).sum ≤ 2048)) &&
  (List.range 6).all (fun k =>
    decide (((placed.filter (fun p => p.core / 4 == k)).map (fun p => p.cmKib)).sum +
      ((l.filter (fun x => x.1 / 4 == k)).map (fun x => x.2.cmKib)).sum ≤ 4096))

/-- REPAIR_READY of a mapped context. -/
def State.repairReady (s : State) (n : Nat) : Nat :=
  match s.mapOf n with
  | none => 0
  | some m =>
    let img := s.imageOf m.slot
    let cores := m.progs.map (fun p => p.core)
    let codes := s.widthCodes cores
    let tuple := nfld m.key 54 6
    let nm1 := nbit m.key 53
    let bypass := (List.range cores.length).all (fun i =>
      decide (2 ≤ codes.getD i 0) || s.configOk n m.slot img cores (codes.set i (codes.getD i 0 + 1)) tuple)
    let retire := (List.range cores.length).all (fun i =>
      s.configOk n m.slot img (cores.eraseIdx i) (codes.eraseIdx i) tuple)
    let st := standbyImages img cores codes nm1 tuple
    let placed := (s.maps.filterMap (fun p => p.2)).flatMap (fun x => x.progs)
    b01 bypass + b01 retire * 2 + b01 (bypass && standbyFit placed st.1) * 4 +
      b01 (retire && standbyFit placed (st.1 ++ st.2)) * 8

/-! ### The start itself -/

/-- The appends of a context's program begin again at its start (log 181). -/
def State.rewind (s : State) (n : Nat) : State :=
  (List.range 24).foldl (fun t c => t.setCore c ((t.core c).mapEngines (fun _ y => { y with next := Tbl.set 0 y.next n 0 }))) s

/-- A variant comes into use: tables written, memory cleared and placed (R347, R349), ACTIVE_KEY set, and its program begun. -/
def State.useVariant (s : State) (n : Nat) (img : List Byte) (t : Trial) (m : Mapped) : State :=
  let s1 := m.progs.foldl State.installTables (s.rewind n)
  let s2 := s1.placeAll (imgOwn img) img t.entries m
  (s2.setO (ctxObj n 0x12) t.key).endPublished n

/-- The predicate bank of best-effort commands of a context's cores is cleared for it, where it takes the lease (R332). -/
def State.clearLeased (s : State) (n : Nat) (lease : Bool) : State :=
  if lease then (s.configCores n).foldl (fun t c =>
    t.setCore c { t.core c with preds := Tbl.set PredBank.reset (t.core c).preds 1 PredBank.reset }) s
  else s

/-- The start completes: the mapping is put to use, SAMPLE_COUNT begins at 0 (R257), and the context runs. -/
def State.startRun (s : State) (n : Nat) (img : List Byte) (t : Trial) (m : Mapped) : State :=
  let lease := !m.rt && imgPred img
  let s1 := (((s.fresh.2).useVariant n img t m).incO (ctxObj n 0xD) 1).setO (sampleCount n) 0
  let s2 := ((((s1.enterTable n lease).clearLeased n lease).setClass n m.rt).seedContext n).setCtxEn n true
  let s3 := s2.setCtxState n 2
  let s4 := (if m.rt then s3.loadPlan else s3).adaptStart n
  s4.setO (ctxObj n 0x13) (s4.repairReady n)

/-- ADMIT_RESULT of a plan for which a real-time context has no variant (R315 code 5). -/
def State.noVariant (s : State) (n : Nat) : State := if s.o (ctxObj n 2) = 0 then s.setO 0x400008 5 else s

/-- Checks 4 and 5 of a start on the configuration of in-service cores, and the start itself. -/
def State.startOn (s : State) (n k : Nat) (img : List Byte) (cores : List Nat) (tuples : List Nat) : State :=
  let codes := s.widthCodes cores
  let trials := tuples.map (s.tryConfig n k img cores codes)
  match trials.find? (fun t => !t.exists_) with
  | some t => ((s.setO (ctxObj n 0x11) t.key).noVariant n).refuseStart n 4 0
  | none =>
    match trials.find? (fun t => t.mapped.isNone), trials.head? with
    | some t, _ => s.refuseStart n 5 (s.mapFailCore n img cores t.entries)
    | none, none => s.refuseStart n 4 0
    | none, some t =>
      match (trials.filterMap (fun t => t.mapped)).findSome? (fun m => s.check5 n img cores m.1), t.mapped with
      | some c, _ => s.refuseStart n 5 c
      | none, none => s.refuseStart n 5 0
      | none, some m =>
        if s.channelClash n cores then s.refuseStart n 6 ((cores.find? (s.clashOn n)).getD 0)
        else if m.1.rt then
          let a := m.2.admitted
          if a.2 then a.1.startRun n img t m.1
          else (s.setO 0x400008 (a.1.o 0x400008)).refuseStart n 5 0
        else m.2.startRun n img t m.1

/-- A start of a context, from any state in which one may come: it is no longer STOPPED, so CTXTAB shows it VALID, and its
checks come in the order of R322. -/
def State.ctxBegin (s0 : State) (n : Nat) : State :=
  let s := s0.enterTable n false
  let own := s.o (ctxObj n 1)
  let others := countBelow 64 (fun i => i != n && s.ctxActive i && s.o (ctxObj i 1) == own)
  if s.o (ok (0x3100 + own) 1) ≤ others ∨ s.oBit (ok (0x3100 + own) 2) (s.o (ctxObj n 2)) = false then s.refuseStart n 1 0
  else match s.badCore n with
    | some c => s.refuseStart n 2 c
    | none =>
      if !s.objectOk n then s.refuseStart n 3 0
      else
        let k := s.o (ctxObj n 4)
        let img := s.imageOf k
        match s.startTuples n img with
        | none => s.refuseStart n 4 0
        | some l => s.startOn n k img (s.configCores n) l

/-- CONTROL = START (R322). -/
def State.ctxStart (s : State) (n : Nat) : State × Nat :=
  if s.ctxState n = 0 ∨ s.ctxState n = 6 then (s.ctxBegin n, 0) else (s, 0x06)

/-! ### Pre-emption (R330 to R335) -/

/-- CONTROL = PREEMPT: appends stop, and each core goes on to its cheap point. -/
def State.ctxPreempt (s : State) (n : Nat) : State × Nat :=
  if s.ctxState n = 2 ∧ s.o (ctxObj n 2) ≠ 0 then
    (({ (s.setCtxEn n false) with saved := Tbl.set 0 s.saved n 0 }).setCtxState n 3, 0)
  else (s, 0x06)

/-- The context has reached its cheap point on a core: no command of it is left there, and each engine of ENGMASK has
retired its MARK-flagged command (R331). -/
def State.atCheapPoint (s : State) (n core : Nat) : Bool :=
  let r := Tbl.get MarkRec.reset (s.core core).marks n
  !s.holdsCmds n core &&
    match r.mask with
    | some m => (List.range 5).all (fun e => !nbit m e || nbit r.engs e)
    | none => true

/-- Words of predicate bank 1 in a save header: counters, comparators and P5 to P8 (R333). -/
def bankWords (b : PredBank) : List Nat :=
  (List.range 8).map (fun i => (b.counter i).toNat) ++
    (List.range 4).flatMap (fun i =>
      let c := b.comparator i
      [c.cnt + c.rel * 2 ^ 8, c.limit.toNat]) ++ [b.p58]

/-- Predicate bank 1 from words 5 to 21 of a save header. -/
def bankOfWords (w : Nat → Nat) : PredBank :=
  { counters := Tbl.setList 0 [] 0 ((List.range 8).map (fun (i : Nat) => BitVec.ofNat 32 (w i)))
    comparators := (List.range 4).foldl (fun t (i : Nat) =>
      Tbl.set Comparator.reset t i ⟨nfld (w (8 + 2 * i)) 0 3, nfld (w (8 + 2 * i)) 8 3, BitVec.ofNat 32 (w (9 + 2 * i))⟩) []
    p58 := nfld (w 16) 0 4
    setpAt := 0
    setpMask := 0
    changedAt := 0
    was := ([], [], 0) }

/-- The save header of a context on a core. -/
def State.saveHeader (s : State) (n core : Nat) : List Byte :=
  let r := Tbl.get MarkRec.reset (s.core core).marks n
  let lease := bit (Tbl.get 0 s.ctxTab n) 5
  let bank := if lease then bankWords (Tbl.get PredBank.reset (s.core core).preds 1) else List.replicate 17 0
  let ws := [r.id + n * 2 ^ 16 + core * 2 ^ 24 + b01 lease * 2 ^ 29, r.live % 2 ^ 32, r.live / 2 ^ 32,
    s.now % 2 ^ 32, s.now / 2 ^ 32] ++ bank ++ List.replicate 10 0
  ws.flatMap (leBytes 4)

/-- The address of a core's save record, and the requester of its accesses. -/
def State.saveRecord (s : State) (n core : Nat) : Nat × Requester :=
  (s.o (ctxObj n 8) + ((s.ctxCores n).findIdx (fun c => c == core)) * 0x201000, ⟨core, s.o (ctxObj n 1), s.o (ctxObj n 2), false⟩)

/-- The live regions of a map, ascending. -/
def liveRegions (live : Nat) : List Nat := (List.range 64).filter (nbit live)

/-- Saving or restoring has failed: the pre-emption becomes a context reset, after which the context stops (R335). -/
def State.saveFailed (s : State) (n : Nat) : State :=
  ({ s with stoppingCtx := n :: s.stoppingCtx.filter (fun i => i != n) }).raise ⟨1, n, 0x03, none, false⟩

/-- View 63 and stream descriptor 63 of a core name region `r` and its place at far address `a`: 32,768 elements of INT8 in one
row (R162, R278, R331). -/
def State.pointSave (s : State) (n core r a : Nat) : State :=
  let x := s.core core
  let w (v : Nat) : W32 := BitVec.ofNat 32 v
  s.setCore core { x with
    views := x.views.setList 0 (63 * 4) [w (r * 0x8000 + 8 * 2 ^ 21 + n * 2 ^ 26), w (2 ^ 31), w 0, w 0]
    sdescs := x.sdescs.setList 0 (63 * 10)
      [w a, w (a / 2 ^ 32 % 2 ^ 16 + 8 * 2 ^ 16 + n * 2 ^ 25 + 2 ^ 31), w 1, w 0, w 0, w 0, w 0, w 0x8000, w 0, w 0] }

/-- The STREAM_OUT that saves a region: no handles, the view and the descriptor of R331, and `last` closing the group. Its
BUDGET of 4,096 cycles is the model's (DESIGN CHOICE, log 67). -/
def saveCmd (n own : Nat) (last : Bool) : Cmd :=
  let w (v : Nat) : W32 := BitVec.ofNat 32 v
  ⟨w (0x51 + 2 * 2 ^ 8 + n * 2 ^ 16 + own * 2 ^ 22 + b01 last * 2 ^ 25), w 256, w (31 + 31 * 2 ^ 8 + 31 * 2 ^ 16 + 31 * 2 ^ 24),
    w (63 + 63 * 2 ^ 6), w 0, w 0, w 0, w 0⟩

/-- The place of the live region `r` in a core's record (R333). -/
def saveOffset (live r : Nat) : Nat := 128 + (liveRegions live).findIdx (fun i => i == r) * 0x8000

/-- A core whose save has ended; with the last one the context is PREEMPTED, and gives up its predicate lease (R331, R332). The
WIDTH it was saved at is kept for R334. -/
def State.coreSaved (s0 : State) (n core : Nat) : State :=
  let x := (s0.core core).closeGroups n
  let s := s0.setCore core { x with saving := none }
  let mask := nput (Tbl.get 0 s.saved n) core 1 1
  let s1 := { s with saved := Tbl.set 0 (Tbl.set 0 s.saved n mask) (64 + 32 * n + core) (x.width + 1) }
  if (s1.configCores n).all (nbit mask) then ((s1.enterTable n false).incO (ctxObj n 0xE) 1).setCtxState n 4 else s1

/-- The save of a core goes on with the first of its remaining regions: view and descriptor name it, and its STREAM_OUT joins
the queue of SE0 under the context's CTX and OWN, past CORE.CTXEN, which no longer lets the context append (R323, R331;
DEDUCED, log 67). A full queue, or one in which another context's group is open (R29, R324), makes it wait. -/
def State.saveNext (s : State) (n core : Nat) : State :=
  match (s.core core).saving with
  | some (m, r :: rest) =>
    let y := s.engine core 2
    if m ≠ n ∨ s.holdsCmds n core = true ∨ 64 ≤ y.queue.length ∨ (y.group.isSome && y.group != some n) = true then s
    else
      let live := (Tbl.get MarkRec.reset (s.core core).marks n).live
      let s1 := s.pointSave n core r ((s.saveRecord n core).1 + saveOffset live r)
      let y' := { y with queue := y.queue ++ [⟨y.appended % 64, saveCmd n (s.o (ctxObj n 1)) rest.isEmpty, s.coreCycle core⟩]
                         appended := (y.appended + 1) % 64, group := some n }
      let s2 := s1.setEngine core 2 y'
      s2.setCore core { s2.core core with clockGated := false }
  | some (m, []) => if m = n then s.coreSaved n core else s
  | none => s

/-- The save of a core begins with the header `r` written: its regions follow one by one (R331). -/
def beginSave (n core : Nat) (r : State × Nat) : State :=
  if r.2 ≠ 0 then r.1.saveFailed n
  else
    let live := (Tbl.get MarkRec.reset (r.1.core core).marks n).live
    (r.1.setCore core { r.1.core core with saving := some (n, liveRegions live) }).saveNext n core

/-- CHEAP_POINT_REACHED: the save of a core of a PREEMPTING context begins (R331). A held bank at the cheap point is discarded
(R334). -/
def State.cheapPoint (s : State) (n core : Nat) : State :=
  if s.ctxState n ≠ 3 ∨ (s.configCores n).contains core = false ∨ nbit (Tbl.get 0 s.saved n) core = true ∨
      s.atCheapPoint n core = false ∨ s.stoppingCtx.contains n = true ∨ (s.core core).saving.isSome = true then s
  else
    let held := ((s.core core).held.map (fun h => h.ctx == n)).getD false
    let t := if held then s.loseHold core else s
    beginSave n core (t.farWriteRun (t.saveRecord n core).2 0 (t.saveRecord n core).1 (t.saveHeader n core))

/-- What a save does once the command that saves its first region has left its engine: `ok` where it ended well (R331,
R335). -/
def State.saveStep (s : State) (core : Nat) (ok : Bool) : State :=
  match (s.core core).saving with
  | some (n, _ :: rest) =>
    if ok then (s.setCore core { s.core core with saving := some (n, rest) }).saveNext n core
    else (s.setCore core { s.core core with saving := none }).saveFailed n
  | _ => s

/-- The command of a save stands in SE0's queue or executes. -/
def State.saveRuns (s : State) (core : Nat) : Bool :=
  match (s.core core).saving with
  | some (n, _) => s.holdsCmds n core
  | none => false

/-- A save on a core goes on after a row at its engines, before which the state was `s`: where its command has left, with the
end `ok`, or where it waits for the queue. -/
def State.saveGoesOn (t s : State) (core : Nat) (ok : Bool) : State :=
  match (t.core core).saving with
  | none => t
  | some (n, _) =>
    if t.saveRuns core then t
    else if s.saveRuns core then t.saveStep core ok
    else t.saveNext n core

/-- One live region restored: read from its place in the record and written where the owner map grants it, by way of view and
descriptor 63 (R331, R334). -/
def State.restoreRegion (n core a : Nat) (q : Requester) (t0 : State) (r : Nat × Nat) : State × Nat :=
  let t := t0.pointSave n core r.1 (a + 128 + r.2 * 0x8000)
  let g := t.farReadRun q (a + 128 + r.2 * 0x8000) 0x8000
  if g.2.1 ≠ 0 then (g.1, g.2.1)
  else match g.1.omapPermits core (r.1 * 0x8000) 0x8000 q.own with
    | .granted => (g.1.sramWrite (spadAddr core (r.1 * 0x8000)) g.2.2, 0)
    | _ => (g.1, 0x0A)

/-- The predicate bank of best-effort commands from a record, where LEASE is 1 (R334). -/
def State.restoreLease (s : State) (core : Nat) (rec_ : List Byte) : State :=
  if nbit (wordAt rec_ 0) 29 then
    s.setCore core { s.core core with
      preds := Tbl.set PredBank.reset (s.core core).preds 1 (bankOfWords (fun i => wordAt rec_ (4 * (5 + i)))) }
  else s

/-- The end of a core's restoration: its predicate bank, once every region is back. -/
def restoreEnd (core : Nat) (rec_ : List Byte) (r : State × Nat) : State × Nat :=
  if r.2 ≠ 0 then r else (r.1.restoreLease core rec_, 0)

/-- The restoration of one core from its record at `a`, whose header has been read with the result `r`: the live regions, the
highest first, then the bank (R334). -/
def restoreFrom (n core : Nat) (a : Nat × Requester) (r : State × Nat × List Byte) : State × Nat :=
  if r.2.1 ≠ 0 then (r.1, r.2.1)
  else
    restoreEnd core r.2.2
      (untilStop (liveRegions (wordAt r.2.2 4 + wordAt r.2.2 8 * 2 ^ 32)).zipIdx.reverse r.1 (State.restoreRegion n core a.1 a.2))

/-- The restoration of one core, which carries the WIDTH it was saved at (R334); one of another WIDTH cannot take the record
(DESIGN CHOICE, log 67). -/
def State.restoreCore (s : State) (n core : Nat) : State × Nat :=
  if Tbl.get 0 s.saved (64 + 32 * n + core) = (s.core core).width + 1 then
    restoreFrom n core (s.saveRecord n core) (s.farReadRun (s.saveRecord n core).2 (s.saveRecord n core).1 128)
  else (s, 0x04)

/-- A context declares predicate use, and holds or seeks the lease (R332). -/
def State.declares (s : State) (n : Nat) : Bool :=
  match s.mapOf n with
  | some m => !m.rt && imgPred (s.imageOf m.slot)
  | none => false

/-- A context whose restoration has ended with the result `r` runs again, with its lease, or its restoration has failed (R332,
R334, R335). -/
def resumed (n : Nat) (r : State × Nat) : State :=
  if r.2 ≠ 0 then r.1.saveFailed n else ((r.1.enterTable n (r.1.declares n)).setCtxEn n true).setCtxState n 2

/-- One core's part of a resume (R350). -/
def resumeCore (n : Nat) (s : State) (core : Nat) : State × Nat := s.restoreCore n core

/-- A resumption waits for the predicate lease of one of its cores, which another context holds (R332). -/
def State.leaseWaits (s : State) (n : Nat) : Bool := s.declares n && (s.configCores n).any (s.leaseHeld n)

/-- CONTROL = RESUME (R334). -/
def State.ctxResume (s : State) (n : Nat) : State × Nat :=
  if s.ctxState n ≠ 4 then (s, 0x06)
  else (resumed n (untilStop (s.configCores n) s (resumeCore n)), 0)

/-! ### Invocations (R352) -/

/-- INVOCATION_START: while no publication of the context is PENDING (R366), the dimension record is read once, a tuple
chosen, and its variant put to use; a read that returns an error status and no data starts nothing (R273). -/
def State.invocationStart (s : State) (n : Nat) : State :=
  let a := hubAddr (s.o (ctxObj n 0x14))
  let look := s.sramRead a 64
  let rec_ := s.bytes a 64
  match s.mapOf n with
  | none => s
  | some m0 =>
    let img := s.imageOf m0.slot
    let seq := wordAt rec_ 0
    if s.ctxState n ≠ 2 ∨ m0.rt = true ∨ imgNdim img = 0 ∨ Tbl.get 0 s.invocations n ≠ 0 ∨ s.pubState n = 1 then s
    else if look.2 then look.1
    else if seq = wordAt rec_ 4 then look.1
    else
      let s := look.1
      let b := bucketsOf img ((List.range 8).map (fun (i : Nat) => wordAt rec_ (16 + 4 * i)))
      match b.2 with
      | some d => (s.sramWrite (a + 4) (leBytes 4 seq)).sramWrite (a + 8) (leBytes 4 (1 + d * 16))
      | none =>
        let cores := m0.progs.map (fun p => p.core)
        let t := s.tryConfig n m0.slot img cores (s.widthCodes cores) (tupleOf img b.1)
        match t.mapped with
        | none => s
        | some m =>
          let word := (b.1.zipIdx.map (fun p => p.1 * 16 ^ p.2)).sum
          let s1 := (m.2.sramWrite (a + 8) (leBytes 4 0)).sramWrite (a + 12) (leBytes 4 word)
          let s2 := { s1 with invocations := Tbl.set 0 s1.invocations n (seq + 1) }
          if t.key = m0.key then { s2 with maps := s.maps, hqs := s.hqs } else (s2.fresh.2).useVariant n img t m.1

/-- INVOCATION_START (R352). -/
def execInvocationStart (n : Fin 64) (s : State) : Host.Outcome State Fault Refusal := .next (s.invocationStart n)

end Sys2Proof.Machine
end

