-- ==== Sys2Proof/Machine/Slots.lean ====
section
/-! DEFINITION. Code-object slots: loading, checks, placement and measurement, pinning and reloading (R353 to R356). -/

namespace Sys2Proof.Machine

/-- Pages of 2 MiB that an image occupies. -/
def imagePages (n : Nat) : Nat := cdiv n 0x200000

/-! ### The image in DRAM -/

/-- The image of a slot is discarded: its entry closes under R32 and its DRAM is released. -/
def State.dropImage (s : State) (k : Nat) : State :=
  let s1 := match s.imageEntry k with
    | some e => s.rgnDrop e
    | none => s
  (((s1.setO (slotObj k 5) 0).setO (slotObj k 0xB) 0).setO (slotObj k 0xC) 0).setD (slotObj k 6) (List.replicate 32 0)

/-- Every entry that is closing takes its next words: the fences of a reset have drained all accesses (R32). -/
def State.rgnSettle (s : State) : State :=
  (List.range 64).foldl (fun t e =>
    match Tbl.get none t.rgnNext e with
    | some w => t.rgnInstall e w.1 w.2.1
    | none => t) s

/-- A slot becomes FAILED with an error, its DRAM released. -/
def State.slotFails (s : State) (k err : Nat) : State :=
  (((s.dropImage k).setO (slotObj k 4) err).setO (slotObj k 3) 5).settle

/-- DRAM in MiB that an owner's entries cover. -/
def State.coveredMib (s : State) (own : Nat) : Nat :=
  ((List.range 64).map (fun e =>
    let w := s.rgn e 0
    if bit w 31 && rgnDram w && fld w 25 2 == own then 2 * (fld w 12 12 + 1) else 0)).sum

/-- A page of DRAM that no entry covers and that is not retired. -/
def State.freePage (s : State) (p : Nat) : Bool :=
  decide (p < s.channels.length * 512) && (s.coverOf true p).isNone && !s.retiredPages.contains p

/-- The lowest range of free pages for an image, and the lowest free entry (R354). -/
def State.roomFor (s : State) (pages : Nat) : Option (Nat × Nat) :=
  match (List.range 4096).find? (fun p => (List.range pages).all (fun i => s.freePage (p + i))),
    (List.range 64).find? (fun e => !bit (s.rgn e 0) 31 && (Tbl.get none s.rgnNext e).isNone) with
  | some p, some e => some (p, e)
  | _, _ => none

/-- An image is placed at page `p` under entry `e`: cleared pages, its bytes, and a read-only locked entry of its owner,
held by firmware (R354). -/
def State.placeImage (s : State) (k own p e : Nat) (img : List Byte) : State :=
  let n := imagePages img.length
  let clear (t : State) (i : Nat) : State :=
    let g := p + i
    let u := t.wipe (g * 0x200000) 0x200000
    { u with line := Tbl.setList 0 (Tbl.clear u.line (g * 0x8000) 0x8000) (g * 0x8000) (List.replicate 0x8000 8)
             holders := Tbl.set 0 u.holders g (own + 1) }
  let s1 := (List.range n).foldl clear s
  let s2 := { (s1.poke (p * 0x200000) img) with
    line := Tbl.clear s1.line (p * 0x8000) (cdiv img.length 64) }
  let w0 := p + (n - 1) * 2 ^ 12 + own * 2 ^ 25 + 2 ^ 27 + 2 ^ 30 + 2 ^ 31
  let s3 := (s2.rgnInstall e (BitVec.ofNat 32 w0) 0xF0).setO (ok (0x6100 + e) 4) 1
  ((s3.setO (slotObj k 5) img.length).setO (slotObj k 0xB) (imgVersion img)).setO (slotObj k 0xC) (p * 0x200000)

/-- The measurement of a placed image (R354). -/
def State.measure (s : State) (k : Nat) : State := s.setD (slotObj k 6) (sha256 (s.imageOf k))

/-! ### Loading (R353, R354) -/

/-- A segment of an IMAGE transfer: the first discards the image held, the last enters CHECKING. -/
def State.imageSegment (s : State) (k : Nat) (first last : Bool) (d : List Byte) : State :=
  let s1 := if first then (s.dropImage k).setO (slotObj k 4) 0 else s
  let held := if first then [] else Tbl.get [] s1.loading k
  ({ s1 with loading := Tbl.set [] s1.loading k (held ++ d) }).setO (slotObj k 3) (if last then 2 else 1)

/-- The checks of R353 in order: the error of the first that fails, or 0. -/
def State.loadError (s : State) (k : Nat) (img : List Byte) : Nat :=
  let own := s.o (slotObj k 1)
  let e := imageError own img
  if e ≠ 0 then e
  else if s.o (ok (0x3100 + own) 4) < s.coveredMib own + 2 * imagePages img.length then 9
  else if (s.roomFor (imagePages img.length)).isNone then 0x0E
  else 0

/-- A copy to the pinned store begins: a write of PIN = 1 in READY, or a slot that becomes READY with PIN = 1 and no
complete copy (R355). -/
def State.beginPin (s : State) (k : Nat) : State :=
  if s.o (slotObj k 3) = 3 ∧ s.o (slotObj k 7) = 1 ∧ s.o (slotObj k 8) = 0 then s.setO (slotObj k 3) 4 else s

/-- LOAD_CHECK: a slot in CHECKING is checked, placed, measured and locked, and becomes READY; or it fails (R353, R354). -/
def execLoadCheck (i : Fin 32) (s : State) : Host.Outcome State Fault Refusal :=
  .next (
    let k := i.val + 1
    let img := Tbl.get [] s.loading k
    let own := s.o (slotObj k 1)
    if s.o (slotObj k 3) ≠ 2 then s
    else
      let s0 := { s with loading := Tbl.set [] s.loading k [] }
      match s.loadError k img, s.roomFor (imagePages img.length) with
      | 0, some pe => ((((s0.placeImage k own pe.1 pe.2 img).measure k).setO (slotObj k 3) 3).beginPin k).settle
      | e, _ => s0.slotFails k e)

/-! ### Pinning (R355) -/

/-- Bytes in the pinned store. -/
def State.pinnedBytes (s : State) : Nat :=
  ((s.pins.filterMap (fun p => p.2)).map (fun l => l.length)).sum

/-- PIN is written: 1 begins a copy where the store has room, 0 removes the flash copy. -/
def State.pinWrite (s : State) (k v : Nat) : State × Nat :=
  if v = 1 then
    if s.o (slotObj k 8) = 0 ∧ 40 * 2 ^ 20 < s.pinnedBytes + s.o (slotObj k 5) then (s, 0x05)
    else ((s.setO (slotObj k 7) 1).beginPin k, 0)
  else
    let s1 := { s with pins := Tbl.set none s.pins k none, reloads := s.reloads.filter (fun j => j != k) }
    let s2 := ((s1.setO (slotObj k 7) 0).setO (slotObj k 8) 0)
    ((if s2.o (slotObj k 3) = 4 then s2.setO (slotObj k 3) 3 else s2).settle, 0)

/-- PIN_COPY_DONE: the flash copy of a PINNING slot is complete, or its write has failed; the slot is READY again. -/
def execPinCopyDone (i : Fin 32) (failed : Bool) (s : State) : Host.Outcome State Fault Refusal :=
  .next (
    let k := i.val + 1
    if s.o (slotObj k 3) ≠ 4 then s
    else
      let s1 := s.setO (slotObj k 3) 3
      if failed then (s1.setO (slotObj k 4) 0x0C).settle
      else (({ s1 with pins := Tbl.set none s1.pins k (some (s.imageOf k)) }).setO (slotObj k 8) 1).settle)

/-! ### Unloading and reloading (R354, R356) -/

/-- CONTROL = UNLOAD: the slot becomes EMPTY; in PINNING it is refused. -/
def State.unload (s : State) (k : Nat) : State × Nat :=
  if s.o (slotObj k 3) = 4 then (s, 0x06)
  else
    let s1 := { (s.dropImage k) with pins := Tbl.set none s.pins k none
                                     reloads := s.reloads.filter (fun j => j != k)
                                     loading := Tbl.set [] s.loading k [] }
    ((((s1.setO (slotObj k 7) 0).setO (slotObj k 8) 0).setO (slotObj k 3) 0).settle, 0)

/-- The pinned models of partition 0 are all loaded (R50, R308). -/
def State.pinnedLoaded (s : State) : Bool :=
  s.reloads.all (fun k => (List.range 64).all (fun n => s.o (ctxObj n 2) != 0 || s.o (ctxObj n 4) != k))

/-- The next pinned image is read back from flash, checked, placed, measured and locked. An entry that still covers the old
image closes first, and the row is sent again (R32). One whose measurement differs from the recorded one, or that finds no
room, fails with error 0x000B (R356). -/
def State.reload (s : State) (k : Nat) (damaged : Bool) : State :=
  let own := s.o (slotObj k 1)
  let old := s.d (slotObj k 6)
  match s.imageEntry k with
  | some e => if (Tbl.get none s.rgnNext e).isSome then s else s.rgnDrop e
  | none =>
  let s0 := { s with reloads := s.reloads.filter (fun j => j != k) }
  match Tbl.get none s.pins k with
  | none => s0
  | some img =>
    match (if damaged then none else s0.roomFor (imagePages img.length)) with
    | none => ((s0.slotFails k 0x0B).setO (slotObj k 8) 0).settle
    | some pe =>
      let s1 := (s0.placeImage k own pe.1 pe.2 img).measure k
      if s1.d (slotObj k 6) = old then (s1.setO (slotObj k 3) 3).settle
      else ((s1.slotFails k 0x0B).setO (slotObj k 8) 0).settle

end Sys2Proof.Machine
end

