-- ==== Sys2Proof/Machine/Recovery.lean ====
section
/-! DEFINITION. The reset ladder (R548 to R562): requests, fences, the reset steps, and the return of results. -/

namespace Sys2Proof.Machine

/-! ### Domains (R548, R559, R561) -/

/-- The contexts that a step at this domain resets: the context; those with a command in the engine's queue; those with a
core in the partition; every active one. -/
def State.resetCtxs (s : State) (code target : Nat) : List Nat :=
  match code with
  | 1 => [target]
  | 2 =>
    let y := s.engine (target / 8) (target % 8)
    (List.range 64).filter (fun n => y.queue.any (fun q => q.cmd.ctx == n) || y.flights.any (fun f => f.cmd.ctx == n))
  | 3 => (List.range 64).filter (fun n => s.ctxActive n && s.ctxState n != 6 &&
      (s.ctxCores n).any (fun c => (s.coresOf target).contains c))
  | _ => (List.range 64).filter s.ctxActive

/-- The cores that a step fences. -/
def State.resetCores (s : State) (code target : Nat) : List Nat :=
  match code with
  | 1 => []
  | 2 => [target / 8]
  | 3 => s.coresOf target
  | _ => List.range 24

/-- The clusters that a step fences. -/
def State.resetClusters (s : State) (code target : Nat) : List Nat :=
  match code with
  | 1 => []
  | 2 => []
  | 3 => s.clustersOf target
  | _ => List.range 6

/-- An executing command belongs to the domain: to one of its contexts, to its engine, or to one of its cores. -/
def State.inDomain (s : State) (code target core e : Nat) (f : Flight) : Bool :=
  (s.resetCtxs code target).contains f.cmd.ctx || (code == 2 && core * 8 + e == target) ||
    (decide (3 ≤ code) && (s.resetCores code target).contains core)

/-- A command of the domain executes somewhere. -/
def State.outstanding (s : State) (code target : Nat) : Bool :=
  anyBelow 24 (fun c => anyBelow 5 (fun e => (s.engine c e).flights.any (s.inDomain code target c e)))

/-- The groups a context feeds: its commands pop the ingress handle or push the egress handle (R554). -/
def State.groupsFed (s : State) (n : Nat) : List Nat :=
  match s.mapOf n with
  | none => []
  | some m => s.groupsInUse.filter (fun g =>
      m.progs.any (fun p => (p.cmds.flatMap (fun l => l)).any (fun c =>
        (match s.groupQueue g 5 with | some k => k.1 == p.core / 4 && (k.2 == c.inq || k.2 == c.freeq) | none => false) ||
          (match s.groupQueue g 7 with
           | some k => k.1 == p.core / 4 && (pushesOf c).any (fun q => q.1 == k.2)
           | none => false))))

/-! ### Requests (R33, R34, R550, R563, R564) -/

/-- Resets begun at a step and domain within the last `span` ns. -/
def State.recentSteps (s : State) (code target span : Nat) : Nat :=
  (s.stepLog.filter (fun r => r.1 == code && r.2.1 == target && decide (s.now < r.2.2 + span))).length

/-- The step above a request's, for the domain that contains it: the engine whose watchdog raised it, else the partition;
the partition of an engine's core; the package (R549; DEDUCED, log 31). -/
def State.nextStep (s : State) (r : ResetReq) : ResetReq :=
  match r.code, r.eng with
  | 1, some e => { r with code := 2, target := e }
  | 1, none => { r with code := 3, target := s.o (ctxObj r.target 2) }
  | 2, _ => { r with code := 3, target := (s.partOfCluster (r.target / 32)).getD 0 }
  | 3, _ => { r with code := 4, target := 0, cause := 0x07 }
  | _, _ => { r with code := 5, target := 0, cause := 0x08 }

/-- R550: a request that escalates is performed one step up where its domain has been reset twice at this step within 10 s
(the package three times within 60 s). -/
def State.escalated (s : State) (r : ResetReq) : ResetReq × Bool :=
  let due := r.escalates && (if r.code = 4 then decide (3 ≤ s.recentSteps 4 0 60000000000)
    else decide (r.code < 4) && decide (2 ≤ s.recentSteps r.code r.target 10000000000))
  if due then (s.nextStep r, true) else (r, false)

/-- CYCLE_REQUEST is set, unless three power cycles were requested within 1 h of the first of them (R563, R564). -/
def State.requestCycle (s : State) (cause : Nat) : State :=
  let l := s.power.cycles
  if (l[2]?.map (fun t => decide ((s.now : Int) < t + 3600000000000))).getD false then
    let s1 := s.logEv 0x17 0 0 { detail := 5 }
    { s1 with power := { s1.power with cycleHeld := true } }
  else
    let s1 := (s.setO 0x80000A 1).withLoop (fun x => { x with cause := cause })
    { s1 with power := { s1.power with cycles := ((s1.now : Int) :: l).take 3, cycleHeld := false } }

/-- Element `i` of STEP_COUNTS increments, saturating. -/
def bumpStep (d : List Byte) (i : Nat) : List Byte :=
  spliceBytes d (4 * i) (leBytes 4 (satAdd 0xFFFFFFFF (wordAt d (4 * i)) 1))

/-- The cores inside the domain of a request: those it fences, or a context's. -/
def State.domainCores (s : State) (r : ResetReq) : List Nat :=
  if r.code = 1 then s.ctxCores r.target else s.resetCores r.code r.target

/-- The domain of request `a` lies inside that of `b` (R34). -/
def State.liesIn (s : State) (a b : ResetReq) : Bool :=
  (a.code == b.code && a.target == b.target) || (b.code == 4 && decide (a.code ≤ 4)) ||
    (b.code == 3 && decide (a.code ≤ 3) && !(s.domainCores a).isEmpty &&
      (s.domainCores a).all (fun c => (s.coresOf b.target).contains c))

/-- A request lies inside a step in progress, which absorbs it (R34). -/
def State.absorbed (s : State) (r : ResetReq) : Bool := s.steps.any (fun x => s.liesIn r x.req)

/-- A step begins: it is counted, logged and traced, and its contexts, cores, clusters and groups are fenced (R548, R551,
R554). Steps in progress inside its domain are absorbed (R34). -/
def State.beginStep (s : State) (r : ResetReq) : State :=
  let s1 := ((s.setD 0x800009 (bumpStep (s.d 0x800009) (r.code - 1))).setO 0x800008 r.code).logEv 0x16 0 0
    { detail := r.code + r.target * 2 ^ 8 }
  let c := if r.cause = 0 then s1.fresh.1 % 2 ^ 16 else r.cause
  let s1f := if r.cause = 0 then s1.fresh.2 else s1
  let s2 := (s1f.trace 7 0 7 none r.code r.target).withLoop (fun l => { l with cause := c })
  if 5 ≤ r.code then s2.requestCycle c
  else
    let ctxs := s.resetCtxs r.code r.target
    let groups := if r.code = 4 then s.groupsInUse else ctxs.flatMap s.groupsFed
    let s3 := ctxs.foldl (fun (t0 : State) n =>
      let t := t0.abortPublications (fun g => g == n)
      let u := (t.setCtxRst n true).setCtxEn n false
      if t.ctxActive n && t.ctxState n != 6 then u.setO (ctxObj n 0xB) 5 else u) s2
    let s4 := groups.foldl (fun t g => if t.o (groupObj g 9) = 1 then t.setO (groupObj g 9) 2 else t) s3
    let s5 := (s.resetCores r.code r.target).foldl (fun t c => t.setCore c { t.core c with fenced := true }) s4
    let s6 := (s.resetClusters r.code r.target).foldl (fun t k => t.setCluster k { t.cluster k with fenced := true }) s5
    let s7 := if r.code = 3 then s6.setO (partObj r.target 3) 2 else s6
    let s8 := if r.code = 4 then { s7 with boot := { s7.boot with resetOpen := true } } else s7
    ({ s8 with steps := s8.steps.filter (fun (x : ResetStep) => !s.liesIn x.req r) ++ [ResetStep.mk r s.now false false false]
               stepLog := ((r.code, r.target, s.now) :: s8.stepLog).take 64
               flash := { s8.flash with sumDue := s8.flash.sumDue || decide (3 ≤ r.code) } }).settle

/-- FENCE frames go to the partners that hold the other end of a forwarding pair of a partition, on links in UP (R475). -/
def State.sendFences (s : State) (p : Nat) : State :=
  let mask := s.o (partObj p 1)
  (List.range 3).foldl (fun t n =>
    let d := t.o (peerObj n 2)
    if t.o (peerObj n 1) ≠ 0 ∧ (t.pairPartitions d).contains p = true then
      (t.sendRel (t.peerLane n (2 ^ 22) false) 0 ⟨0x0A, mask, 0, [], 2 ^ 22, 0, 0⟩).setPeer n
        { t.peer n with fenceSent := some mask, fenceAt := t.now }
    else t) s

/-- FENCE_REQUEST: the PMC serves the oldest request (R33, R550, R551). After CYCLE_REQUEST it starts no further step
(R563). -/
def State.fenceRequest (s : State) : State :=
  match s.reqs with
  | [] => s
  | r :: rest =>
    let s0 := { s with reqs := rest }
    if s.o 0x80000A = 1 ∨ s.absorbed r = true then s0
    else
      let e := s.escalated r
      let s1 := if e.2 then (s0.incO 0x80000D 1).logEv 0x17 0 0 { detail := e.1.code } else s0
      if s1.absorbed e.1 then s1
      else
        let s2 := s1.beginStep e.1
        if e.1.code = 3 then s2.sendFences e.1.target else s2

/-! ### Drain and completion (R551) -/

/-- Executing commands that a test selects stop: they push no handle, and window writes of theirs end. -/
def State.stopFlights (s : State) (p : Nat → Nat → Flight → Bool) : State :=
  let s1 := (List.range 24).foldl (fun t c => t.setCore c ((t.core c).mapEngines (fun e y =>
    { y with flights := y.flights.filter (fun f => !p c e f) }))) s
  let gone (x : PWrite) : Bool :=
    !(s1.engine x.core x.eng).flights.any (fun f => f.started && writeTag x.core x.eng f.pos == x.tag)
  let s2 := (s1.writes.filter gone).foldl (fun t x => t.withdraw x.tag) s1
  { s2 with writes := s2.writes.filter (fun x => !gone x) }.drainWindows

/-- The steps that match a test are changed. -/
def State.mapSteps (s : State) (p : ResetStep → Bool) (f : ResetStep → ResetStep) : State :=
  { s with steps := s.steps.map (fun x => if p x then f x else x) }

/-- FENCE_DRAIN_LIMIT: t_FDR = 2 µs after a fence request, what is still outstanding in the domain is stopped. -/
def execFenceDrainLimit (s : State) : Host.Outcome State Fault Refusal :=
  .next (
    let due (x : ResetStep) : Bool := !x.drained && decide (x.begun + 2000 ≤ s.now)
    let s1 := (s.steps.filter due).foldl (fun t x => t.stopFlights (s.inDomain x.req.code x.req.target)) s
    s1.mapSteps due (fun x => { x with drained := true }))

/-- A FENCE to a partner that a partition step waits for is unanswered. -/
def State.fenceWaits (s : State) (x : ResetStep) : Bool :=
  x.req.code == 3 && anyBelow 3 (fun n => (s.peer n).fenceSent == some (s.o (partObj x.req.target 1)))

/-- FENCE_COMPLETE: no request of a domain remains outstanding (R34, R551). -/
def execFenceComplete (s : State) : Host.Outcome State Fault Refusal :=
  .next (s.mapSteps (fun x => !x.complete && !s.outstanding x.req.code x.req.target && !s.fenceWaits x)
    (fun x => { x with complete := true }))

/-- A step with this code whose fence is complete and whose reset is to be done, the oldest first. -/
def State.readyStep (s : State) (code : Nat) : Option ResetStep :=
  s.steps.find? (fun x => x.req.code == code && x.complete && !x.done)

/-- A step ends: LAST_RECOVERY_NS runs from its fence request to now. -/
def State.endStep (s : State) (x : ResetStep) : State :=
  let t := { s with steps := s.steps.filter (fun y => !(y.req.code == x.req.code && y.req.target == x.req.target)) }
  t.setO 0x80000E (s.now - x.begun)

/-! ### Rings (R554) -/

/-- A queue is emptied; handles and credits on their way to or from it are lost with it. -/
def State.flushQueue (s : State) (u q : Nat) : State :=
  let x := s.hq u q
  let s1 := s.setHq u q { x with items := [], occ := 0 }
  { s1 with forwards := s1.forwards.filter (fun t => !((t.srcUnit == u && t.srcQ == q) || (t.unit == u && t.q == q)))
            credits := s1.credits.filter (fun t => !((t.srcUnit == u && t.srcQ == q) || (t.unit == u && t.q == q))) }

/-- A queue's GEN rises by 1 modulo 4,096 and GENCHK is set (R554). -/
def State.raiseGen (s : State) (u q : Nat) : State :=
  let x := s.hq u q
  s.setHq u q { x with w0 := put32 (put32 x.w0 20 12 ((fld x.w0 20 12 + 1) % 4096)) 19 1 1 }

/-- The handles of a seeding HINIT are pushed at the generation of the ring's queue (R188, R554). -/
def State.seedRing (s : State) (core : Nat) (c : Cmd) : State :=
  let u := core / 4
  let q := fld c.w3 0 5
  let a := s.arrivalOf u q
  let gen := if a.1 = s.devNum then fld (s.hq a.2.1 a.2.2.1).w0 20 12 else fld (s.hq u q).w0 20 12
  s.pushAll u q ((List.range (fld c.w3 5 4 + 1)).map (fun (i : Nat) =>
    mkHandle (fld c.w4 0 12 + i) gen c.own false false false)) (.local_ (some (core * 8 + c.eng, c.ctx)))

/-- Every ring of a mapped context is created again. -/
def State.recreateRings (s : State) (m : Mapped) : State :=
  m.progs.foldl (fun t p =>
    ((p.cmds.flatMap (fun l => l)).filter (fun c => c.opc == 0x60)).foldl (fun u c => u.seedRing p.core c) t) s

/-! ### Context reset (R554) and restart (R557) -/

/-- Step 3 of R554 for a context: its queues flushed, those assigned to it at a new generation; a held bank of it
discarded. -/
def State.flushContext (s : State) (n : Nat) : State :=
  let groupQs := (s.groupsFed n).flatMap (fun g => [5, 6, 7, 8].filterMap (fun b => s.groupQueue g b))
  let s1 := groupQs.foldl (fun t k => t.flushQueue k.1 k.2) s
  let s2 := match s.mapOf n with
    | some m => m.queues.foldl (fun t q => (t.flushQueue q.2.1 q.2.2).raiseGen q.2.1 q.2.2) s1
    | none => s1
  (s.ctxCores n).foldl (fun t c => if ((t.core c).held.map (fun h => h.ctx == n)).getD false then t.loseHold c else t) s2

/-- The restart of a context is complete: it runs again, or stops where STOP has reached it. A context of partition 0 keeps
its CTXRST bits until its return frame, and so do the groups it feeds (R554 step 5, R557). -/
def State.ctxRestarted (s : State) (n : Nat) : State :=
  if s.stoppingCtx.contains n ∨ s.ctxActive n = false ∨ s.ctxState n = 6 then
    let t := s.setCtxRst n false
    if t.stoppingCtx.contains n then t.ctxStopped n else t
  else
    let s1 := ((((s.rewind n).incO (ctxObj n 0xD) 1).setO (sampleCount n) 0).seedContext n).setCtxEn n true
    let rt := s.o (ctxObj n 2) == 0
    let waits := rt && s.o 0x400001 == 1
    let s2 := if waits then
        s1.withLoop (fun l =>
          { l with returning := ((8 + n) :: (s.groupsFed n).filter (fun g => s.o (groupObj g 9) == 2)).foldl
                                  (fun t k => Tbl.set none t k (some 0)) l.returning })
      else s1.setCtxRst n false
    s2.setCtxState n 2

/-- CONTEXT_RESET: the oldest context step whose fence is complete (R554). -/
def execContextReset (s : State) : Host.Outcome State Fault Refusal :=
  .next (
    match s.readyStep 1 with
    | none => s
    | some x =>
      let n := x.req.target
      let s1 := s.flushContext n
      let s2 := match s.mapOf n with
        | some m => s1.recreateRings m
        | none => s1
      (s2.ctxRestarted n).endStep x)

/-! ### Engine reset (R559, R560) -/

/-- What an engine reset clears. Of the ME, words 0 and 1 of SCALE.STAT of every channel go, and its first idle gap is unbounded
(R123, R236). -/
def State.clearEngine (s : State) (c e : Nat) : State :=
  let y := s.engine c e
  let s1 := s.setEngine c e { Engine.reset with slots := y.slots, appended := y.appended, hung := 0 }
  let x := s1.core c
  match e with
  | 0 =>
    let s2 := s1.loseHold c
    s2.setCore c { s2.core c with acc := [], biasBuf := [], aBuf := [], mePrev := none, gapFrom := none, fills := []
                                  stats := (s2.core c).stats.filter (fun e => e.1 % 3 == 2), statNotes := [] }
  | 1 => s1.setCore c { x with tableBuf := [] }
  | 4 => s1.setCore c { x with preds := [] }
  | _ => s1

/-- ENGINE_RESET: the engine and its queue are cleared, every context with a command in that queue takes a context reset,
and the core's fence ends. -/
def execEngineReset (s : State) : Host.Outcome State Fault Refusal :=
  .next (
    match s.readyStep 2 with
    | none => s
    | some x =>
      let c := x.req.target / 8
      let ctxs := (List.range 64).filter (fun n => bit (s.core c).ctxRst n && s.ctxState n == 5 &&
        (s.resetCtxs 2 x.req.target).contains n)
      let s1 := s.clearEngine c (x.req.target % 8)
      let s2 := ctxs.foldl State.flushContext s1
      let s3 := ctxs.foldl (fun t n => match t.mapOf n with | some m => t.recreateRings m | none => t) s2
      let s4 := s3.setCore c { s3.core c with fenced := false }
      (ctxs.foldl State.ctxRestarted s4).endStep x)

/-! ### Partition reset (R561) -/

/-- A core as a recovery run finds and leaves it (R156, R157, R227): empty, its repairs, classes and plan registers kept. -/
def Core.cleared (x : Core) : Core :=
  { Core.reset with meCfg := x.meCfg, ctxClass := x.ctxClass, ctxRst := x.ctxRst, framePeriod := x.framePeriod
                    fenced := true, selfTest := true, tickAt := x.tickAt, tickFor := x.tickFor, testResult := x.testResult }

/-- Every queue of a cluster is cleared, with its configuration, and every forwarding pair that has an end in it (R297). -/
def State.clearClusterQueues (s : State) (k : Nat) : State :=
  let ends (t : Transit) : Bool := t.srcUnit == k || t.unit == k
  let s1 := { s with forwards := s.forwards.filter (fun t => !ends t), credits := s.credits.filter (fun t => !ends t) }
  let s2 := (List.range 8).foldl (fun t u => (List.range 32).foldl (fun t q =>
    let x := t.hq u q
    if u != k && x.depth != 0 && ((x.isForward && fld x.w0 7 2 == t.devNum && fld x.w0 9 3 == k) ||
        (!x.isForward && x.sen && fld x.w1 0 2 == t.devNum && fld x.w1 2 3 == k)) then
      t.setHq u q { x with items := [], occ := 0 } else t) t) s1
  (List.range 31).foldl (fun t q => t.setHq k q HQueue.reset) s2

/-- The windows into a cluster or its cores are closed. -/
def State.closeWindowsOf (s : State) (k : Nat) : State :=
  (List.range 64).foldl (fun t n =>
    if bit (t.win n 0) 31 && t.windowCluster n == k then (t.windowClose n).windowShut n else t) s

/-- One cluster is reset: queues, cluster memory, windows; held banks are discarded (R106); its cores begin their self-test
runs; its PLL starts. -/
def State.clearCluster (s : State) (k : Nat) : State :=
  let s0 := (List.range 4).foldl (fun t i => t.loseHold (4 * k + i)) s
  let s1 := (s0.closeWindowsOf k).clearClusterQueues k
  let s2 := s1.sramClear (cmAddr k 0) (memSize (24 + k))
  let s3 := (List.range 4).foldl (fun t i => t.setCore (4 * k + i) (t.core (4 * k + i)).cleared) s2
  let s4 := s3.setCluster k { s3.cluster k with tiles := [], p2 := false }
  { s4 with power := { s4.power with testing := s4.power.testing.filter (fun c => c / 4 != k) ++
                                                  (List.range 4).map (fun i => 4 * k + i) } }

/-- PARTITION_RESET: of the oldest partition step whose fence is complete. The contexts with a core in it restart once every
core has run its self-test. -/
def execPartitionReset (s : State) : Host.Outcome State Fault Refusal :=
  .next (
    match s.readyStep 3 with
    | none => s
    | some x =>
      let p := x.req.target
      let ctxs := s.resetCtxs 3 p
      let s1 := (s.clustersOf p).foldl State.clearCluster s
      let s2 := ((s1.setO (partObj p 3) 3).incO (partObj p 5) 1).mapSteps
        (fun y => y.req.code == 3 && y.req.target == p) (fun y => { y with done := true })
      { s2 with power := { s2.power with restart := s2.power.restart.filter (fun n => !ctxs.contains n) ++ ctxs } }.settle)

/-- A context restarts from its code object: mapped, placed and admitted again, its rings created again (R561). From
RESETTING a context that does not restart is STOPPED (R321). -/
def State.restartCtx (s : State) (n : Nat) : State :=
  if s.stoppingCtx.contains n then (s.setCtxRst n false).ctxStopped n
  else
    let s3 := (s.setO (ctxObj n 0xB) 0).ctxBegin n
    if s3.ctxState n = 6 then (s3.setCtxRst n false).ctxStopped n
    else
      let s4 := match s3.mapOf n with | some m => s3.recreateRings m | none => s3
      ((s4.setO (ctxObj n 0xD) (s3.o (ctxObj n 0xD) - 1)).setCtxRst n true).ctxRestarted n

/-- The mappings of contexts that wait for a restart are given up. -/
def State.dropRestarting (s : State) : State :=
  s.power.restart.foldl (fun t n =>
    let u := match t.mapOf n with | some m => t.dropQueues m | none => t
    { u with maps := Tbl.set none u.maps n none }) s

/-- Contexts that wait for a restart restart once none of their cores is in self-test and their image is not awaited; those
of partition 0 once every pinned image is back (R52). They are mapped one by one, and their plan is then admitted with the
loop's groups as one. -/
def State.restartReady (s : State) : State :=
  let ready := s.power.restart.filter (fun n =>
    !(s.ctxCores n).any (fun c => s.power.testing.contains c) && !s.reloads.contains (s.o (ctxObj n 4)) &&
    (s.o (ctxObj n 2) != 0 || s.reloads.isEmpty))
  if ready.isEmpty then s
  else
    let s1 := s.dropRestarting
    let s2 := { s1 with power := { s1.power with restart := s1.power.restart.filter (fun n => !ready.contains n) } }
    let s3 := (ready.foldl State.restartCtx (s2.setO 0x400001 0)).setO 0x400001 (s.o 0x400001)
    if ready.any (fun n => s.o (ctxObj n 2) == 0) then s3.recompose else s3

/-- Partition steps whose cores are all tested and whose contexts have all restarted end; the partition runs again. -/
def State.endPartitions (s : State) : State :=
  (s.steps.filter (fun x => x.req.code == 3 && x.done)).foldl (fun t x =>
    let p := x.req.target
    let cores := t.coresOf p
    if cores.any (fun c => t.power.testing.contains c) then t
    else
      let t1 := (t.clustersOf p).foldl (fun u k => u.setCluster k { u.cluster k with fenced := false }) t
      let t2 := cores.foldl (fun u c => u.setCore c { u.core c with fenced := false }) t1
      if t2.power.restart.any (fun n => (t2.ctxCores n).any (fun c => cores.contains c)) then t2
      else (t2.setO (partObj p 3) 1).endStep x) s

/-! ### Recovery return (R557) -/

/-- The hub queues of a group are emptied and its handles created again; the first result of each stream carries RESUMED
(R306, R309, R312). -/
def State.returnGroup (s : State) (g : Nat) : State :=
  let s1 := (List.range 4).foldl (fun t i => t.flushQueue hubUnit (4 * g + i)) s
  let s2 := ((s1.setO (groupObj g 9) 1).pushIngress g).pushFree g (s.frame % 4096)
  s2.withLoop (fun l => { l with resumed := l.resumed ++ (s.streamsOf g).filter (fun n => !l.resumed.contains n) })

/-- RECOVERY_RETURN: at the second frame start after the restart, before the tick of that frame reaches the cores (log 33),
groups return to RUN and contexts' CTXRST bits are cleared. -/
def execRecoveryReturn (s : State) : Host.Outcome State Fault Refusal :=
  .next (
    let ready := (s.loop.returning.filter (fun e => match e.2 with | some k => decide (2 ≤ k) | none => false)).map (fun e => e.1)
    if ready.isEmpty || !s.atBoundary then s
    else
      let s1 := (ready.filter (fun k => decide (8 ≤ k))).foldl (fun t k => t.setCtxRst (k - 8) false) s
      let s2 := (ready.filter (fun k => decide (k < 8))).foldl State.returnGroup s1
      (s2.withLoop (fun l => { l with returning := l.returning.filter (fun e => !ready.contains e.1) })).settle)

/-! ### Escalation (R549) and crossings (R552) -/

/-- The Max of a step in ns; a context reset of partition 0 excludes the waits of R555. -/
def State.stepMax (s : State) (x : ResetStep) : Nat :=
  match x.req.code with
  | 1 => if s.o (ctxObj x.req.target 2) = 0 then 3000 else 20000
  | 2 => 60000
  | 3 => 4000000
  | _ => 350000000

/-- The requests of the step above a step that has not finished (R549, R559): engine resets where the context's fence or
restart had not completed, and at the engine that started it; otherwise the next step. -/
def State.aboveStep (s : State) (x : ResetStep) : List ResetReq :=
  if x.req.code = 1 then
    let stuck := ((s.ctxCores x.req.target).flatMap (fun c => (List.range 5).map (fun e => c * 8 + e))).filter (fun t =>
      (s.engine (t / 8) (t % 8)).flights.any (fun f => f.cmd.ctx == x.req.target))
    let l := stuck ++ (match x.req.eng with | some e => if stuck.contains e then [] else [e] | none => [])
    if l.isEmpty then [s.nextStep x.req] else l.map (fun t => { x.req with code := 2, target := t })
  else [s.nextStep x.req]

/-- ESCALATION: a step that has passed its Max, or whose fence is not complete after t_FNC = 2.5 µs, is abandoned and the
next step performed; `stuck` says that the wait of a context reset was not one of R555. -/
def execEscalation (stuck : Bool) (s : State) : Host.Outcome State Fault Refusal :=
  .next (
    let excess (x : ResetStep) : Bool :=
      let wait := x.req.code == 1 && s.o (ctxObj x.req.target 2) == 0 && x.complete && !stuck
      (decide (x.begun + s.stepMax x < s.now) && !wait) || (!x.complete && decide (x.begun + 2500 < s.now))
    match s.steps.find? excess with
    | none => s
    | some x =>
      let s1 := { s with steps := s.steps.filter (fun y => !(y.req.code == x.req.code && y.req.target == x.req.target)) }
      let up := s.aboveStep x
      let s2 := (s1.incO 0x80000D 1).logEv 0x17 0 0 { detail := (up.headD x.req).code }
      { s2 with reqs := up ++ s2.reqs })

/-- CROSSING_FAULT: a crossing of a cluster, or of no cluster, fails its check: it is logged and counted, and the step above
the one in progress follows, or a partition or package reset (R552). -/
def execCrossingFault (k : Option (Fin 6)) (s : State) : Host.Outcome State Fault Refusal :=
  .next (
    let s1 := (s.incO 0x202005 1).logEv 0x15 (if k.isSome then 2 else 7) ((k.map (fun i => i.val)).getD 0) {}
    let part := k.bind (fun i => s.partOfCluster i)
    match s.steps.getLast?, part with
    | some x, _ =>
      let s2 := { s1 with steps := s1.steps.filter (fun y => !(y.req.code == x.req.code && y.req.target == x.req.target)) }
      { (s2.incO 0x80000D 1) with reqs := s.nextStep x.req :: s2.reqs }
    | none, some p => s1.raise ⟨3, p, 0, none, true⟩
    | none, none => s1.raise ⟨4, 0, 0x07, none, true⟩)

/-! ### FENCE between partners (R475) -/

/-- A FENCE frame arrives. A request has this device empty the ends of the pairs with the partner's clusters and answer
complete; a completion ends the wait. -/
def State.onFence (s : State) (n w2 : Nat) : State :=
  let d := s.o (peerObj n 2)
  if nbit w2 8 then s.setPeer n { s.peer n with fenceSent := none }
  else
    let s1 := (List.range 8).foldl (fun t u => (List.range 32).foldl (fun t q =>
      let x := t.hq u q
      if x.depth != 0 && ((x.isForward && fld x.w0 7 2 == d && nbit w2 (fld x.w0 9 3)) ||
          (!x.isForward && x.sen && fld x.w1 0 2 == d && nbit w2 (fld x.w1 2 3))) then
        t.setHq u q { x with items := [], occ := 0 } else t) t) s
    s1.sendRel (s1.peerLane n (2 ^ 22) false) 0 ⟨0x0A, nfld w2 0 6 + 2 ^ 8, 0, [], 2 ^ 22, 0, 0⟩

/-- PEER_FENCE_TIMEOUT: a FENCE unanswered for 10 ms escalates: every partition with an end of a forwarding pair with the
partner is reset. -/
def execPeerFenceTimeout (n : Fin 3) (s : State) : Host.Outcome State Fault Refusal :=
  .next (
    let x := s.peer n
    if x.fenceSent.isNone ∨ s.now < x.fenceAt + 10000000 then s
    else
      let s1 := s.setPeer n { x with fenceSent := none }
      (s.pairPartitions (s.o (peerObj n 2))).foldl (fun t p => t.raise ⟨3, p, 0, none, true⟩) s1)

end Sys2Proof.Machine
end

