-- ==== Sys2Proof/Machine/LoopCtl.lean ====
section
/-! DEFINITION. Starting and stopping the loop: the checks of LOOP_ENABLE, the loop's buffers and hub queues, and the restart
after a package reset (R50, R300, R304, R308, R313, R451, R457, R562). -/

namespace Sys2Proof.Machine

/-! ### Checks of the configuration -/

/-- R300: INGRESS_CLOSE_NS + t_ING + t_EGR < DEADLINE_NS ≤ FRAME_PERIOD_NS − t_FREE, the period within its limits. -/
def loopTimesOk (period deadline close : Nat) : Bool :=
  decide (15625 ≤ period) && decide (period ≤ 125000) && decide (close + 600 + 500 < deadline) &&
    decide (deadline + 4000 ≤ period)

/-- R304: distinct members, buffers inside hub SRAM and apart. -/
def State.groupsOk (s : State) : Bool :=
  let gs := s.groupsInUse
  let bufs := gs.map s.inBuffer ++ gs.map s.outBuffer
  gs.all (fun g =>
    let ms := (s.streamsOf g).map (fun n => s.o (streamObj n 5))
    ms.eraseDups.length == ms.length &&
      (s.streamsOf g).all (fun n =>
        decide (s.o (streamObj n 6) ≤ s.o (groupObj g 2)) && decide (s.o (streamObj n 7) ≤ s.o (groupObj g 4)))) &&
    bufs.all (fun b => decide (b.1 + b.2 ≤ 0x800000)) && apart bufs

/-- Bytes of the RESULTS frame's payload (R451). -/
def State.resultsBytes (s : State) : Nat :=
  (s.streams.map (fun n => 8 + cdiv (s.o (streamObj n 7)) 8 * 8)).sum

/-- R451: the RESULTS frame ends within the frame; times in tenths of a ns. -/
def State.egressFits (s : State) : Bool :=
  decide (10 * s.deadline + 64 + frameBlocks s.resultsBytes * 64 ≤ 10 * s.period)

/-- A queue named by a group: a queue of a cluster, or none. -/
def queueNamed (v : Nat) : Bool := v == 0xFFFF || (decide (v < 256) && decide (nfld v 0 3 < 6) && decide (nfld v 3 5 < 31))

/-- The ring of a source: offset in hub SRAM and bytes. -/
def State.ring (s : State) (n : Nat) : Nat × Nat := (s.o (srcObj n 8), 16 * s.o (srcObj n 9))

/-- The buffers in hub SRAM of the units that are enabled, each an offset and a length: the two halves of a context in
adaptation, a camera's control block and the ring that lies there, the tokenizer's ring and control block. -/
def State.unitBuffers (s : State) : List (Nat × Nat) :=
  ((List.range 64).filter (fun n => s.o (ok (0x3060 + n) 1) == 1)).map
      (fun n => (s.o (ok (0x3060 + n) 4), 2 * s.o (ok (0x3060 + n) 6) * s.o (ok (0x3060 + n) 5))) ++
    ((List.range 4).filter (fun k => s.o (ok (0x5200 + k) 1) == 1)).flatMap
      (fun k => (s.o (ok (0x5200 + k) 0x1A), 64) ::
        (match s.place (s.o (ok (0x5200 + k) 0x17)) with
         | .hubSram off => [(off, s.o (ok (0x5200 + k) 0x18) * s.o (ok (0x5200 + k) 0x19))]
         | _ => [])) ++
    (if s.o (ok 0x5300 1) = 1 then [(s.o (ok 0x5300 4), 2 * s.o (ok 0x5300 5)), (s.o (ok 0x5300 6), 64)] else [])

/-- R374: enabled sources share no port and SRC_ID, and rings lie in hub SRAM apart from each other, the loop's buffers and
those of the units that are enabled (log 172). -/
def State.sourcesOk (s : State) : Bool :=
  let ns := (List.range 64).filter (fun n => s.o (srcObj n 1) == 1)
  let ids := ns.map (fun n => (s.o (srcObj n 2), s.o (srcObj n 3)))
  let rings := (ns.map s.ring).filter (fun r => r.2 != 0)
  ids.eraseDups.length == ids.length && rings.all (fun r => decide (r.1 + r.2 ≤ 0x800000)) &&
    apart (rings ++ s.groupsInUse.map s.inBuffer ++ s.groupsInUse.map s.outBuffer) &&
    rings.all (fun r => s.unitBuffers.all (fun b => !rangesMeet r.1 r.2 b.1 b.2))

/-- Extent of an aligner channel in its stream's row. -/
def State.channelExtent (s : State) (c : Nat) : Nat × Nat :=
  (s.o (alignObj c 4), ((Fmt.ofCode (s.o (alignObj c 5))).getD .fp32).bytes)

/-- R381: channels name enabled sources and streams with SOURCE = 1, whose rows hold their extents apart; each such stream
has a channel. -/
def State.alignersOk (s : State) : Bool :=
  let cs := (List.range 64).filter (fun c => s.o (alignObj c 1) == 1)
  cs.all (fun c =>
    let e := s.channelExtent c
    s.o (srcObj (s.o (alignObj c 2)) 1) == 1 && s.o (streamObj (s.o (alignObj c 3)) 8) == 1 &&
      decide (e.1 + e.2 ≤ s.o (streamObj (s.o (alignObj c 3)) 6))) &&
  (List.range 32).all (fun n =>
    let mine := cs.filter (fun c => s.o (alignObj c 3) == n)
    apart (mine.map s.channelExtent) && (s.o (streamObj n 1) != 1 || s.o (streamObj n 8) != 1 || !mine.isEmpty))

/-- The checks that answer a write of LOOP_ENABLE = 1 with RANGE, but for the granules and queues (R300, R304, R374, R381,
R451, R457). -/
def State.loopConfigOk (s : State) : Bool :=
  loopTimesOk s.period s.deadline s.ingressClose && s.groupsOk && s.egressFits && decide (s.o 0x710003 < s.o 0x400005) &&
    s.groupsInUse.all (fun g => [5, 6, 7, 8].all (fun b => queueNamed (s.o (groupObj g b)))) && s.sourcesOk && s.alignersOk

/-! ### Buffers (R304) -/

/-- The hub SRAM granule lies in a buffer. -/
def granuleMeets (g : Nat) (b : Nat × Nat) : Bool := rangesMeet (g * 0x1000) 0x1000 b.1 b.2

/-- Runs of granules that hold bytes of the loop's buffers, as first granule, count, and whether they are written. -/
def State.loopRuns_ (s : State) : List (Nat × Nat × Bool) :=
  let gs := s.groupsInUse
  let ins := gs.map s.inBuffer
  let outs := gs.map s.outBuffer
  let marked := (List.range 2048).filterMap (fun (g : Nat) =>
    if outs.any (granuleMeets g) then some (g, true) else if ins.any (granuleMeets g) then some (g, false) else none)
  (marked.foldl (fun (l : List (Nat × Nat × Bool)) m =>
    match l with
    | r :: t => if r.1 + r.2.1 = m.1 && r.2.2 == m.2 then (r.1, r.2.1 + 1, r.2.2) :: t else (m.1, 1, m.2) :: l
    | [] => [(m.1, 1, m.2)]) []).reverse

/-- The entries that firmware holds for loop buffers are closed under R32. -/
def State.closeBuffers (s : State) : State := { (s.loopRgns.foldl State.rgnDrop s) with loopRgns := [] }

/-- Word 0 of the entry of a run of granules. -/
def loopWord (r : Nat × Nat × Bool) : W32 :=
  BitVec.ofNat 32 (r.1 + (r.2.1 - 1) * 2 ^ 12 + 2 ^ 24 + 2 ^ 27 + b01 r.2.2 * 2 ^ 28 + 2 ^ 31)

/-- The entries that firmware holds are those of the runs, and none is closing. -/
def State.buffersOpen (s : State) (runs : List (Nat × Nat × Bool)) : Bool :=
  s.loopRgns.map (fun e => s.rgn e 0) == runs.map loopWord && s.loopRgns.all (fun e => (Tbl.get none s.rgnNext e).isNone)

/-- Region-table entries for the loop's buffers: owner 0, readable by every owner's contexts of partition 0, an egress
granule writable (log 32). Entries that firmware holds already stay where they are the same; others close first. None where a
granule is covered already, by an entry that is still closing too, or too few entries are free. -/
def State.openBuffers (s : State) : Option State :=
  let runs := s.loopRuns_
  if s.buffersOpen runs then some s else
  let s0 := s.closeBuffers
  let free := (List.range 64).filter (fun e => !bit (s0.rgn e 0) 31 && (Tbl.get none s0.rgnNext e).isNone)
  if free.length < runs.length ∨
      runs.any (fun r => (List.range r.2.1).any (fun i => (s0.coverOf false (r.1 + i)).isSome)) = true then none
  else
    let used := free.take runs.length
    let t := (runs.zip used).foldl (fun (t : State) (x : (Nat × Nat × Bool) × Nat) =>
      (t.rgnInstall x.2 (loopWord x.1) 0x1F).setO (ok (0x6100 + x.2) 4) 1) s0
    some { t with loopRgns := used }

/-! ### Hub queues (R304) -/

/-- A queue's configuration words, its contents gone. -/
def State.putQueue (s : State) (u q w0 w1 : Nat) : State :=
  s.setHq u q { HQueue.reset with w0 := BitVec.ofNat 32 w0, w1 := BitVec.ofNat 32 w1 }

/-- A hub queue that forwards to a cluster queue, and that cluster queue where it is off. -/
def State.hubForward (s : State) (q : Nat) (t : Option (Nat × Nat)) : State :=
  match t with
  | none => s.putQueue hubUnit q 0 0
  | some k =>
    let s1 := s.putQueue hubUnit q (1 + 2 ^ 5 + s.devNum * 2 ^ 7 + k.1 * 2 ^ 9 + k.2 * 2 ^ 12) 0
    if (s1.hq k.1 k.2).depth = 0 then s1.putQueue k.1 k.2 1 (s.devNum + hubUnit * 2 ^ 2 + q * 2 ^ 5 + 2 ^ 10) else s1

/-- A LOCAL hub queue whose source is a cluster queue, and that cluster queue where it is off. -/
def State.hubLocal (s : State) (q : Nat) (t : Option (Nat × Nat)) : State :=
  match t with
  | none => s.putQueue hubUnit q 1 0
  | some k =>
    let s1 := s.putQueue hubUnit q 1 (s.devNum + k.1 * 2 ^ 2 + k.2 * 2 ^ 5 + 2 ^ 10)
    if (s1.hq k.1 k.2).depth = 0 then
      s1.putQueue k.1 k.2 (1 + 2 ^ 5 + s.devNum * 2 ^ 7 + hubUnit * 2 ^ 9 + q * 2 ^ 12) 0 else s1

/-- Hub queues 4g to 4g + 3 of a group in use. -/
def State.groupQueuesSet (s : State) (g : Nat) : State :=
  (((s.hubForward (4 * g) (s.groupQueue g 5)).hubLocal (4 * g + 1) (s.groupQueue g 6)).hubLocal (4 * g + 2)
    (s.groupQueue g 7)).hubForward (4 * g + 3) (s.groupQueue g 8)

/-- The cluster queue named in IN_TARGET or OUT_FREE is LOCAL with DEPTH of at least 1 and takes what hub queue `q` forwards. -/
def State.targetOk (s : State) (q : Nat) : Option (Nat × Nat) → Bool
  | none => true
  | some k =>
    let y := s.hq k.1 k.2
    y.depth != 0 && fld y.w0 5 2 == 0 && bit y.w1 10 && fld y.w1 0 2 == s.devNum && fld y.w1 2 3 == hubUnit && fld y.w1 5 5 == q

/-- The cluster queue named in IN_RETURN or OUT_SOURCE is a FORWARD queue of DEPTH 1 whose target is hub queue `q`. -/
def State.sourceOk (s : State) (q : Nat) : Option (Nat × Nat) → Bool
  | none => true
  | some k =>
    let y := s.hq k.1 k.2
    y.depth == 1 && fld y.w0 5 2 == 1 && fld y.w0 7 2 == s.devNum && fld y.w0 9 3 == hubUnit && fld y.w0 12 5 == q

/-- Every configured pair of the groups' queues satisfies R296, and the cluster queues that the groups name have the mode, the
depth and the peer of the table of R304. -/
def State.groupPairsOk (s : State) : Bool :=
  s.groupsInUse.all (fun g => (List.range 4).all (fun i => s.endsFit hubUnit (4 * g + i)) &&
    s.targetOk (4 * g) (s.groupQueue g 5) && s.sourceOk (4 * g + 1) (s.groupQueue g 6) &&
    s.sourceOk (4 * g + 2) (s.groupQueue g 7) && s.targetOk (4 * g + 3) (s.groupQueue g 8))

/-! ### LOOP_ENABLE (R308, R611) -/

/-- Steps 2 and 3 of loop enable on an admitted plan: hub queues and groups are configured, WRITE_COUNT of every source counts
from 0, and the loop waits for SYNC. -/
def State.enterWaitSync (s : State) (resume : Option (Nat × Nat)) : State :=
  let s0 := (List.range 64).foldl (fun t n => t.setO (srcObj n 0xA) 0) s
  let s1 := s0.groupsInUse.foldl (fun t g => t.setO (groupObj g 9) 1) s0
  ((s1.setO 0x400006 1).withLoop (fun l =>
    { l.kept with modelsReady := s.pinnedLoaded, resumeFrom := resume, switchDue := l.switchDue })).settle

/-- A write of LOOP_ENABLE = 1 on a loop that is OFF: the configuration is checked, its granules opened, and the plan
admitted; where admission fails, LOOP_ENABLE reads 0. -/
def State.loopStart (s : State) (resume : Option (Nat × Nat)) : State × Nat :=
  if !s.loopConfigOk then (s, 0x05)
  else match s.openBuffers with
    | none => (s, 0x05)
    | some s1 =>
      let s2 := s1.groupsInUse.foldl State.groupQueuesSet s1
      if !s2.groupPairsOk then (s, 0x05)
      else
        let a := (s2.setO 0x400001 1).admitted
        if a.2 then (a.1.loadPlan.enterWaitSync resume, 0)
        else (((s.setO 0x400001 0).setO 0x400008 (a.1.o 0x400008)).settle, 0)

/-- A write of LOOP_ENABLE. A 1 while the stop of R308 is awaited keeps the loop running. -/
def State.loopEnable (s : State) (v : Nat) : State × Nat :=
  if v = s.o 0x400001 then (s, 0)
  else if v = 1 then
    if s.o 0x1F2002 = 3 ∨ s.o 0x1F2002 = 4 ∨ s.power.entering ≠ 0 then (s, 0x06)
    else if s.o 0x400006 ≠ 0 then ((s.setO 0x400001 1).withLoop (fun l => { l with stopping := false }), 0)
    else s.loopStart none
  else
    let s1 := s.setO 0x400001 0
    if s1.loopRuns then ((s1.withLoop (fun l => { l with stopping := true })).settle, 0) else (s1.stopLoop, 0)

/-! ### The end of a package reset (R50, R313, R502, R562) -/

/-- A package reset, or a stop by thermal trip, is over once every core is tested, every pinned image reloaded and every
context restarted: the loop held before it waits for the first SYNC that agrees, or the package-reset condition of
RECOVERING ends. -/
def State.packageDone (s : State) : State :=
  let step := s.steps.find? (fun x => x.req.code == 4 && x.done)
  if !s.boot.up || !s.power.testing.isEmpty || !s.reloads.isEmpty || !s.power.restart.isEmpty ||
      (step.isNone && !s.boot.loopHeld) then s
  else
    let s1 := match step with | some x => s.endStep x | none => s
    if s1.boot.loopHeld then
      let r := (s1.setO 0x400001 0).loopStart s1.loop.resumeFrom
      let s2 : State := { r.1 with boot := { r.1.boot with loopHeld := false } }
      if s2.o 0x400001 = 1 then s2
      else
        let s3 := s2.withLoop (fun l => { l with spansReset := false, resetSince := false })
        ({ s3 with boot := { s3.boot with resetOpen := false } }).settle
    else ({ s1 with boot := { s1.boot with resetOpen := false } }).settle

end Sys2Proof.Machine
end

