-- ==== Sys2Proof/Machine/Repair.lean ====
section
/-! DEFINITION. Repairs in service (R56 to R65, R116 to R125, R349 to R351, R418, R419, R572): array self-test, column bypass
and core retirement, sparing, and the reload of pinned models. -/

namespace Sys2Proof.Machine

/-! ### ME.CFG and the repair state -/

/-- The physical columns that the bypass slots of a core remove. -/
def Core.bypassed (x : Core) : List Nat :=
  (if bit x.meCfg 5 then [fld x.meCfg 0 5] else []) ++ (if bit x.meCfg 13 then [fld x.meCfg 8 5] else [])

/-- ME.CFG with a column put into the first free bypass slot; with no slot free the core is retired (R63, R116). -/
def bypassColumn (v : W32) (col : Nat) : W32 :=
  if !bit v 5 then put32 (put32 v 0 5 col) 5 1 1
  else if !bit v 13 then put32 (put32 v 8 5 col) 13 1 1
  else put32 v 17 1 1

/-- A repair of a core takes effect: REPAIRS counts it. -/
def State.applyRepair (s : State) (r : Repair) : State :=
  let v := (s.core r.core).meCfg
  let s1 := s.putMeCfg r.core (match r.col with | some col => bypassColumn v col | none => put32 v 17 1 1)
  let s2 := (s1.setO (repairObj r.core 7) 0xFF).incO 0x800006 1
  s2.setCore r.core { s2.core r.core with outOfUse := 0, atomMask := 0 }

/-- The list of repairs that wait, in the state and in flash, and HEALTH.PENDING (R61). -/
def State.setRepairs (s : State) (l : List Repair) : State :=
  ({ s with repairs := l, flash := { s.flash with repairs := l } }).setO 0x800007 (min 255 l.length)

/-- R121: FILL_MODE of the cores of a partition: 1 where at most four of them are in service and the compute die then holds
at most four such cores, partitions taken in ascending number. -/
def State.fillOf (s : State) (p : Nat) : Bool :=
  let small (q : Nat) : Bool := decide (((s.coresOf q).filter s.inService).length ≤ 4)
  let onDie (q d : Nat) : Nat := ((s.coresOf q).filter (fun c => c / 12 == d && s.inService c)).length
  let taken (q : Nat) (l : List Nat) (d : Nat) : Nat := ((l.filter (fun i => decide (i < q))).map (fun i => onDie i d)).sum
  let chosen := (List.range 4).foldl (fun (l : List Nat) q =>
    if small q && [0, 1].all (fun d => onDie q d == 0 || decide (taken q l d + onDie q d ≤ 4)) then l ++ [q] else l) []
  chosen.contains p

/-- Firmware sets FILL_MODE of a fenced partition's cores. -/
def State.setFill (s : State) (p : Nat) : State :=
  let f := s.fillOf p
  (s.coresOf p).foldl (fun t c => t.setCore c { t.core c with meCfg := put32 (t.core c).meCfg 16 1 (b01 f) }) s

/-- FILL_MODE of every partition's cores: the small partitions of a die depend on one another (R121). -/
def State.fillAll (s : State) : State := (List.range 4).foldl State.setFill s

/-! ### Cluster retirement -/

/-- A context whose configuration has lost its variant is REFUSED with reason 4 and the key sought (R59, R346). -/
def State.refuseVariant (s : State) (n key : Nat) : State :=
  let s1 := match s.mapOf n with | some m => s.dropQueues m | none => s
  let s2 := (({ s1 with maps := Tbl.set none s1.maps n none }).setCtxEn n false).zeroScales n
  (((s2.noVariant n).setO (ctxObj n 0x11) key).setO (ctxObj n 0x12) 0).refuseStart n 4 0

/-- A mapped context is mapped anew on its cores in service (R57, R59, R345): the variant that matches replaces the one in
use, or the context is refused. Where every queue keeps its place, so do its contents; else its rings are created
again. -/
def State.remap (s : State) (n : Nat) : State :=
  match s.mapOf n with
  | none => s
  | some m0 =>
    let img := s.imageOf m0.slot
    let cores := s.configCores n
    let t := s.tryConfig n m0.slot img cores (s.widthCodes cores) (nfld m0.key 54 6)
    match t.mapped with
    | none => s.refuseVariant n t.key
    | some m =>
      if m.1.rt && m.2.admitCode m.2.rtMaps m.2.admitGroups != 1 then s.refuseVariant n t.key
      else
        let s1 := (s.fresh.2).useVariant n img t m.1
        let s2 := { s1 with maps := m.2.maps, hqs := if m.1.queues = m0.queues then s1.hqs else m.2.hqs }
        let s3 := if m.1.queues = m0.queues then s2 else s2.recreateRings m.1
        if m.1.rt then (s3.admitted.1).loadPlan else s3

/-- REPAIR_READY of every mapped context follows the configuration (R351). -/
def State.refreshReady (s : State) : State :=
  (s.maps.map (fun p => p.1)).foldl (fun t n => t.setO (ctxObj n 0x13) (t.repairReady n)) s

/-- The mapped contexts that have a program on a core of a list. -/
def State.mappedOn (s : State) (cores : List Nat) : List Nat :=
  (s.maps.filter (fun p => (p.2.map (fun m => m.progs.any (fun q => cores.contains q.core))).getD false)).map (fun p => p.1)

/-- A cluster is retired: none of its cores is in service, and the contexts that run there lose their variant or take that
of N − 1 (the repairs table). -/
def State.retireCluster (s : State) (k : Nat) : State :=
  if s.oBit 0x800004 k then s
  else
    let s1 := (s.setOBit 0x800004 k true).logEv 0x1D 2 k {}
    let s2 := { s1 with flash := { s1.flash with clusters := s1.o 0x800004 } }
    let hit := s2.mappedOn ((List.range 4).map (fun i => 4 * k + i))
    ((hit.foldl State.remap s2.fillAll).refreshReady).settle

/-- A second retirement in a cluster retires it. -/
def State.checkCluster (s : State) (c : Nat) : State :=
  if 2 ≤ countBelow 4 (fun i => (s.core (c / 4 * 4 + i)).retired) then s.retireCluster (c / 4) else s

/-! ### Start-up and recovery self-test (R119, R155 to R157) -/

/-- The core's storage after a run: cleared, out of self-test mode. -/
def Core.tested (x : Core) : Core := { x.cleared with fenced := x.fenced, selfTest := false }

/-- What the self-test of a core finds: failing columns and repairs recorded before are bypassed, a third defective column
or another failure retires the core. -/
def State.testFindings (s : State) (c : Nat) (cols : List Nat) (failed : Bool) : State :=
  let due := s.repairs.filter (fun r => r.core == c)
  let s1 := due.foldl State.applyRepair (if due.isEmpty then s else s.setRepairs (s.repairs.filter (fun r => r.core != c)))
  let fresh := cols.filter (fun i => !(s1.core c).bypassed.contains i)
  let l : List Repair := if failed then [⟨c, none, true⟩] else fresh.map (fun i => ⟨c, some i, true⟩)
  (l.foldl (fun t r => if (t.core c).retired then t else (t.applyRepair r).logEv 0x1D 1 c { detail := (r.col.getD 0xFF) }) s1).checkCluster c

/-- Rows whose sparing was due when the reset or power cycle came are spared at start-up, before the loop resumes (R61). -/
def State.spareDue (s : State) : State :=
  (s.ceRows.filter s.rowDue).foldl (fun t r => t.spareRow r.ch r.bank r.row) s

/-- Boot goes on once no core is left in self-test: the region table stands, the scheduler core serves the full dictionary,
and what waits for the end of the tests is done (R534 steps 7 to 9). -/
def State.testsDone (s : State) : State :=
  if !s.power.testing.isEmpty then s
  else
    let s1 := if s.power.stage = 2 then
        let s0 : State := { s.wakeDram with power := { s.power with stage := 3 }, boot := { s.boot with up := true } }
        ((List.range 6).foldl (fun t k =>
          if (t.partOfCluster k).isSome then t else t.setCluster k { t.cluster k with p2 := true }) s0).spareDue
      else s
    s1.settle

/-- The cycles of a core that an array test atom lasts: 2 µs (R58, R120). -/
def State.atomCycles (s : State) (c : Nat) : Nat := 2 * s.clusterMhz (c / 4)

/-- No ME command of a core issues before cycle `fin`: no slot of the ME is open or opens before it, and the oldest best-effort
command, if there is one, issues no earlier (R120). -/
def State.meQuietTo (s : State) (c fin : Nat) : Bool :=
  let x := s.core c
  let y := x.engine 0
  let now := s.coreCycle c
  (match x.tickAt with
   | none => true
   | some t => (x.openSlot 0 now).isNone &&
      (match nextStart t x.framePeriod now ((y.usedSlots x.frameActive).drop y.slotIdx) (y.usedSlots x.nextBank) with
       | some st => decide (fin ≤ st)
       | none => true)) &&
    (match x.ofClass 0 false with
     | [] => true
     | q :: _ => decide (fin ≤ y.beStart.getD now + 4 * q.cmd.at_))

/-- The whole atom of 2 µs lies in the free portion of the frame. -/
def State.atomFits (s : State) : Bool :=
  match s.frameTime with
  | some t => decide (s.o 0x400003 ≤ t) && decide (t + 2000 ≤ s.period)
  | none => true

/-- The scan of another core goes on: an atom of it runs, or its columns are not all tested, while it is in service and not
stopped. Cores are tested one at a time (R58). -/
def State.scanElsewhere (s : State) (c : Nat) : Bool :=
  anyBelow 24 (fun d => d != c && s.inService d && !s.stopped (d / 4) && !(s.core d).fenced &&
    (decide (s.coreCycle d < (s.core d).atomEnd) || (s.core d).atomMask != 0 || (s.core d).atomRepeat.isSome))

/-- An atom may begin on a core: it fits the free portion, the ME is idle and stays so to the atom's end, the core is in service
mode, no other core's scan goes on, and no repair of a higher rank is due (R58, R65, R120, R158). -/
def State.atomMay (s : State) (c : Nat) : Bool :=
  let x := s.core c
  let now := s.coreCycle c
  s.atomFits && s.inService c && !x.fenced && !x.selfTest && x.outOfUse == 0 && (x.engine 0).flights.isEmpty &&
    !s.stopped (c / 4) && decide (x.atomEnd ≤ now) && s.meQuietTo c (now + s.atomCycles c) && !s.scanElsewhere c &&
    !s.yields 3

/-- A column of the scan is done; with the last of those not bypassed the scan is complete. -/
def State.scanColumn (s : State) (c col : Nat) : State :=
  let x := s.core c
  let mask := nput x.atomMask col 1 1
  if (x.columns).all (nbit mask) then
    ((s.setCore c { x with atomMask := 0 }).setO (repairObj c 4) s.now).incO (repairObj c 5) (b01 s.accounts)
  else s.setCore c { x with atomMask := mask }

/-- The contexts of a list whose REPAIR_READY says that the repair is cold: their groups are RECOVERING from now on
(R350). -/
def State.coldGroups (s : State) (ctxs : List Nat) (bitNo : Nat) : State × Bool :=
  let cold := ctxs.filter (fun n => !s.oBit (ctxObj n 0x13) bitNo)
  ((cold.flatMap s.groupsFed).foldl (fun t g => if t.o (groupObj g 9) = 1 then t.setO (groupObj g 9) 2 else t) s, cold.isEmpty)

/-- A Lovage handoff that is CONFIRMING meets an event that reverts it with cause 4 (R527). -/
def State.meetHandoff (s : State) : State :=
  if s.o 0xA01008 = 2 then { s with fw := { s.fw with revert := 4 } } else s

/-- A defect is confirmed: the column, or with no bypass slot left the core, is out of use until its repair (R57, R63,
R120). -/
def State.confirmDefect (s : State) (c col : Nat) : State :=
  let retire := decide (2 ≤ (s.core c).bypassed.length)
  let g := s.coldGroups (s.mappedOn [c]) (if retire then 3 else 2)
  let s1 := g.1.setCore c { g.1.core c with outOfUse := if retire then 2 else 1 }
  let s2 := (s1.setRepairs (s1.repairs ++ [⟨c, if retire then none else some col, g.2⟩])).setO (repairObj c 7) col
  ((s2.logEv 0x1D 1 c { detail := col }).meetHandoff).settle

/-- SELFTEST_ATOM: an atom on column `col` of a core begins, lasts 2 µs and has the given outcome; a failing atom is repeated on
the same column, a pass on the repeat is transient, and a second failure confirms the defect. With FILL_MODE = 0 the atom has
the ramp of 32 cycles and the step-down of 32 cycles of R125, which count as dummy cycles (DEDUCED, log 182). -/
def execSelftestAtom (core : Fin 24) (col : Fin 32) (failed : Bool) (s : State) : Host.Outcome State Fault Refusal :=
  .next (
    let c := core.val
    let x := s.core c
    if !s.atomMay c || !x.columns.contains col.val || !(x.atomRepeat.map (fun r => r == col.val)).getD true then s
    else
      let fin := s.coreCycle c + s.atomCycles c
      let s0 := s.setCore c { x with gapFrom := some fin, atomEnd := fin, atomRepeat := none }
      let s1 := if x.fillMode then s0 else s0.event 0x001 c 64
      match failed, x.atomRepeat with
      | true, none => s1.setCore c { s1.core c with atomRepeat := some col.val }
      | true, some _ => ((s1.scanColumn c col).confirmDefect c col).recordRepair s
      | false, some _ => (s1.incO (repairObj c 6) 1).scanColumn c col
      | false, none => s1.scanColumn c col)

/-! ### Applying repairs (R57, R59, R61, R350) -/

/-- The queues of a retired core are flushed, for which it is fenced (R28), and its storage cleared. -/
def State.emptyCore (s : State) (c : Nat) : State :=
  let s1 := s.setCore c { s.core c with fenced := true }
  (s1.stopFlights (fun k _ _ => k == c)).setCore c { (s.core c).cleared with fenced := false, selfTest := false }

/-- The repairs of a partition take effect together with the one variant of each context that matches all of them. -/
def State.applyAll (s : State) (l : List Repair) : State :=
  let cores := l.map (fun r => r.core)
  let hit := s.mappedOn cores
  let rest := s.repairs.filter (fun r => !l.contains r)
  let s1 := l.foldl State.applyRepair (s.setRepairs rest)
  let s2 := (l.filter (fun r => (s1.core r.core).retired)).foldl (fun t r => (t.emptyCore r.core).checkCluster r.core) s1
  let s3 := (hit.foldl State.remap s2.fillAll).refreshReady
  let back := (hit.flatMap s3.groupsFed).eraseDups.filter (fun g =>
    s3.o (groupObj g 9) == 2 && (Tbl.get none s3.loop.returning g).isNone)
  let s4 := back.foldl State.returnGroup s3
  { s4.settle with flash := { s4.settle.flash with sumDue := true } }

/-- The repairs of a partition that wait. -/
def State.repairsOf (s : State) (p : Nat) : List Repair := s.repairs.filter (fun r => (s.coresOf p).contains r.core)

/-- REPAIR_APPLY: the repairs of partition `p`. Images of a cold variant are placed first; then, at the boundary of a frame
(log 33), they take effect together, and the repair state is recorded (R64). A repair in a partition under reset waits for
the end of the reset. -/
def execRepairApply (p : Fin 4) (s : State) : Host.Outcome State Fault Refusal :=
  .next (
    let l := s.repairsOf p
    if l.isEmpty || decide (2 ≤ s.o (partObj p 3)) || !s.boot.up then s
    else if l.any (fun r => !r.placed) then
      if s.freePortion then
        s.setRepairs (s.repairs.map (fun r => if l.contains r then { r with placed := true } else r))
      else s
    else if !s.atBoundary || s.publishing then s
    else (s.applyAll l).recordRepair s)

/-! ### Pages of pinned images (R356, R419) -/

/-- Pinned images that lie on a retired page are reloaded into other pages. -/
def State.replaceRetired (s : State) : State :=
  let hit := ((List.range 32).map (fun i => i + 1)).filter (fun k =>
    (Tbl.get none s.pins k).isSome && !s.reloads.contains k && s.o (slotObj k 5) != 0 &&
      s.retiredPages.any (fun p => decide (s.o (slotObj k 0xC) / 0x200000 ≤ p) &&
        decide (p < s.o (slotObj k 0xC) / 0x200000 + imagePages (s.o (slotObj k 5)))))
  { s with reloads := s.reloads ++ hit }

/-- ROW_SPARING: a row due for it is copied to a spare and remapped, a poisoned or uncorrectable line with POISON = 1; with
no spare left its pages are retired (R417 to R419). -/
def execRowSparing (ch : Fin 8) (bank : Fin 16) (row : Fin 32768) (s : State) : Host.Outcome State Fault Refusal :=
  .next (if s.yields 2 then s else ((s.spareRow ch bank row).replaceRetired).recordRepair s)

/-- PINNED_RELOAD (R356): of slot k; `damaged`: the flash copy's CRC does not check. -/
def execPinnedReload (i : Fin 32) (damaged : Bool) (s : State) : Host.Outcome State Fault Refusal :=
  .next (
    let k := i.val + 1
    if !s.reloads.contains k || !s.boot.up || s.power.channelLost then s
    else
      let t := s.reload k damaged
      ((t.withLoop (fun l => { l with modelsReady := t.pinnedLoaded })).restartReady).endPartitions.packageDone)

/-- MODEL_RELOAD: a poisoned line of a pinned image's entry is written in full from its flash block; where the block's CRC
fails (`bad`) it stays poisoned, the entry is logged with DETAIL 1, and its page is handled under R419 (R572). -/
def execModelReload (line : Fin 0x8000000) (bad : Bool) (s : State) : Host.Outcome State Fault Refusal :=
  .next (
    let a := line.val * 64
    match (s.coverOf true (a / 0x200000)).bind s.slotOfEntry with
    | none => s
    | some k =>
      match Tbl.get none s.pins k with
      | none => s
      | some img =>
        let own := s.o (slotObj k 1)
        if !nbit (s.lineOf a) 0 then s
        else if bad then
          let c := s.dramMap a
          (((s.logEv 0x1E 3 c.1 { own := some own, addr := a, detail := 1 }).retireRow c.1 (bankOf c.2)
            (rowOf c.2)).replaceRetired).recordRepair s
        else
          let d := (img.drop (a - s.o (slotObj k 0xC))).take 64
          (s.lineWrite a (nfld (s.lineOf a) 1 2) (d ++ List.replicate (64 - d.length) 0)).logEv 0x1E 3 (s.dramMap a).1
            { own := some own, addr := a })

/-- PATROL_LATE: a patrol pass has not completed within PERIOD_H; LATE counts it once (R422). -/
def execPatrolLate (s : State) : Host.Outcome State Fault Refusal :=
  .next (
    let excess (c : Nat) : Bool := decide ((s.chan c).patrolStart + s.o 0x608001 * 3600000000000 ≤ s.now)
    if s.patrolLate || s.o 0x608002 == 0 || !s.channels.any excess then s
    else ({ (s.incO 0x608004 1) with patrolLate := true }).settle)

end Sys2Proof.Machine
end

