-- ==== Sys2Proof/Machine/Boot.lean ====
section
/-! DEFINITION. Flash, boot and the resets of the whole package: the kept store and the persistent summary (R498, R500, R504,
R569, R570), firmware slots and the choice of one (R521, R529 to R537), the package reset (R562), power-up and power cycles
(R563, R564, R606 to R611). -/

namespace Sys2Proof.Machine

/-! ### The kept store (R483, R498) -/

/-- The sub-index lies in a range that R498 marks "Kept" and is writable. -/
def isKept (k : Nat) : Bool :=
  let i := k / 256
  let b := k % 256
  let inr (a z : Nat) : Bool := decide (a ≤ i) && decide (i ≤ z)
  let ranges := inr 0x2000 0x2020 || inr 0x2100 0x2103 || inr 0x3000 0x303F || (inr 0x3040 0x305F && (b == 1 || b == 7)) ||
    inr 0x3060 0x309F || inr 0x3100 0x3103 || (inr 0x4000 0x402F && k != 0x400001) || inr 0x5000 0x5143 ||
    (inr 0x5200 0x5203 && b != 1) || (i == 0x5300 && b != 1) || inr 0x5500 0x557F || inr 0x6000 0x6080 ||
    inr 0x7000 0x701B || inr 0x7100 0x7121
  ranges && (match objRow i b with
    | some r => r.acc == .rw || r.acc == .rws
    | none => false)

/-- Values that outlast a power cycle without being kept: the repair state (R64) and what flash and fuses are. -/
def outlasts (k : Nat) : Bool :=
  let i := k / 256
  repairKey k || [0x1F3003, 0x800204, 0xA01009, 0xA0100A, 0xA0100B, 0xA0100C].contains k ||
    (decide (0xB020 ≤ i) && decide (i ≤ 0xB023))

/-! ### The persistent summary (R51, R569, R570) -/

/-- A log record (R568). -/
def logBytes (r : LogRec) (sticky : Bool) : List Byte :=
  let w0 := r.cls + b01 sticky * 2 ^ 6 + r.utype * 2 ^ 8 + r.unit % 32 * 2 ^ 12 + r.eng * 2 ^ 17 +
    r.own.getD 0 * 2 ^ 20 + b01 r.own.isSome * 2 ^ 22 + r.ctx.getD 0 * 2 ^ 23 + b01 r.ctx.isSome * 2 ^ 29
  leBytes 4 w0 ++ leBytes 8 r.time ++ leBytes 4 r.addr ++ leBytes 2 (r.addr / 2 ^ 32) ++ leBytes 2 r.supp ++
    leBytes 4 r.frame ++ leBytes 4 (r.status % 2 ^ 8 + r.detail * 2 ^ 8) ++ leBytes 4 r.number

/-- The bytes of CLASS_COUNTS. -/
def State.classBytes (s : State) : List Byte := (List.range 64).flatMap (fun i => leBytes 4 (Tbl.get 0 s.obs.classCounts i))

/-- The bytes of AVAIL_ACCOUNT in the record, 01 to 06 in order and two zero bytes (log 34). -/
def State.accountBytes (s : State) : List Byte :=
  leBytes 8 (s.o 0x801001) ++ leBytes 8 (s.o 0x801002) ++ leBytes 4 (s.o 0x801003) ++ leBytes 8 (s.o 0x801004) ++
    leBytes 8 (s.o 0x801005) ++ leBytes 2 (s.o 0x801006) ++ [0, 0]

/-- The summary record. -/
def State.summaryBytes (s : State) : List Byte :=
  let st := s.obs.sticky.flatMap (fun r => logBytes r true)
  sealRecord (leBytes 4 0x53554D5A ++ leBytes 4 (s.flash.recnum + 1) ++ leBytes 8 s.now ++ s.classBytes ++ s.accountBytes ++
    s.d 0x800009 ++ leBytes 4 (s.o 0x80000D) ++ leBytes 4 (s.o 0x200006) ++ leBytes 4 (s.o 0xA01002) ++
    List.replicate 164 0 ++ st ++ List.replicate (512 - st.length) 0)

/-- The summary is written, and with it a repair state whose write has failed (R64); `bad` sectors fail their read-back
first and are retired. With none left it stays in the always-on island. -/
def State.writeSummary (s : State) (bad : Nat) : State :=
  let left := s.o 0x800204 - bad
  let lost := decide (left = 0) && !s.flash.island
  let s1 := s.setO 0x800204 left
  let s2 := if lost then s1.logEv 0x1F 0 0 {} else s1
  let f := s2.flash
  let s3 := { s2 with flash := { f with
    summary := s2.summaryBytes, recnum := (f.recnum + 1) % 2 ^ 32, sumAt := s.now, sumDue := false, unsaved := none, served := false
    island := f.island || lost, extra := Tbl.set none f.extra 0x200009 (some (s2.o 0x200009)) } }
  ((s3.setO 0x800202 s.now).incO 0x800203 1).settle

/-- SUMMARY_WRITE: an hour after the last write, or after a reset step of code 3 or higher or a repair, at most one per 10 s
(R569). -/
def execSummaryWrite (bad : Fin 65) (s : State) : Host.Outcome State Fault Refusal :=
  .next (
    let hour := decide (s.flash.sumAt + 3600000000000 ≤ s.now)
    let due := s.flash.sumDue && decide (s.flash.recnum = 0 ∨ s.flash.sumAt + 10000000000 ≤ s.now)
    if hour || due then s.writeSummary bad else s)

/-- What a record supplies at power-on. -/
def State.loadSummary (s : State) : State :=
  let r := s.flash.summary
  if r.length ≠ 1024 ∨ crc32c (r.take 1020) ≠ wordAt r 1020 then s
  else
    let cc := Tbl.setList 0 [] 0 ((List.range 64).map (fun (i : Nat) => wordAt r (16 + 4 * i)))
    let s1 := { s with obs := { s.obs with classCounts := cc } }
    let objs : List (Nat × Nat) := [(0x801001, natAt r 272 8), (0x801002, natAt r 280 8), (0x801003, wordAt r 288),
      (0x801004, natAt r 292 8), (0x801005, natAt r 300 8), (0x801006, natAt r 308 2), (0x80000D, wordAt r 332),
      (0x200006, wordAt r 336), (0xA01002, wordAt r 340)]
    let s2 := objs.foldl (fun t e => t.setO e.1 e.2) (s1.setD 0x800009 ((r.drop 312).take 20))
    s.flash.extra.foldl (fun t e => match e.2 with | some v => t.setO e.1 v | none => t) s2

/-! ### Firmware slots (R509, R521, R531 to R535) -/

/-- Word `w` of a firmware image's header. -/
def fwWord (img : List Byte) (w : Nat) : Nat := wordAt img (4 * w)
/-- VERSION of an image. -/
def fwVersion (img : List Byte) : Nat := nfld (fwWord img 1) 16 16
/-- SEQUENCE of an image. -/
def fwSeq (img : List Byte) : Nat := fwWord img 2
/-- Part `p` of an image: offset in the payload and length. -/
def fwPart (img : List Byte) (p : Nat) : Nat × Nat := (fwWord img (8 + 2 * p), fwWord img (9 + 2 * p))
/-- The bytes of part `p`. -/
def fwPartBytes (img : List Byte) (p : Nat) : List Byte := (img.drop (128 + (fwPart img p).1)).take (fwPart img p).2

/-- R532: the slot that holds these bytes is VALID. -/
def fwValid (img : List Byte) : Bool :=
  let len := fwWord img 3
  let parts := (List.range 5).map (fwPart img)
  decide (128 ≤ img.length) && fwWord img 0 == 0x46575A56 && crc32c (img.take 124) == fwWord img 31 &&
    nfld (fwWord img 1) 0 16 == 1 && nfld (fwWord img 7) 16 16 == 0 &&
    (List.range 13).all (fun i => fwWord img (18 + i) == 0) && fwSeq img != 0xFFFFFFFF &&
    decide (64 ≤ len) && decide (len ≤ 8388480) && len % 64 == 0 && decide (128 + len ≤ img.length) &&
    crc32c ((img.drop 128).take len) == fwWord img 4 &&
    parts.all (fun p => p.1 % 64 == 0 && p.2 != 0 && decide (p.1 + p.2 ≤ len)) && apart parts

/-- R535: the measurement of an image. -/
def fwMeasure (img : List Byte) : List Byte := sha256 (img.take 128 ++ (List.range 5).flatMap (fwPartBytes img))

/-- The bytes in slot `i`. -/
def State.fwImage (s : State) (i : Nat) : List Byte := Tbl.get [] s.fw.images i

/-- STATE, SEQUENCE and VERSION of a slot show what it holds (R509). -/
def State.showSlot (s : State) (i : Nat) : State :=
  let img := s.fwImage i
  let v := fwValid img
  ((s.setO (ok (0xA000 + i) 1) (if img.isEmpty then 0 else if v then 1 else 2)).setO (ok (0xA000 + i) 2)
    (if v then fwSeq img else 0xFFFFFFFF)).setO (ok (0xA000 + i) 3) (if v then fwVersion img else 0)

/-- The slot reads VALID. -/
def State.slotValid (s : State) (i : Nat) : Bool := s.o (ok (0xA000 + i) 1) == 1

/-- A slot is excluded at boot (R529). -/
def State.excluded (s : State) (i : Nat) : Bool :=
  s.o (ok (0xA000 + i) 2) == s.o 0xA01009 || s.o (ok (0xA000 + i) 2) == s.o 0xA0100A

/-- R533: the slot that boot chooses. -/
def State.chosenSlot (s : State) : Option Nat :=
  let l := [0, 1].filter s.slotValid
  let l1 := l.filter (fun i => !s.excluded i)
  match if l1.isEmpty then l else l1 with
  | [a, b] => if s.o (ok (0xA000 + a) 2) < s.o (ok (0xA000 + b) 2) then some b else some a
  | a :: _ => some a
  | [] => none

/-- The slot that is not the booted one. -/
def State.otherSlot (s : State) : Option Nat :=
  if s.o 0xA01001 = 0 then some 1 else if s.o 0xA01001 = 1 then some 0 else none

/-- A handoff is LOADING or CONFIRMING, or a package reset that ACTIVATE = 2 asked for has not ended. -/
def State.activating (s : State) : Bool :=
  s.o 0xA01008 == 1 || s.o 0xA01008 == 2 || s.reqs.any (fun r => r.code == 4 && r.cause == 9) ||
    s.steps.any (fun x => x.req.code == 4)

/-- R510, R529: a write of ACTIVATE = `v` would be accepted. -/
def State.mayActivate (s : State) (v : Nat) : Bool :=
  match s.otherSlot with
  | none => false
  | some i =>
    let seq := s.o (ok (0xA000 + i) 2)
    s.slotValid i && decide (s.o (ok (0xA000 + s.o 0xA01001) 2) < seq) && seq != s.o 0xA0100A && !s.activating &&
      (if v = 1 then s.o (ok (0xA000 + i) 3) != s.o 0xA01005 else s.o 0x400001 == 0)

/-- 0xA010:06 PENDING (R521). -/
def State.showPending (s : State) : State :=
  let v := (s.chosenSlot.map (fun i => s.o (ok (0xA000 + i) 3))).getD 0
  s.setO 0xA01006 (if s.chosenSlot.isNone then 0 else
    b01 (s.o 0xA01003 != v) + b01 (s.o 0xA01004 != v) * 2 + b01 (s.mayActivate 1) * 4)

/-! ### Fuses (R541, R542, R545) -/

/-- Bits of a number at 0 below 2^n. -/
def zeroBits (n v : Nat) : Nat := countBelow n (fun i => !nbit v i)

/-- Life-cycle row `i` for a state: the state word and its count (R541). -/
def lcRow (i st : Nat) : Nat :=
  let w := st + (255 - st) * 2 ^ 8 + i * 2 ^ 16 + 0xA5C * 2 ^ 20
  w + zeroBits 32 w * 2 ^ 32

/-- A row is valid. -/
def lcRowOk (i v : Nat) : Bool := v == lcRow i (nfld v 0 8)

/-- R542: the life-cycle state the fuses hold. -/
def Fuses.state (f : Fuses) : Nat :=
  match ((List.range 16).filter (fun i => lcRowOk i (Tbl.get 0 f.rows i))).getLast? with
  | some i => nfld (Tbl.get 0 f.rows i) 0 8
  | none => if f.testEntry then 1 else 0

/-- Rows with any bit blown. -/
def Fuses.used (f : Fuses) : Nat := countBelow 16 (fun i => Tbl.get 0 f.rows i != 0)

/-- Slot `j` of owner `w` is valid: the count agrees (R544). -/
def Fuses.keyOk (f : Fuses) (w j : Nat) : Bool :=
  match Tbl.get none f.keys (4 * w + j) with
  | some (k, n) => n == zeroBits 256 (leNat k)
  | none => false

/-- The highest valid key slot of an owner. -/
def Fuses.activeSlot (f : Fuses) (w : Nat) : Option Nat := ((List.range 4).filter (f.keyOk w)).getLast?

/-- The session key of an owner (R538). -/
def Fuses.key (f : Fuses) (w : Nat) : Option (List Byte) :=
  (f.activeSlot w).bind (fun j => (Tbl.get none f.keys (4 * w + j)).map (fun p => p.1))

/-- ROWS_USED and FROZEN, SLOTS_USED and ACTIVE_SLOT show the fuses. -/
def State.showFuses (s : State) : State :=
  let s1 := (s.setO 0xB00002 s.fuses.used).setO 0xB00004 (b01 (s.fuses.used == 16))
  (List.range 4).foldl (fun t w =>
    (t.setO (ok (0xB020 + w) 1) (countBelow 4 (fun j => (Tbl.get none s.fuses.keys (4 * w + j)).isSome))).setO
      (ok (0xB020 + w) 2) ((s.fuses.activeSlot w).getD 0xFF)) s1

/-! ### Boot (R534) -/

/-- The cores that run a start-up self-test: all but the retired ones. -/
def State.beginTests (s : State) : State :=
  let cores := (List.range 24).filter s.inService
  let s1 := cores.foldl (fun t c => t.setCore c { t.core c with selfTest := true }) s
  { s1 with power := { s1.power with stage := 2, testing := cores } }

/-- Steps 3 to 6: the life-cycle state is read, the per-boot key drawn, a slot chosen and its parts placed and measured; at
power-on the PMC part too. With no slot, or in BLANK or SCRAPPED, the device stays in MAINT. -/
def State.bootParts (s : State) (powerOn : Bool) : State :=
  let s1 := (s.setO 0xB00001 s.fuses.state).showFuses
  let lc := s.fuses.state
  let s2 := (({ s1 with bootKey := s1.free, free := s1.free + 1 }).showSlot 0).showSlot 1
  match if lc = 0 ∨ lc = 5 then none else s2.chosenSlot with
  | none => ({ s2 with boot := { s2.boot with maint := true } }).setO 0xA01001 0xFF
  | some i =>
    let img := s2.fwImage i
    let v := fwVersion img
    let s3 := ((((s2.setO 0xA01001 i).setO 0xA01003 v).setO 0xA01005 v).setD (ok (0xA000 + i) 4) (fwMeasure img)).setO
      0xA01009 0xFFFFFFFF
    let s4 := if s3.accounts then s3.incO 0xA01002 1 else s3
    let s5 := { s4 with boot := { s4.boot with maint := false }, fw := { s4.fw with banks := [] } }
    let s6 := if powerOn then
        { (s5.setO 0xA01004 v) with fw := { s5.fw with pmcSlot := i, pmcHash := sha256 (fwPartBytes img 1), pmcRom := false } }
      else s5
    s6.showPending

/-- Every code-object slot with an image in the pinned store, ascending. -/
def State.pinnedSlots (s : State) : List Nat :=
  ((List.range 32).map (fun i => i + 1)).filter (fun k => (Tbl.get none s.pins k).isSome)

/-! ### Package reset (R562) -/

/-- The code-object slots after a package reset: locked entries are closed; pinned images are to be reloaded, and a slot
with no flash copy is EMPTY (R355, R356, R416; log 35). -/
def State.resetSlots (s : State) : State :=
  let s1 := ((List.range 32).map (fun i => i + 1)).foldl (fun t k =>
    if (Tbl.get none t.pins k).isSome || t.o (slotObj k 3) == 0 then t
    else (t.dropImage k).rgnSettle.setO (slotObj k 3) (if t.o (slotObj k 3) = 5 then 5 else 0)) s
  let s2 := (List.range 64).foldl (fun t e =>
    if bit (t.rgn e 0) 31 && bit (t.rgn e 0) 30 then (t.rgnInstall e 0 0).setO (ok (0x6100 + e) 4) 0 else t) s1
  { s2 with reloads := s2.pinnedSlots, loading := [] }

/-- The contexts after a package reset: STOPPED, but real-time contexts that ran, which restart from their code objects. -/
def State.resetContexts (s : State) : State :=
  let back := (List.range 64).filter (fun n =>
    s.o (ctxObj n 2) == 0 && (s.ctxState n == 2 || s.ctxState n == 5) && !s.stoppingCtx.contains n)
  let s1 := (List.range 64).foldl (fun t n =>
    ((((t.setO (ctxObj n 0xB) (if back.contains n then 5 else 0)).setO (ctxObj n 0xD) 0).setO (ctxObj n 0x12) 0).setO
      (ctxObj n 0x13) 0)) s
  { s1 with maps := [], invocations := [], saved := [], stoppingCtx := []
            ctxTab := back.foldl (fun t n => Tbl.set 0 t n (s.tableWord n false)) [],
            power := { s1.power with restart := back, marked := [], waiting := [], cooled := [] } }

/-- What of the units a package reset leaves: cores, clusters and queues empty, repairs and columns as recorded and FILL_MODE 0
(R118), SCRUB.CFG at its reset value, owner maps and windows closed; a lost DRAM channel still has its rebuild to come
(R52), and row sparings that are due stay so (R61). Hub SRAM and DRAM keep their contents. -/
def State.resetUnits (s : State) : State :=
  let core (c : Nat) : Core :=
    { Core.reset with meCfg := put32 (s.core c).meCfg 16 1 0, outOfUse := (s.core c).outOfUse
                      testResult := (s.core c).testResult
                      framePeriod := if (s.coresOf 0).contains c then s.o 0x400002 else 0 }
  let ecc := s.ecc.filter (fun e => !(decide (0x80000000 ≤ e.1) && decide (e.1 < 0xA0000000)))
  let s1 := (List.range 24).foldl (fun t c => t.setCore c (core c)) s
  let s2 := (List.range 6).foldl (fun t k => t.setCluster k { t.cluster k with tiles := [], fenced := false, p2 := false }) s1
  let s3 := s2.dropBytes (fun a => decide (0x800000000 ≤ a) && decide (a < 0xA00000000))
  { s3 with hqs := [], forwards := [], credits := [], ecc := ecc, omap := [], wins := [], closingWins := [],
            reply := none, sources := [], writes := [], inWrites := [], inject := none, heldRx := none, heldTx := none,
            ceRows := s.dueRows, scrubLate := [], submissions := [], tokenizer := Tokenizer.reset,
            cameras := s3.cameras.foldl (fun t p => Tbl.set Camera.reset t p.1 { p.2 with cur := none, ready := [] }) []
            power := { s3.power with rebuilding := false, wakes := [] }, scrubCfg := 0x4064
            peers := s3.peers.map (fun p => (p.1, { p.2 with fenceSent := none })) }

/-- The window objects show closed windows. -/
def State.resetWindows (s : State) : State :=
  (List.range 64).foldl (fun t n => (t.setO (ok (0x6200 + n) 2) 0).setO (ok (0x6200 + n) 3) 0) s

/-- An unfinished handoff ends with cause 4 (R527, R528): the old banks run. -/
def State.endHandoff (s : State) : State :=
  if s.o 0xA01008 = 1 ∨ s.o 0xA01008 = 2 then
    let s1 := ((s.setO 0xA01008 0).setO 0xA0100B 4).setO 0xA01009 0xFFFFFFFF
    let s2 := { s1 with fw := { s1.fw with banks := [], startedAt := 0, armedAt := 0, handoff := [], confirmed := false, revert := 0 } }
    s2.showPending
  else s

/-- The counters after a package reset or power cycle (R621). -/
def Observe.countersReset (o : Observe) : Observe := { o with counts := [], ctrSel := [] }

/-- PACKAGE_RESET: of the package step whose fence is complete. -/
def State.packageReset (s : State) (x : ResetStep) : State :=
  let held := s.o 0x400001 == 1
  let trial := s.o 0xA01009
  let s1 := (((List.range 4).foldl (fun t m => t.endTransfers m 0x08 (fun _ => true)) s).resetUnits.resetWindows.resetContexts).resetSlots
  let s2 := (s1.clearLoopQueues.leaveRun 0).withLoop (fun l =>
    { l.kept with spansReset := held && (l.spansReset || s.loopRuns), resetSince := held, cause := x.req.cause
                  resumeFrom := if held then s.lastFrame else none })
  let s3 := ((s2.setO 0x1F1004 x.req.cause).incO 0x1F1005 1)
  let s4 := (List.range 9).foldl (fun t r => t.setO (ok (0x2010 + r) 6) 1) (s3.setOBit 0x801100 4 true)
  let s5 := (List.range 4).foldl (fun t p => (t.setO (partObj p 5) 0).setO (partObj p 3) (if t.o (partObj p 1) = 0 then 0 else 1)) s4
  let s6 := { s5 with
    steps := (s5.steps.filter (fun (y : ResetStep) => y.req.code == 4)).map (fun (y : ResetStep) => { y with done := true })
    obs := s5.obs.countersReset
    boot := { s5.boot with up := false, resetOpen := true, loopHeld := held } }
  let s7 := ((s6.selfRefreshAll 0xFF).endHandoff.setO 0xA01009 trial).bootParts false
  if s7.boot.maint then s7.settle else s7.beginTests.settle

/-- PACKAGE_RESET (R562). -/
def execPackageReset (s : State) : Host.Outcome State Fault Refusal :=
  .next (match s.readyStep 4 with
    | none => s
    | some x => s.packageReset x)

/-! ### Power cycles and power-up (R49, R483, R563, R606 to R611) -/

/-- A laser swap that was due is due again: the lane's spare is pre-warmed once the lane is lit (R61, R443). -/
def State.swapsDue (s : State) : State :=
  (List.range 12).foldl (fun t i =>
    if t.o (laneObj i 8) = 1 ∨ t.o (laneObj i 8) = 2 then
      (t.setO (laneObj i 8) 1).putLane i { t.lane i with dueAt := t.now + 1 }
    else t) s

/-- What a new power-on period starts from: flash, fuses and the repair state as flash holds it (R61, R64), kept objects at
their stored values, CORE.FRAME.PERIOD of partition 0 as FRAME_PERIOD_NS (R300), and every other object at its default. -/
def State.powerCycled (s : State) : State :=
  let img := s.flash.unsaved.getD s.repairImage
  let old := s.obj.filter (fun e => outlasts e.1 && !((List.range 8).any (fun c => e.1 == ok (0x6010 + c) 1) && e.2 == some 1))
  let obj := match s.flash.unsaved with
    | none => old
    | some x => x.objs.foldl (fun t e => Tbl.set none t e.1 e.2) (old.filter (fun e => !repairKey e.1))
  let pins := s.pinnedSlots
  let core (t : State) (c : Nat) : State := t.setCore c { Core.reset with meCfg := put32 (Tbl.get 0 img.cfg c) 16 1 0 }
  let shift := s.power.cycles.map (fun t => t - (s.now : Int))
  let s0 : State :=
    { State.reset with
      pending := s.pending, free := s.free, obj := obj, fw := { Firmware.reset with images := s.fw.images }
      fuses := s.fuses, pins := s.pins, reloads := pins
      flash := { s.flash with sumAt := 0, sumDue := false, cfg := img.cfg, clusters := img.clusters, channels := img.channels
                              rows := img.rows, repairs := img.repairs, unsaved := none }
      repairs := img.repairs, retiredRows := img.rows, ceRows := s.dueRows
      owned := (s.flash.kept.map (fun e => e.1)).filter (fun k => k % 256 == 1 && decide (0x300000 ≤ k ∧ k < 0x306000))
      chans := img.remaps.map (fun e => (e.1, { Channel.reset with remaps := e.2 }))
      power := { Power.reset with cycles := shift, cycleHeld := s.power.cycleHeld } }
  let s1 := (List.range 24).foldl core s0
  let s2 := s.flash.kept.foldl (fun t e => match e.2 with | some v => t.setO e.1 v | none => t) s1
  let s3 := s.flash.keptDom.foldl (fun t e => match e.2 with | some v => t.setD e.1 v | none => t) s2
  let s4 := pins.foldl (fun t k => (t.setO (slotObj k 8) 1).setD (slotObj k 6) (sha256 ((Tbl.get none s.pins k).getD []))) s3
  let s5 := (s4.coresOf 0).foldl (fun t c => t.setCore c { t.core c with framePeriod := t.period }) s4
  let s6 := (List.range 4).foldl (fun t p => t.setO (partObj p 3) (if t.o (partObj p 1) = 0 then 0 else 1)) s5
  s6.swapsDue.derivePages.setO 0x101806 (s6.o 0x700008)

/-- The account of an outage that spans a power cycle: 2.5 s of service and downtime (R49). -/
def State.chargeCycle (s : State) : State :=
  if s.accounts then
    ((((s.incO 0x801001 2500000000).incO 0x801002 2500000000).incO 0x801003 1).setO 0x801005 2500000000).setO 0x801006 8
  else s

/-- POWER_ON: the rails are applied, or have been removed and applied again; the charge of an outage that no summary has
recorded is made again (R49). Device time starts, the PMC serves the minimal
dictionary, and boot runs up to its wait for the setpoints (R534 steps 1 to 6). -/
def State.powerOn (s : State) : State :=
  let served := s.o 0x400001 == 1 || s.flash.served
  let s1 := s.powerCycled.loadSummary
  let s2 := if served then ({ s1 with flash := { s1.flash with served := true } }.setO 0xB00001 s1.fuses.state).chargeCycle else s1
  let s3 := s2.setO 0x1F1004 (if s2.flash.recnum = 0 then 0 else 8)
  let s4 := { s3 with power := { s3.power with stage := 1, setpointFrom := 0 } }
  (s4.bootParts true).settle

/-- POWER_ON. -/
def execPowerOn (s : State) : Host.Outcome State Fault Refusal := .next s.powerOn

/-- SETPOINT_REACHED: VCD0 and VCD1 measure `mv0` and `mv1`. Within 15 mV of both setpoints the self-tests begin; a RAIL event
is logged for each 10 ms that boot has waited (R607). -/
def execSetpointReached (mv0 mv1 : BitVec 16) (s : State) : Host.Outcome State Fault Refusal :=
  .next (
    let s1 := (s.setO 0x201001 mv0.toNat).setO 0x201101 mv1.toNat
    let near (a b : Nat) : Bool := decide (a ≤ b + 15) && decide (b ≤ a + 15)
    if s.power.stage ≠ 1 ∨ s.boot.maint = true ∨ s.power.hubHeld = true then s1
    else
      let waited := (s.now - s.power.setpointFrom) / 10000000
      let s2 := (List.range waited).foldl (fun t _ => t.logEv 0x20 9 0 {}) s1
      let s3 := { s2 with power := { s2.power with setpointFrom := s.power.setpointFrom + waited * 10000000 } }
      if near mv0.toNat (s.o 0x201002) && near mv1.toNat (s.o 0x201102) then s3.beginTests.settle else s3)

/-- VAON_LOW: during power-up the always-on reset is asserted again; power-up restarts with POWER_ON (R608). -/
def execVaonLow (s : State) : Host.Outcome State Fault Refusal :=
  .next (if s.boot.up || s.power.stage == 0 || s.boot.resetOpen then s else s.powerCycled.settle)

/-- RAIL_EXCURSION: rail `r` measures `mv`, outside its limits for 10 µs: OK and RAILS_OK clear together. VHUB or VFL
before the full dictionary is served holds the security core in reset (R505, R608). -/
def execRailExcursion (r : Fin 9) (mv : BitVec 16) (s : State) : Host.Outcome State Fault Refusal :=
  .next (
    let k := ok (0x2010 + r) 0
    if s.o (k + 3) ≤ mv.toNat ∧ mv.toNat ≤ s.o (k + 4) then s.setO (k + 1) mv.toNat
    else
      let s1 := ((((s.setO (k + 1) mv.toNat).incO (k + 5) 1).setO (k + 6) 0).setOBit 0x801100 4 false).logEv 0x20 9 r {}
      let hold := !s.boot.up && s.power.stage != 0 && !s.boot.resetOpen && (r.val == 2 || r.val == 8)
      let s2 := if hold then
          { s1 with power := { s1.power with hubHeld := true, stage := 1, testing := [] } }
        else s1
      s2.settle)

/-- HUB_RAIL_RETURN: the rail has been back for 1 ms; boot restarts at step 2 (R608). -/
def execHubRailReturn (s : State) : Host.Outcome State Fault Refusal :=
  .next (
    if !s.power.hubHeld then s
    else
      let s1 := { s with power := { s.power with hubHeld := false, stage := 1 } }
      (s1.bootParts true).settle)

/-! ### Watchdogs, lockstep and power-cycle requests (R516 to R518, R537, R563, R564) -/

/-- FENCE_REQUEST: the PMC serves the oldest request, unless it restarts. A step that calls for a power cycle is
POWER_CYCLE_REQUEST's. A reset that meets a handoff reverts or ends it (R527). -/
def State.serveRequest (s : State) : State :=
  match s.reqs with
  | [] => s
  | r :: _ =>
    let rt := (r.code == 1 && s.o (ctxObj r.target 2) == 0) || (r.code == 2 && (s.coresOf 0).contains (r.target / 8))
    let s1 := if r.code = 3 then s.endHandoff else if rt then s.meetHandoff else s
    s1.fenceRequest

/-- The step the oldest request will be performed at calls for a power cycle. -/
def State.cycleNext (s : State) : Bool := (s.reqs.head?.map (fun r => decide (5 ≤ (s.escalated r).1.code))).getD false

/-- POWER_CYCLE_REQUEST: the oldest request is performed as a power cycle: CYCLE_REQUEST is set and no further step starts
(R563). -/
def execPowerCycleRequest (s : State) : Host.Outcome State Fault Refusal :=
  .next (if s.cycleNext && !s.fw.pmcDown then s.fenceRequest else s)

/-- CYCLE_REQUEST_HOLDOFF_END: an hour after the first of three power cycles requested within an hour, a request kept back
is made (R564). -/
def execCycleRequestHoldoffEnd (s : State) : Host.Outcome State Fault Refusal :=
  .next (
    match s.power.cycles[2]? with
    | none => s
    | some t =>
      if (s.now : Int) < t + 3600000000000 ∨ s.power.cycleHeld = false then s else s.requestCycle 0x08)

/-- A package reset that a firmware core causes; a new image in CONFIRMING reverts instead (R526 cause 3). -/
def State.coreFails (s : State) (isNew : Bool) : State :=
  if isNew && s.o 0xA01008 == 2 then { s with fw := { s.fw with revert := 3 } } else s.raise ⟨4, 0, 0x07, none, true⟩

/-- The number of a firmware core in log entries: SC 0, PMC 1, SCH 2, CCCn 3 + n (log 36). -/
def fwUnit : Nat := 6

/-- SCH_WATCHDOG (R517), in P0 to P3 (R25). -/
def execSchWatchdog (s : State) : Host.Outcome State Fault Refusal :=
  .next (if s.boot.up && s.o 0x1F2002 != 4 then (s.logEv 0x14 fwUnit 2 {}).coreFails true else s)

/-- SC_WATCHDOG (R517), in P0 to P3 (R25). -/
def execScWatchdog (s : State) : Host.Outcome State Fault Refusal :=
  .next (if s.power.stage = 0 ∨ s.o 0x1F2002 = 4 then s else (s.logEv 0x14 fwUnit 0 {}).coreFails false)

/-- LOCKSTEP_MISMATCH: of the scheduler core's pair or the security core's (R516), in P0 to P3 (R25). -/
def execLockstepMismatch (sch : Bool) (s : State) : Host.Outcome State Fault Refusal :=
  .next (if s.power.stage = 0 ∨ s.o 0x1F2002 = 4 then s else (s.logEv 0x13 fwUnit (if sch then 2 else 0) {}).coreFails sch)

/-- CCC_WATCHDOG: of CCCk, which runs while its cluster is not in P2: a partition reset, or for a cluster in no partition a
restart of CCCk alone, after which the cluster is in P2; `bad`: the restarted CCC fails its self-check, and its cluster
is retired (R517). -/
def execCccWatchdog (k : Fin 6) (bad : Bool) (s : State) : Host.Outcome State Fault Refusal :=
  .next (
    if !s.boot.up || (s.cluster k).p2 || s.o 0x1F2002 != 0 then s
    else
      let s1 := s.logEv 0x14 fwUnit (3 + k) {}
      let s2 := match s.partOfCluster k with
        | some p =>
          if s.o 0xA01008 = 2 then { s1 with fw := { s1.fw with revert := 3 } } else s1.raise ⟨3, p, 0x04, none, true⟩
        | none => s1.setCluster k { s1.cluster k with fenced := true, p2 := true }
      ((if bad then s2.retireCluster k else s2).settle).recordRepair s)

/-- PMC_WATCHDOG: the PMC restarts from its ROM and flash image (R518). -/
def execPmcWatchdog (s : State) : Host.Outcome State Fault Refusal :=
  .next (if s.fw.pmcDown then s else { (s.logEv 0x14 fwUnit 1 {}) with fw := { s.fw with pmcDown := true } })

/-- The PMC is back: where the part that was loaded at power-on is no longer in its slot it runs from its ROM (R537); the
reset requests held meanwhile are served in arrival order (R518). -/
def State.pmcReturns (s : State) : State :=
  if !s.fw.pmcDown then s
  else
    let good := sha256 (fwPartBytes (s.fwImage s.fw.pmcSlot) 1) == s.fw.pmcHash
    let s1 := { s with fw := { s.fw with pmcDown := false, pmcRom := s.fw.pmcRom || !good } }
    let s2 := if good || s.fw.pmcRom then s1 else s1.logEv 0x1F fwUnit 1 {}
    s.reqs.foldl (fun t _ => t.serveRequest) s2

end Sys2Proof.Machine
end

