-- ==== Sys2Proof/Machine/Power.lean ====
section
/-! DEFINITION. Clocks, power states and temperature (R55, R503, R580 to R585, R594 to R599, R602 to R604), and the rows that a
transition can wait for: cheap points, self-tests and fences. -/

namespace Sys2Proof.Machine

/-! ### PLLs and clocks (R580 to R585) -/

/-- The compute die of a cluster. -/
def dieOf (k : Nat) : Nat := k / 3

/-- Bit `i` of PLL_LOCK; a cluster's clocks run from its PLL. -/
def State.setPll (s : State) (i : Nat) (b : Bool) : State :=
  let t := s.setOBit 0x202001 i b
  if i < 6 then t.setCluster i { t.cluster i with pllLocked := b } else t

/-- PLL `i` runs in the present power state: cluster PLLs in P0 and P1, fabric and DRAM PLLs up to P2, hub and optical
reference up to P3. -/
def State.pllUsed (s : State) (i : Nat) : Bool :=
  s.power.stage != 0 &&
    (if i < 6 then !s.stopped i else if i = 8 ∨ i = 10 then s.o 0x1F2002 != 4 else s.o 0x1F2002 == 0)

/-- PLL_LOCK: PLL `i` locks; with the optical reference, enabled lanes are lit (R582, R610). -/
def execPllLock (i : Fin 11) (s : State) : Host.Outcome State Fault Refusal :=
  .next (
    if s.oBit 0x202001 i || !s.pllUsed i then s
    else
      let t := s.setPll i true
      if i.val = 10 then ((List.range 12).foldl State.lightLane t).settle else t)

/-- What the PMC does on a loss of lock (R585). -/
def State.pllAction (s : State) (i : Nat) : State :=
  if i < 6 then
    match s.partOfCluster i with
    | some p => s.raise ⟨3, p, 0, none, true⟩
    | none => s
  else if i = 10 then
    ((List.range 12).foldl (fun t l => if t.laneState l = 4 then t.enterLane l 3 else t) s).settle
  else s.raise ⟨4, 0, 0x07, none, true⟩

/-- PLL_LOCK_LOSS of a locked PLL (R585). -/
def execPllLockLoss (i : Fin 11) (s : State) : Host.Outcome State Fault Refusal :=
  .next (
    if !s.oBit 0x202001 i then s
    else
      let t := ((s.setPll i false).incO 0x202002 1).logEv 0x22 (if i.val < 6 then 2 else 0) i {}
      t.pllAction i)

/-- OSC_FAULT: the 24 MHz oscillator leaves its accuracy, which is logged, or the sleep timer stops (R585). -/
def execOscFault (sleep : Bool) (s : State) : Host.Outcome State Fault Refusal :=
  .next (if sleep then s.setO 0x202004 0 else (s.setO 0x202003 0).logEv 0x22 0 0 {})

/-- The core has nothing in a queue and nothing executing. -/
def Core.idle (x : Core) : Bool := (List.range 5).all (fun e => (x.engine e).queue.isEmpty && (x.engine e).flights.isEmpty)

/-- CORE_CLOCK_GATE: the core has been idle for 16 cycles; not in partition 0 while LOOP_ENABLE is 1 (R583). -/
def execCoreClockGate (core : Fin 24) (s : State) : Host.Outcome State Fault Refusal :=
  .next (
    let x := s.core core
    if !x.idle || x.clockGated || ((s.coresOf 0).contains core.val && s.o 0x400001 == 1) then s
    else (s.setCore core { x with clockGated := true }).settle)

/-- CORE_CLOCK_RELEASE: by an append, a hub-side access, a window write or the scrubber (R583). -/
def execCoreClockRelease (core : Fin 24) (s : State) : Host.Outcome State Fault Refusal :=
  .next (
    let x := s.core core
    if x.clockGated then (s.setCore core { x with clockGated := false }).settle else s)

/-! ### Retention (R594, R596) -/

/-- What a core loses in retention: accumulators, statistics and predicate banks, and what its engines buffer. -/
def State.loseVolatile (s : State) (c : Nat) : State :=
  let t := s.loseHold c
  t.setCore c { t.core c with acc := [], stats := [], preds := [], biasBuf := [], aBuf := [], tableBuf := [], mePrev := none }

/-- The cores of a cluster go into retention, and the scrub period of its memories stands still. -/
def State.retainCluster (s : State) (k : Nat) : State :=
  let t := (List.range 4).foldl (fun u i => u.loseVolatile (4 * k + i)) s
  let u := t.setPll k false
  if Tbl.get 0 u.power.stopFrom k ≠ 0 then u
  else { u with power := { u.power with stopFrom := Tbl.set 0 u.power.stopFrom k (u.now + 1) } }

/-- The time in retention does not count towards the scrub period; the first idle gap is unbounded; the PLL runs. -/
def State.unretainCluster (s : State) (k : Nat) : State :=
  let since := Tbl.get 0 s.power.stopFrom k
  let held := if since = 0 then 0 else s.now + 1 - since
  let mems := (24 + k) :: (List.range 4).map (fun i => 4 * k + i)
  let s1 := { s with scrubStart := mems.foldl (fun t m => Tbl.set 0 t m (Tbl.get 0 t m + held)) s.scrubStart
                     power := { s.power with stopFrom := Tbl.set 0 s.power.stopFrom k 0 } }
  let s2 := (List.range 4).foldl (fun t i =>
    t.setCore (4 * k + i) { t.core (4 * k + i) with gapFrom := none, clockGated := false }) s1
  s2.setPll k true

/-- A handle or credit is on its way into a cluster. -/
def State.inFlightTo (s : State) (k : Nat) : Bool :=
  s.forwards.any (fun t => t.dev == s.devNum && t.unit == k) || s.credits.any (fun t => t.dev == s.devNum && t.unit == k)

/-- P2_ENTRY of a partition that has been idle for P2_IDLE_MS; partition 0 only while LOOP_ENABLE is 0 (R596). -/
def State.p2Entry (s : State) (p : Nat) : State :=
  let since := Tbl.get 0 s.power.idleFrom p
  let due := decide (since ≠ 0) && decide (since + s.o 0x1F2008 * 1000000 ≤ s.now + 1)
  let ks := (s.clustersOf p).filter (fun k => !(s.cluster k).p2)
  if !s.boot.up || s.o 0x1F2002 != 0 || s.power.entering != 0 || !due || !s.partIdle p ||
      (p == 0 && s.o 0x400001 == 1) || ks.any s.inFlightTo || !((s.coresOf p).all (fun c => (s.core c).idle)) ||
      decide (2 ≤ s.o (partObj p 3)) then s
  else (ks.foldl (fun t k =>
    let u := t.retainCluster k
    u.setCluster k { u.cluster k with p2 := true }) s).settle

/-- P2_ENTRY (R596). -/
def execP2Entry (p : Fin 4) (s : State) : Host.Outcome State Fault Refusal := .next (s.p2Entry p)

/-- The clusters whose exit a START or RESUME of a context waits for: those of its partition and of its cores. -/
def State.startClusters (s : State) (n : Nat) : List Nat :=
  (List.range 6).filter (fun k => (s.cluster k).p2 && (s.partOfCluster k).isSome &&
    ((s.clustersOf (s.o (ctxObj n 2))).contains k || (s.ctxCores n).any (fun c => c / 4 == k)))

/-- A resumption waits. -/
def State.holdResume (s : State) (n : Nat) : State :=
  { s with power := { s.power with waiting := s.power.waiting.filter (fun w => w.1 != n) ++ [(n, true)] } }

/-- Starts and resumptions go ahead in P0 once their clusters are out of P2, and resumptions once the predicate leases they
need are free (R332, R599). -/
def State.serveWaiting (s : State) : State :=
  let ready := if s.o 0x1F2002 ≠ 0 ∨ s.power.entering ≠ 0 then []
    else s.power.waiting.filter (fun w => (s.startClusters w.1).isEmpty &&
      !(s.ctxCores w.1).any (fun c => s.power.testing.contains c) && !(w.2 && s.leaseWaits w.1))
  let s1 := { s with power := { s.power with waiting := s.power.waiting.filter (fun w => !ready.contains w) } }
  ready.foldl (fun t w =>
    if w.2 then (if t.leaseWaits w.1 then t.holdResume w.1 else (t.ctxResume w.1).1)
    else if t.ctxState w.1 = 1 then t.ctxBegin w.1 else t) s1

/-- A wake request of a cluster stands: its merged flag is set, a start or resumption waits for it, or a handle or credit is
on its way to it (R590, R596). -/
def State.wakeDue (s : State) (k : Nat) : Bool :=
  s.power.wakes.contains k || s.power.waiting.any (fun w => (s.startClusters w.1).contains k) || s.inFlightTo k

/-- P2_EXIT: a start, an access, a handle or a partition change wakes a cluster of a partition, which acknowledges its merged
flag (R590); exits on one die are at least 10 µs apart (R596, R602). -/
def execP2Exit (k : Fin 6) (s : State) : Host.Outcome State Fault Refusal :=
  .next (
    let last := Tbl.get 0 s.power.p2Exit (dieOf k)
    if !(s.cluster k).p2 || !s.wakeDue k || s.o 0x1F2002 != 0 || (s.partOfCluster k).isNone ||
        (last != 0 && decide (s.now + 1 < last + 10000)) then s
    else
      let s1 := s.setCluster k { s.cluster k with p2 := false }
      let s2 := s1.unretainCluster k
      let s3 := { s2 with power := { s2.power with p2Exit := Tbl.set 0 s2.power.p2Exit (dieOf k) (s2.now + 1),
                                                         wakes := s2.power.wakes.filter (fun i => i != k.val) } }
      s3.serveWaiting.settle)

/-- CONTROL = START with the power states taken into account: it waits for P0 and for the exit of P2, and the context is
STARTING meanwhile (R322, R599). -/
def State.startRequest (s : State) (n : Nat) : State × Nat :=
  if s.ctxState n ≠ 0 ∧ s.ctxState n ≠ 6 then (s, 0x06)
  else if s.o 0x1F2002 = 0 ∧ s.power.entering = 0 ∧ (s.startClusters n).isEmpty = true then s.ctxStart n
  else
    ((({ s with power := { s.power with waiting := s.power.waiting ++ [(n, false)] } }).enterTable n false).setCtxState n 1, 0)

/-- CONTROL = RESUME likewise; it waits as well while another context holds the predicate lease it needs (R332). -/
def State.resumeRequest (s : State) (n : Nat) : State × Nat :=
  if s.ctxState n ≠ 4 then (s, 0x06)
  else if s.o 0x1F2002 = 0 ∧ s.power.entering = 0 ∧ (s.startClusters n).isEmpty = true ∧ s.leaseWaits n = false then
    s.ctxResume n
  else (s.holdResume n, 0)

/-! ### P3 and P4 (R597 to R599) -/

/-- Bytes of no stated layout, written as any write to a memory is: free values. -/
def State.pokeFree (s : State) (a n : Nat) : State :=
  { (s.sramWrite a ((List.range n).map (fun i => BitVec.ofNat 8 (Config.freeValue (s.free + i))))) with free := s.free + n }

/-- CURRENT changes. -/
def State.setCurrent (s : State) (v : Nat) : State :=
  if s.o 0x1F2002 = v then s else (s.setO 0x1F2002 v).incO 0x1F2003 1

/-- The compute dies enter retention and every DRAM channel self-refresh. The record of the queues stands in the top 4 KiB
of each cluster memory; its layout is not stated. -/
def State.enterP3 (s : State) : State :=
  let s1 := (List.range 6).foldl (fun t k => (t.retainCluster k).pokeFree (cmAddr k 0x3FF000) 0x1000) s
  let s2 := ((s1.setPll 6 false).setPll 7 false).setPll 9 false
  s2.selfRefreshAll 0xFF

/-- P3 is left: dies powered, PLLs locked, DRAM out of self-refresh. -/
def State.exitP3 (s : State) : State :=
  let s1 := s.setCurrent 0
  let s2 := (List.range 6).foldl (fun t k => if (t.cluster k).p2 then t else t.unretainCluster k) s1
  ((((s2.setPll 6 true).setPll 7 true).setPll 9 true).wakeDram).settle

/-- The DRAM segment of an address (R399). -/
def State.segmentOf (s : State) (a : Nat) : Nat := a / (max 1 s.channels.length * 2 ^ 27)

/-- The segments that DRAM entries with KEEP = 1 occupy (R415). -/
def State.keepMask (s : State) : Nat :=
  (List.range 64).foldl (fun m e =>
    let w := s.rgn e 0
    if bit w 31 && !bit w 24 && bit w 29 then
      (rgnGranules w).foldl (fun m g => nput m (s.segmentOf (g * 0x200000)) 1 1) m
    else m) 0

/-- DRAM on entry into P4: entries without KEEP close, and the segments that none keeps lose contents and holders (R420). -/
def State.dropSegments (s : State) : State :=
  let keep := s.keepMask
  let lost (a : Nat) : Bool := !nbit keep (s.segmentOf a)
  let s1 := ((List.range 32).map (fun i => i + 1)).foldl (fun t k =>
    let kept := match t.imageEntry k with | some e => bit (t.rgn e 0) 29 | none => false
    if kept || t.o (slotObj k 3) == 0 then t
    else (t.dropImage k).rgnSettle.setO (slotObj k 3) (if t.o (slotObj k 3) = 5 then 5 else 0)) s
  let s2 := (List.range 64).foldl (fun t e =>
    let w := t.rgn e 0
    if bit w 31 && !bit w 24 && !bit w 29 then (t.rgnInstall e 0 0).setO (ok (0x6100 + e) 4) 0 else t) s1
  let s3 := s2.dropBytes (fun a => decide (a < 0x200000000) && lost a)
  let s4 := { s3 with
    line := s2.line.filter (fun x => !lost (x.1 * 64))
    holders := s2.holders.filter (fun x => !(decide (x.1 < 4096) && lost (x.1 * 0x200000)))
    reloads := s2.pinnedSlots.filter (fun k => (s2.imageEntry k).isNone), loading := [] }
  s4.selfRefreshAll keep

/-- P4 is entered: the summary is written, DRAM entries closed, every lane dark, and what lies outside the always-on island
lost. A loop that a thermal trip stops is started again after the exit. -/
def State.enterP4 (s : State) : State :=
  let held := s.o 0x400001 == 1
  let resume := s.lastFrame
  let s0 := ((s.abortPublications (fun _ => true)).writeSummary 0).endHandoff
  let s1 := (List.range 4).foldl (fun t m => t.endTransfers m 0x08 (fun _ => true)) s0
  let s2 := (List.range 12).foldl (fun t i => if t.laneState i = 0 ∨ t.laneState i = 7 then t else t.laneOff i) s1
  let s3 := (s2.resetContexts.dropSegments.resetUnits.resetWindows.clearLoopQueues.leaveRun 0).withLoop (fun l =>
    { l.kept with resumeFrom := if held then resume else none })
  let s4 := (List.range 4).foldl (fun t p =>
    t.setO (partObj p 3) (if t.o (partObj p 1) = 0 then 0 else 1)) s3
  let s5 := (List.range 11).foldl (fun t i => t.setPll i false) s4
  let s6 := s5.dropBytes (fun a => decide (0xF00000000 ≤ a) && decide (a < 0xF00800000))
  { s6 with
    ecc := s5.ecc.filter (fun x => !(decide (0xF0000000 ≤ x.1) && decide (x.1 < 0xF0080000)))
    obs := { s5.obs.countersReset with ring := [], written := 0 }
    boot := { s5.boot with loopHeld := held, resetOpen := false }, steps := [], reqs := []
    power := { s5.power with entering := 0, marked := [], cooled := [], slow := [], waiting := [], stopFrom := []
                             stage := 1, testing := [] } }

/-- P4 is left: boot runs again from step 2, and lanes start from NO_LIGHT once the optical reference has locked (R598). -/
def State.exitP4 (s : State) : State :=
  let s1 := { (s.setCurrent 0) with boot := { s.boot with up := false }, power := { s.power with tripped := false } }
  let s2 := s1.bootParts false
  if s2.boot.maint then s2.settle else s2.beginTests.settle

/-- The best-effort contexts that run. -/
def State.runningBe (s : State) : List Nat :=
  (List.range 64).filter (fun n => s.ctxState n == 2 && s.o (ctxObj n 2) != 0)

/-- A transition towards P3 or P4 begins: running best-effort contexts are pre-empted, to be resumed (R597). -/
def State.beginEntry (s : State) (v : Nat) : State :=
  let l := s.runningBe
  let s1 := l.foldl (fun t n => (t.ctxPreempt n).1) s
  { s1 with power := { s1.power with entering := v, marked := s1.power.marked ++ l } }

/-- Contexts that an entry or a thermal reduction pre-empted resume once they are PREEMPTED. -/
def State.resumeMarked (s : State) : State :=
  let l := s.power.marked.filter (fun n => s.ctxState n == 4)
  let s1 := { s with power := { s.power with
    marked := s.power.marked.filter (fun n => s.ctxState n == 3) } }
  (l.foldl (fun t n => (t.resumeRequest n).1) s1).serveWaiting

/-- The contexts that are being pre-empted. -/
def State.preempting (s : State) : List Nat := (List.range 64).filter (fun n => s.ctxState n == 3)

/-- A context is being pre-empted. -/
def State.anyPreempting (s : State) : Bool := !s.preempting.isEmpty

/-- The entry in progress completes once no context is PREEMPTING. -/
def State.completeEntry (s : State) : State :=
  if s.power.entering = 0 ∨ s.anyPreempting = true then s
  else if s.power.entering = 3 then
    let t := s.enterP3.setCurrent 3
    ({ t with power := { t.power with entering := 0 } }).settle
  else
    let t := if s.o 0x1F2002 = 3 then s else s.enterP3
    (t.enterP4.setCurrent 4).settle

/-- The device follows TARGET while no transition is in progress. From P4 it reaches P3 by way of P0. -/
def State.followTarget (s : State) : State :=
  let v := s.o 0x1F2001
  let c := s.o 0x1F2002
  if s.power.entering ≠ 0 ∨ v = c then s
  else if c = 3 ∧ v = 0 then s.exitP3.resumeMarked
  else if c = 4 then s.exitP4
  else if !s.boot.up then s
  else ({ s with power := { s.power with entering := v } }.beginEntry v).completeEntry

/-- A partition that is to change between its own frequency and 500 MHz under a thermal reduction (R603). -/
def State.slowDue (s : State) (p : Nat) : Bool :=
  let hot := (s.clustersOf p).any (fun k => s.oBit 0x200008 (dieOf k))
  p != 0 && hot != s.power.slow.contains p

/-- The contexts that run or are being pre-empted on a partition. -/
def State.busyPart (s : State) (p : Nat) : Bool :=
  anyBelow 64 (fun n => s.o (ctxObj n 2) == p && (s.ctxState n == 2 || s.ctxState n == 3))

/-- Partitions that wait to change their frequency do so once none of their contexts runs, and the contexts resume. -/
def State.changeFreqs (s : State) : State :=
  (List.range 4).foldl (fun t p =>
    if !t.slowDue p || t.busyPart p then t
    else
      let slow := if t.power.slow.contains p then t.power.slow.filter (fun q => q != p) else t.power.slow ++ [p]
      let mine (n : Nat) : Bool := t.o (ctxObj n 2) == p
      let back := t.power.cooled.filter mine
      let t1 := { t with power := { t.power with slow := slow, cooled := t.power.cooled.filter (fun n => !mine n) } }
      back.foldl (fun u n => (u.resumeRequest n).1) t1) s

/-- What waits for pre-emptions goes on. -/
def State.afterPreempt (s : State) : State :=
  let t := s.changeFreqs.completeEntry
  if t.power.entering = 0 ∧ t.o 0x1F2002 = 0 then t.resumeMarked.followTarget else t.followTarget

/-- CONTROL = STOP (R321, R335); an entry that waited for the context goes on. -/
def State.stopRequest (s : State) (n : Nat) : State × Nat :=
  let r := s.ctxStop n
  let t := if s.preempting != r.1.preempting then r.1.afterPreempt else r.1
  (if t.power.waiting.isEmpty then t else t.serveWaiting, r.2)

/-- CHEAP_POINT_REACHED (R331); no save starts while a publication is IN_FRAME on the core (R368). -/
def execCheapPointReached (n : Fin 64) (core : Fin 24) (s : State) : Host.Outcome State Fault Refusal :=
  .next (if s.publishing && s.publishedCore core 64 then s else (s.cheapPoint n core).afterPreempt)

/-- A write of TARGET (R503, R604): 3 and 4 wait for the loop, resets and activations; a trip is left by WAKE or the wake
timer alone. A write that meets a transition takes effect after it (R599). -/
def State.targetWrite (s : State) (v : Nat) : State × Nat :=
  if v ≠ 0 ∧ v ≠ 3 ∧ v ≠ 4 then (s, 0x05)
  else if s.power.tripped ∧ s.o 0x1F2002 = 4 then (s, 0x06)
  else if v ≠ 0 ∧ (s.o 0x400001 = 1 ∨ s.activating = true) then (s, 0x06)
  else
    let s1 := s.setO 0x1F2001 v
    let s2 := if v = 0 ∧ (s.o 0x1F2002 ≠ 0 ∨ s.power.entering ≠ 0) then s1.setO 0x1F2004 1 else s1
    (s2.followTarget, 0)

/-- Every die reads below 95 °C. -/
def State.cool (s : State) : Bool := [1, 2, 3].all (fun b => decide (s.temp b < 95))

/-- TARGET becomes 0 by WAKE (2) or the wake timer (3). During an entry into P4 the exit follows it (R599). -/
def State.wake (s : State) (how : Nat) : State := ((s.setO 0x1F2001 0).setO 0x1F2004 how).followTarget

/-- The device is in P4 or enters it. -/
def State.inP4 (s : State) : Bool := s.o 0x1F2002 == 4 || s.power.entering == 4

/-- A write of WAKE (R503, R604): accepted in P4 and during entry to it, and, where the wake timer has just expired in the
same PMC cycle, as the cause recorded. -/
def State.wakeWrite (s : State) (v : Nat) : State × Nat :=
  if s.inP4 then
    if s.power.tripped && !s.cool then (s, 0x06) else if v = 0 then (s, 0) else (s.wake 2, 0)
  else if s.power.timerAt = s.clk.acc + 1 ∧ v = 1 then (s.setO 0x1F2004 2, 0)
  else (s, 0x06)

/-- WAKE_TIMER: WAKE_TIMER_S seconds of the sleep clock have passed since P4 was entered (R503, R604). -/
def execWakeTimer (s : State) : Host.Outcome State Fault Refusal :=
  .next (
    if !s.inP4 || s.o 0x1F2006 == 0 || (s.power.tripped && !s.cool) then s
    else
      let t := { s with power := { s.power with timerAt := s.clk.acc + 1 } }
      if s.o 0x1F2001 = 0 then t else t.wake 3)

/-! ### Temperature (R55, R506, R603, R604) -/

/-- The dies whose temperature 0x2000 shows, by sub-index. -/
def State.anyWarm (s : State) : Bool := [1, 2, 3].any (fun b => decide (s.temp 5 < s.temp b))

/-- OVER_WARN_S counts the whole seconds passed with a die above TJ_WARN since the device entered FIELD. -/
def State.countWarm (s : State) : State :=
  if s.power.warnFrom = 0 then s
  else
    let secs := (s.now + 1 - s.power.warnFrom) / 1000000000
    let t := if s.accounts then s.incO 0x200006 secs else s
    { t with power := { t.power with warnFrom := s.power.warnFrom + secs * 1000000000 } }

/-- Some die has been above 95 °C for more than 10 s. -/
def State.hotTen (s : State) : Bool :=
  anyBelow 3 (fun d => Tbl.get 0 s.power.hotFrom d != 0 && decide (Tbl.get 0 s.power.hotFrom d + 10000000000 < s.now + 1))

/-- TJ_OK clears at an excess, and is set after a full hour without one (R55). -/
def State.judgeHour (s : State) : State :=
  if s.hotTen then
    ({ s with power := { s.power with excessAt := s.now + 1 } }).setOBit 0x801100 0 false
  else if s.power.excessAt ≠ 0 ∧ s.power.excessAt + 3600000000000 ≤ s.now + 1 then
    ({ s with power := { s.power with excessAt := 0 } }).setOBit 0x801100 0 true
  else s

/-- Die `d` (CD0, CD1, HUB) reads `t` °C. -/
def State.readTemp (s : State) (d : Nat) (t : Int) : State :=
  let s1 := s.countWarm.judgeHour
  let above := decide (s1.temp 5 < t)
  let s2 := if above && decide (s1.temp (d + 1) ≤ s1.temp 5) then s1.logEv 0x21 0 0 {} else s1
  let s3 := s2.setO (ok 0x2000 (d + 1)) (trunc 8 t)
  let s4 := if s3.temp 4 < t then s3.setO 0x200004 (trunc 8 t) else s3
  let hot := Tbl.get 0 s4.power.hotFrom d
  let hot' := if 95 < t then (if hot = 0 then s4.now + 1 else hot) else 0
  let warn := if s4.anyWarm then (if s4.power.warnFrom = 0 then s4.now + 1 else s4.power.warnFrom) else 0
  ({ s4 with power := { s4.power with hotFrom := Tbl.set 0 s4.power.hotFrom d hot', warnFrom := warn } }).settle

/-- JUNCTION_TEMPERATURE_EXCESS: die `d` reads `t` °C. -/
def execJunctionTemperatureExcess (d : Fin 3) (t : BitVec 8) (s : State) : Host.Outcome State Fault Refusal :=
  .next (s.readTemp d t.toInt)

/-- The partitions whose frequency is due to change have their contexts pre-empted. -/
def State.cool500 (s : State) : State :=
  let l := s.runningBe.filter (fun n => s.slowDue (s.o (ctxObj n 2)))
  let s1 := l.foldl (fun t n => (t.ctxPreempt n).1) s
  ({ s1 with power := { s1.power with cooled := s1.power.cooled ++ l } }).afterPreempt

/-- THERMAL_REDUCTION: compute die `d` reads 105 °C or more; its best-effort partitions run at 500 MHz (R603). -/
def execThermalReduction (d : Fin 2) (t : BitVec 8) (s : State) : Host.Outcome State Fault Refusal :=
  .next (
    let s1 := s.readTemp d t.toInt
    if t.toInt < 105 ∨ s1.oBit 0x200008 d = true then s1
    else ((s1.setOBit 0x200008 d true).logEv 0x21 0 0 {}).cool500)

/-- THERMAL_REDUCTION_END: die `d`, which reads `t`, has stayed below 100 °C for 10 s (R603). -/
def execThermalReductionEnd (d : Fin 2) (t : BitVec 8) (s : State) : Host.Outcome State Fault Refusal :=
  .next (
    let s1 := s.readTemp d t.toInt
    if 100 ≤ t.toInt ∨ s1.oBit 0x200008 d = false then s1 else (s1.setOBit 0x200008 d false).cool500)

/-- A thermal trip: P4 at once, whatever else goes on (R599, R604). -/
def State.trip (s : State) : State :=
  let s2 := ((s.setO 0x1F2001 4).incO 0x200009 1).logEv 0x21 0 0 {}
  let s3 : State := { s2 with flash := { s2.flash with extra := Tbl.set none s2.flash.extra 0x200009 (some (s2.o 0x200009)) } }
  let s4 := if s3.o 0x1F2002 = 4 then s3 else s3.enterP4.setCurrent 4
  ({ s4 with power := { s4.power with tripped := true } }).settle

/-- THERMAL_TRIP: die `d` has read T_TRIP = 115 °C or more for 1 ms: P4 at once (R604). -/
def execThermalTrip (d : Fin 3) (t : BitVec 8) (s : State) : Host.Outcome State Fault Refusal :=
  .next (
    let s1 := s.readTemp d t.toInt
    if t.toInt < 115 || s1.power.stage == 0 then s1 else s1.trip)

/-! ### Resets that meet a power state (R518, R527, R599) -/

/-- FENCE_REQUEST: the PMC serves the oldest request, unless it restarts or the request is POWER_CYCLE_REQUEST's. A step
ends an entry into P3 or P4, and P3 is left before it. -/
def execFenceRequest (s : State) : Host.Outcome State Fault Refusal :=
  .next (
    if s.fw.pmcDown || s.cycleNext || s.reqs.isEmpty then s
    else
      let s1 := if s.power.entering = 0 then s
        else ({ s with power := { s.power with entering := 0 } }.setO 0x1F2001 (if s.o 0x1F2002 = 3 then 3 else 0))
      let s2 := if s1.o 0x1F2002 = 3 then (s1.setO 0x1F2001 0).exitP3 else s1
      (s2.serveRequest).resumeMarked)

/-! ### Self-test runs (R119, R155, R534) -/

/-- A self-test run of a core: after a reset, on the Sage health manager's request while the core is fenced, or at the tester's
request in the TEST life-cycle state (R155). -/
def State.runMay (s : State) (c : Nat) : Bool :=
  s.power.testing.contains c || (s.boot.up && ((s.core c).fenced || s.o 0xB00001 == 1))

/-- SELFTEST_RUN: core `core` ends its run with the failing columns `cols`; `failed` says that the scratchpad's march test or
step 2 of R156 failed. The result word is kept (R156), repairs are recorded (R64), and with the last run boot goes on (R534
step 8). -/
def execSelftestRun (core : Fin 24) (cols : BitVec 32) (failed : Bool) (s : State) : Host.Outcome State Fault Refusal :=
  .next (
    let c := core.val
    if !s.runMay c then s
    else
      let s1 := s.testFindings c ((List.range 32).filter (bit cols)) failed
      let s2 := (s1.setCore c { (s1.core c).tested with testResult := some (cols, failed) }).sramClear (spadAddr c 0) (memSize c)
      let s3 := { s2 with power := { s2.power with testing := s2.power.testing.filter (fun i => i != c) } }
      let s4 := (List.range 4).foldl (fun t p =>
        if (t.coresOf p).contains c && (t.power.stage == 2 || (t.coresOf p).all (fun i => (t.core i).fenced)) then t.setFill p
        else t) s3
      ((((s4.testsDone.restartReady).endPartitions.packageDone).followTarget).serveWaiting).recordRepair s)

end Sys2Proof.Machine
end

