-- ==== Sys2Proof/Machine/Clock.lean ====
section
/-! DEFINITION. The tick of 1 ns: it moves the clocks, and at the end of a cluster cycle it serves the bank requests of that
cycle; it does nothing else (log 3). -/

namespace Sys2Proof.Machine

/-- 1 ns of a cluster clock, which runs while its PLL is locked and the cluster is not stopped (R580, R582). Where a cycle
ends, its bank requests are served (R146) and its dummy fill counts (R122); where one begins, slot starts are found (R142). -/
def State.tickCluster (s : State) (k : Nat) : State :=
  let x := s.cluster k
  if !x.pllLocked || s.stopped k then s
  else
    let f := x.frac + s.clusterMhz k
    let s1 := if 1000 ≤ f then (List.range 4).foldl (fun t i => t.countFill (4 * k + i) x.cyc) (s.serveBanks k) else s
    let s2 := s1.setCluster k { s1.cluster k with cyc := x.cyc + f / 1000, frac := f % 1000 }
    if 1000 ≤ f then (List.range 4).foldl (fun t i => t.beginCycle (4 * k + i)) s2 else s2

/-- 1 ns passes: the hub clock of 1 GHz, the always-on clock of 24 MHz with the accumulator of device time, and the cluster
clocks (R297, R370, R371, R580). -/
def State.tick (s : State) : State :=
  let p := s.clk.phase + 3
  let c : Clocks := { s.clk with hub := s.clk.hub + 1, phase := p % 125
                                 acc := if 125 ≤ p then s.clk.acc + s.clk.inc else s.clk.acc
                                 slope := if 125 ≤ p then s.clk.inc else s.clk.slope }
  (List.range 6).foldl State.tickCluster { s with clk := c }

end Sys2Proof.Machine
end

