-- ==== Sys2Proof/Machine/Handoff.lean ====
section
/-! DEFINITION. Firmware slots, the Lovage handoff, key derivation, the life-cycle and owner keys (R509 to R512, R520 to R530,
R538 to R546). -/

namespace Sys2Proof.Machine

/-! ### Firmware slots (R509) -/

/-- Another image in a slot, or none. -/
def State.putImage (s : State) (i : Nat) (img : List Byte) : State :=
  ({ s with fw := { s.fw with images := Tbl.set [] s.fw.images i img } }.showSlot i).showPending

/-- A segment of IMAGE has been received: the first erases the slot and enters WRITING; the last checks it, and the slot
enters VALID or INVALID. What is written in part is not a valid image. `img` is the whole image once it is there. -/
def State.fwSegment (s : State) (i : Nat) (first : Bool) (img : Option (List Byte)) : State :=
  let s1 := if first then ((s.putImage i [0xFF#8]).setO (ok (0xA000 + i) 1) 3).showPending else s
  match img with
  | some l => s1.putImage i l
  | none => s1

/-- A write of ERASE: the booted slot answers STATE. -/
def State.fwErase (s : State) (i v : Nat) : State × Nat :=
  if s.o 0xA01001 = i then (s, 0x06)
  else if v = 0 then (s, 0)
  else
    let s1 := { s with transfers := s.transfers.filter (fun e => !(e.2.any (fun (x : Transfer) => x.key == ok (0xA000 + i) 5))) }
    (s1.putImage i [], 0)

/-! ### The Lovage handoff (R510, R522 to R528) -/

/-- A write of ACTIVATE (R510, R528, R529). -/
def State.activate (s : State) (v : Nat) : State × Nat :=
  if v ≠ 1 ∧ v ≠ 2 then (s, 0x05)
  else if !s.mayActivate v then (s, 0x06)
  else if v = 2 then (s.raise ⟨4, 0, 0x09, none, false⟩, 0)
  else
    let seq := s.o (ok (0xA000 + s.otherSlot.getD 0) 2)
    (((s.setO 0xA01008 1).setO 0xA01009 seq).showPending, 0)

/-- Every FW.BANKc is changed. -/
def State.mapBanks (s : State) (f : W32 → W32) : State :=
  { s with fw := { s.fw with banks := (List.range 7).foldl (fun t c => Tbl.set 0 t c (f (Tbl.get 0 t c))) s.fw.banks } }

/-- The handoff ends before the switch with a cause (R522, R528). -/
def State.handoffFails (s : State) (cause : Nat) : State :=
  (((s.setO 0xA01008 0).setO 0xA0100B cause).setO 0xA01009 0xFFFFFFFF).showPending

/-- The handoff record: its header, the CRC over it with that word 0, and the sections as the old image writes them (R522). -/
def State.handoffRecord (s : State) (f1 major minor : Nat) (body : List Byte) : List Byte :=
  let img := s.fwImage (s.otherSlot.getD 0)
  let head := leBytes 4 0x4C564748 ++ leBytes 4 (major + minor * 2 ^ 16) ++
    leBytes 4 (s.o 0xA01005 + fwVersion img * 2 ^ 16) ++ leBytes 4 f1 ++ leBytes 4 (64 + body.length) ++ leBytes 4 6 ++
    List.replicate 32 0 ++ leBytes 4 64
  head ++ leBytes 4 (crc32c (head ++ List.replicate 4 0 ++ body)) ++ body

/-- HANDOFF_LOAD_DONE: the parts of the other slot have been copied, and `bad` says that their CRC fails. On success the
standby banks hold a measured image, the old image writes its record in the format `major`, `minor` with the sections
`body`, and every bank is armed for frame `f1` (R521, R522). -/
def execHandoffLoadDone (bad : Bool) (f1 : BitVec 32) (major minor : BitVec 16) (body : List Byte) (s : State) :
    Host.Outcome State Fault Refusal :=
  if 262080 < body.length then .fault .illFormed
  else .next (
    let i := s.otherSlot.getD 0
    let img := s.fwImage i
    if s.o 0xA01008 ≠ 1 ∨ s.fw.startedAt ≠ 0 then s
    else if bad then s.handoffFails 5
    else if s.o 0xA01003 < nfld (fwWord img 5) 0 16 ∨ s.o 0xA01004 < nfld (fwWord img 5) 16 16 then s.handoffFails 6
    else
      let s1 := s.setD (ok (0xA000 + i) 4) (fwMeasure img)
      let s2 := s1.mapBanks (fun w => put32 (put32 (put32 w 1 1 1) 2 1 1) 16 16 (f1.toNat % 2 ^ 16))
      { s2 with fw := { s2.fw with startedAt := s.now + 1, armedAt := s.now, f1 := f1.toNat, confirmed := false, revert := 0
                                   handoff := s.handoffRecord f1.toNat major.toNat minor.toNat body } })

/-- The new image accepts the record (R524). -/
def State.recordOk (s : State) : Bool :=
  let r := s.fw.handoff
  let img := s.fwImage (s.otherSlot.getD 0)
  let major := nfld (wordAt r 4) 0 16
  wordAt r 0 == 0x4C564748 && wordAt r 60 == crc32c (r.take 60 ++ List.replicate 4 0 ++ r.drop 64) &&
    wordAt r 12 == s.fw.f1 && nfld (wordAt r 8) 16 16 == fwVersion img &&
    decide (nfld (fwWord img 6) 0 16 ≤ major) && decide (major ≤ nfld (fwWord img 6) 16 16)

/-- BANK_SWITCH: at the start of frame F1, or 1 ms after arming while the loop does not run, all seven cores switch banks and
the new image validates the record. -/
def execBankSwitch (s : State) : Host.Outcome State Fault Refusal :=
  .next (
    let due := if s.loopRuns then s.frame == s.fw.f1 else decide (s.fw.armedAt + 1000000 ≤ s.now)
    if s.o 0xA01008 ≠ 1 ∨ s.fw.startedAt = 0 ∨ due = false then s
    else
      let s1 := s.mapBanks (fun w => put32 (put32 (put32 w 0 1 (1 - fld w 0 1)) 2 1 0) 3 1 1)
      let s2 := ((s1.setO 0xA01008 2).setO 0xA0100C s.fw.f1).showPending
      { s2 with fw := { s2.fw with armedAt := s.now, revert := if s.recordOk then 0 else 1 } })

/-- Frames since F1; counts of 1 ms while the loop does not run. -/
def State.handoffFrames (s : State) : Nat :=
  if s.loopRuns then (s.frame + 2 ^ 32 - s.fw.f1) % 2 ^ 32 else (s.now - s.fw.armedAt) / 1000000

/-- HANDOFF_CONFIRM: the confirmation takes effect at a frame start, after four frames and before F1 + 16 has passed
(R525). -/
def execHandoffConfirm (s : State) : Host.Outcome State Fault Refusal :=
  .next (
    let n := s.handoffFrames
    if s.o 0xA01008 ≠ 2 ∨ s.fw.revert ≠ 0 ∨ n < 4 ∨ 16 < n then s
    else
      let i := s.otherSlot.getD 0
      let s1 := s.mapBanks (fun w => put32 (put32 w 1 1 0) 3 1 0)
      let s2 := { s1 with fw := { s1.fw with startedAt := 0, handoff := [], confirmed := true } }
      (((s2.setO 0xA01008 3).setO 0xA01005 (fwVersion (s.fwImage i))).setO 0xA01009 0xFFFFFFFF).showPending)

/-- A queue of partition 0 holds fewer commands than one frame of the plan. -/
def State.queueShort (s : State) : Bool :=
  s.loopRuns && s.maps.any (fun p =>
    match p.2 with
    | some m => m.rt && m.progs.any (fun q => (List.range 5).any (fun e =>
        decide ((((s.engine q.core e).queue.filter (fun x => x.cmd.ctx == p.1)).length) < (q.frameCmds e).length)))
    | none => false)

/-- The cause of a revert that is due at this frame start (R526); 0: none. -/
def State.revertCause (s : State) : Nat :=
  if s.o 0xA01008 ≠ 2 then 0
  else if s.fw.revert ≠ 0 then s.fw.revert
  else if 16 ≤ s.handoffFrames ∨ s.queueShort = true then 2 else 0

/-- HANDOFF_REVERT: at a frame start the banks switch back and the old image resumes (R526, R528). -/
def execHandoffRevert (s : State) : Host.Outcome State Fault Refusal :=
  .next (
    let c := s.revertCause
    if c = 0 then s
    else
      let s1 := s.mapBanks (fun w => put32 (put32 (put32 w 0 1 (1 - fld w 0 1)) 1 1 0) 3 1 0)
      let s2 := { s1 with fw := { s1.fw with startedAt := 0, handoff := [], revert := 0 } }
      let s3 := if c ≤ 3 then s2.setO 0xA0100A (s2.o 0xA01009) else s2
      (((s3.setO 0xA01008 4).setO 0xA0100B c).setO 0xA01009 0xFFFFFFFF).showPending)

/-- From the first write of the record to DONE or REVERTED, writes of classes SYS, OWB and SVC wait (R523). -/
def State.frozen (s : State) : Bool := decide (s.fw.startedAt ≠ 0) && (s.o 0xA01008 == 1 || s.o 0xA01008 == 2)

/-! ### Keys (R538, R539) -/

/-- The bytes of an ASCII label. -/
def ascii (t : String) : List Byte := t.toList.map (fun c => BitVec.ofNat 8 c.toNat)

/-- Key derivation in counter mode, one iteration (R538). -/
def deriveKey (key : List Byte) (label : String) (ctx : List Byte) : List Byte :=
  hmac key (beBytes 4 1 ++ ascii label ++ [0] ++ ctx ++ beBytes 4 256)

/-- The sealing key of a part of an image. -/
def State.sealKey (s : State) (img : List Byte) (part : Nat) : List Byte :=
  deriveKey Config.rootKey "ZV SEAL" (leBytes 1 (s.o 0xB00001) ++ leBytes 2 (fwVersion img) ++ fwMeasure img ++ leBytes 1 part)

/-- The transport key K_T. -/
def transportKey : List Byte := deriveKey Config.rootKey "ZV TRANSPORT" (leBytes 8 Config.serialNumber)

/-- WRAP_FOR_SUCCESSOR: the running image asks for a secret of part `part` to be wrapped for the image in the other slot; a
refused request is logged (R539). -/
def execWrapForSuccessor (part : Fin 3) (secret : List Byte) (s : State) : Host.Outcome State Fault Refusal :=
  .next (
    let ok_ := match s.otherSlot with
      | some i => !s.boot.maint && s.slotValid i && !s.excluded i && decide (s.o 0xA01003 ≤ s.o (ok (0xA000 + i) 3))
      | none => false
    if !ok_ then s.logEv 0x23 fwUnit 0 {}
    else
      let key := s.sealKey (s.fwImage (s.otherSlot.getD 0)) part
      { s with flash := { s.flash with wrapped := s.flash.wrapped ++ [(part.val, key, secret)] } })

/-! ### Life-cycle (R511, R540 to R543) -/

/-- The transitions that write a row. -/
def lcAllowed (a b : Nat) : Bool :=
  [(1, 2), (2, 3), (4, 3), (3, 4), (1, 5), (2, 5), (3, 5), (4, 5)].contains (a, b)

/-- The lowest row above the highest one with a bit blown. -/
def Fuses.nextRow (f : Fuses) : Nat :=
  match ((List.range 16).filter (fun i => Tbl.get 0 f.rows i != 0)).getLast? with
  | some i => i + 1
  | none => 0

/-- A row is written; a failing write leaves its count 0, so that the row is not valid. -/
def State.blowRow (s : State) (i st : Nat) (fails : Bool) : State :=
  let v := if fails then lcRow i st % 2 ^ 32 else lcRow i st
  ({ s with fuses := { s.fuses with rows := Tbl.set 0 s.fuses.rows i v } }).showFuses

/-- A write of REQUEST: an accepted transition is written and starts a package reset; the first `bad` rows fail their
read-back (R511, R543). -/
def State.lifeRequest (s : State) (v bad : Nat) : State × Nat :=
  if !lcAllowed s.fuses.state v || s.o 0xB00004 == 1 || s.o 0x400001 == 1 || s.o 0xA01008 == 1 || s.o 0xA01008 == 2 then
    (s, 0x06)
  else
    let i := s.fuses.nextRow
    let s1 := s.blowRow i v (decide (0 < bad))
    if bad = 0 then (s1.raise ⟨4, 0, 0x07, none, false⟩, 0)
    else if 15 ≤ i then (s1.logEv 0x24 0 0 {}, 0x06)
    else
      let s2 := s1.blowRow (i + 1) v (decide (1 < bad))
      if bad = 1 then (s2.raise ⟨4, 0, 0x07, none, false⟩, 0) else (s2.logEv 0x24 0 0 {}, 0x06)

/-! ### Owner keys (R512, R544 to R546) -/

/-- The fields of a PROVISION record that carry no key check. -/
def provisionFields (r : List Byte) (w used : Nat) : Bool :=
  r.length == 64 && natAt r 0 1 == w && natAt r 1 1 == used && natAt r 2 2 == 0 && natAt r 52 12 == 0

/-- The new key of a record under its wrapping key. -/
def provisionKey (r kw : List Byte) (w slot : Nat) : List Byte :=
  let pad := hmac kw (ascii "ZV WRAP" ++ leBytes 8 Config.serialNumber ++ leBytes 1 w ++ leBytes 1 slot)
  List.zipWith (fun a b => a ^^^ b) ((r.drop 4).take 32) pad

/-- The MAC of a record checks. -/
def provisionMac (r kw : List Byte) : Bool := (r.drop 36).take 16 == (hmac kw (ascii "ZV WMAC" ++ r.take 36)).take 16

/-- The life-cycle states in which a slot may be written (R545). -/
def provisionState (lc w used : Nat) : Bool :=
  if used = 0 then (if w = 3 then lc == 1 else lc == 2) else lc == 2 || lc == 3

/-- A write of PROVISION of owner `w`; `bad`: the slot does not read back as valid (R512, R544 to R546). -/
def State.provision (s : State) (w : Nat) (r : List Byte) (bad : Bool) : State × Nat :=
  let used := s.o (ok (0xB020 + w) 1)
  if 4 ≤ used then (s, 0x05)
  else
    let kw := if used = 0 then some transportKey else s.fuses.key w
    match kw with
    | none => (s, 0x05)
    | some k =>
      if !provisionFields r w used || !provisionMac r k then (s, 0x05)
      else if s.o 0xA01008 = 1 ∨ s.o 0xA01008 = 2 ∨ provisionState (s.o 0xB00001) w used = false then (s, 0x06)
      else
        let key := provisionKey r k w used
        let n := zeroBits 256 (leNat key)
        let e := (key, if bad then 0 else n)
        let s1 := ({ s with fuses := { s.fuses with keys := Tbl.set none s.fuses.keys (4 * w + used) (some e) } }).showFuses
        if bad && n != 0 then (s1.logEv 0x24 0 0 {}, 0x06) else (s1, 0)

end Sys2Proof.Machine
end

