-- ==== Sys2Proof/Machine/Publish.lean ====
section
/-! DEFINITION. The end of an invocation, the closing of a batch, and publications into a running real-time context (R352,
R362 to R369). -/

namespace Sys2Proof.Machine

/-! ### The publication plan (R367) -/

/-- A command without handles of a context and owner, that closes its own slot. -/
def addedCmd (opc eng ctx own budget w3 w4 : Nat) : Cmd :=
  { w0 := BitVec.ofNat 32 (opc + eng * 2 ^ 8 + ctx * 2 ^ 16 + own * 2 ^ 22 + 2 ^ 25), w1 := BitVec.ofNat 32 (budget / 16)
    w2 := BitVec.ofNat 32 (31 + 31 * 2 ^ 8 + 31 * 2 ^ 16 + 31 * 2 ^ 24), w3 := BitVec.ofNat 32 w3, w4 := BitVec.ofNat 32 w4
    w5 := 0, w6 := 0, w7 := 0 }

/-- A number of cycles rounded up to a budget. -/
def budgetFor (t : Nat) : Nat := 16 * cdiv t 16

/-- View entry of raw bytes at an offset of the scratchpad, rows of 64 B. -/
def rawView (ctx dst : Nat) : List W32 :=
  [BitVec.ofNat 32 (dst + 8 * 2 ^ 21 + ctx * 2 ^ 26), BitVec.ofNat 32 (64 + 2 ^ 31), 0, 0]

/-- Stream descriptor of `grans` rows of 64 raw bytes at an address. -/
def rawDesc (ctx a grans : Nat) : List W32 :=
  [BitVec.ofNat 32 a, BitVec.ofNat 32 (a / 2 ^ 32 + 8 * 2 ^ 16 + 2 ^ 22 + ctx * 2 ^ 25 + 2 ^ 31), 1, 64, 0, 0, 0,
   BitVec.ofNat 32 (64 + grans * 2 ^ 16), 0, 0]

/-- A command of a program reads bytes of a DST range of its core, or drains through a published channel. -/
def touches (x : Core) (es : List MapEntry) (chan : Nat) (c : Cmd) : Bool :=
  (es.any (fun e => (boundsOf x c).any (fun b => (b.extents 0).1.any (fun r => r.meets ⟨false, [(e.dst, e.len)]⟩)))) ||
    (isMatrix c && es.any (fun e => e.kind == 1 && rangesMeet c.chBase c.n (chan + e.ch0) (e.len / 16)))

/-- The added commands of one core: engine, issue time and command, with the loads of the streams. -/
structure Added where
  cmds : List (Nat × Nat × Cmd)
  views : List (Nat × List W32)
  descs : List (Nat × List W32)
  loads : List KnownLoad
  deriving DecidableEq, Repr

/-- The commands added on one core: each entry's STREAM_IN after the one before it, on SE1; the scale records first, each
LOAD_SCALES behind its stream and behind the one before it, and SCALE_SWAP last. `sv`: the view of LOAD_SCALES. -/
def addedFor (ctx own core chan sv from_ : Nat) (nw : Nat) (second : Bool) (es : List MapEntry) : Added :=
  let go := es.foldl (fun (acc : Added × Nat × Nat) (e : MapEntry) =>
    let a := acc.1
    let t : Nat := acc.2.1
    let nch : Nat := e.len / 16
    let b := budgetFor (8 + 16 + e.len / 64 + nw)
    let c := addedCmd 0x50 3 ctx own b (63 + 63 * 2 ^ 6) 0
    let t1 : Nat := t + b
    let u : Nat := max t1 acc.2.2
    let load := addedCmd 0x13 0 ctx own (budgetFor (16 + nch)) sv (chan + e.ch0 + (nch - 1) * 2 ^ 16)
    let scales := if e.kind = 1 then [(0, u, load)] else []
    let streams := if second then [] else [(3, t, c)]
    let loads := if second then [] else [(Planned.mk core 3 c t true, core / 4, 16, e.len / 64)]
    (Added.mk (a.cmds ++ streams ++ scales)
        (if a.views.isEmpty then [(63, rawView ctx e.dst)] ++ (if e.kind = 1 then [(sv, rawView ctx e.dst)] else []) else a.views)
        (if a.descs.isEmpty then [(63, rawDesc ctx (cmAddr (core / 4) e.src) (e.len / 64))] else a.descs)
        (a.loads ++ loads), t1, if e.kind = 1 then u + budgetFor (16 + nch) else acc.2.2))
    (Added.mk [] [] [] [], from_, from_)
  if es.any (fun e => e.kind == 1) && !second then
    { go.1 with cmds := go.1.cmds ++ [(0, go.2.2, addedCmd 0x14 0 ctx own 16 0 0)] }
  else go.1

/-- The added commands of a core as a program beside the target's. -/
def Added.prog (a : Added) (lcore core : Nat) : MapProg :=
  let of_ (e : Nat) : List (Nat × Nat × Cmd) := sortBy (fun x => x.2.1) (a.cmds.filter (fun x => x.1 == e))
  { lcore := lcore, core := core, cmds := (List.range 5).map (fun e => (of_ e).map (fun x => x.2.2))
    slots := (List.range 5).map (fun e => (of_ e).map (fun x => windowWord (x.2.1 - 20, x.2.1 - 20 + x.2.2.budget)))
    views := a.views, geos := [], descs := a.descs, spadKib := 0, cmBase := 0, cmKib := 0 }

/-- A view entry of a core that is not in use, below 63. -/
def State.freeView (s : State) (core : Nat) : Option Nat :=
  (List.range 63).reverse.find? (fun v => !bit ((s.core core).viewWord v 1) 31)

/-- The publication of context `n`: its added programs and their loads; none where an entry names no logical core of the
target or no view is left. -/
def State.composed (s : State) (n : Nat) (second : Bool) : Option (Mapped × List KnownLoad) :=
  let t := (s.adapt n).target
  match s.mapOf t with
  | none => none
  | some m =>
    let es := mapEntries (s.d (adaptObj n 0xC))
    let chan := (s.ctxChannels t).1
    let parts := m.progs.map (fun p =>
      let mine := es.filter (fun e => e.lcore == p.lcore)
      let ordered := mine.filter (fun e => e.kind == 1) ++ mine.filter (fun e => e.kind == 0)
      let others := (es.filter (fun e => e.lcore != p.lcore && m.progs.any (fun q => q.lcore == e.lcore && q.core / 4 == p.core / 4)))
      let nw := ((others.map (fun e => e.len / 64)).foldl (fun a b => a + b) 0)
      let x := coreWith (s.core p.core) s.rtMaps p.core
      let hit := ((List.range 5).flatMap p.planned).filter (fun (q : Planned) => touches x mine chan q.cmd)
      let last := (hit.map Planned.r).foldl max 0
      (p, ordered, nw, 20 + 4 * cdiv last 4))
    if es.any (fun e => m.progs.all (fun p => p.lcore != e.lcore)) ∨
        parts.any (fun q => q.2.1.any (fun e => e.kind == 1) && (s.freeView q.1.core).isNone) = true then none
    else
      let adds := (parts.filter (fun q => !q.2.1.isEmpty)).map (fun q =>
        (q.1, addedFor t (s.o (ctxObj t 1) % 4) q.1.core chan ((s.freeView q.1.core).getD 63) q.2.2.2 q.2.2.1 second q.2.1))
      some (⟨m.slot, 0, true, (adds.map (fun a => a.2.prog a.1.lcore a.1.core)).filter (fun p => p.cmds.any (fun l => !l.isEmpty)), []⟩,
            adds.flatMap (fun a => a.2.loads))

/-- The plan with the added commands enters the target cores. -/
def State.loadPublication (s : State) (pub : Mapped) (cores : List Nat) : State :=
  cores.foldl (fun t c => t.loadCorePlan (s.rtMaps ++ [pub]) c) s

/-- A best-effort context with a program on a target core would no longer fit its gaps (R327). -/
def State.gapsBroken (s : State) (cores : List Nat) : Bool :=
  s.maps.any (fun p => match p.2 with
    | some m => !m.rt && m.progs.any (fun q => cores.contains q.core && s.gapTooShort q)
    | none => false)

/-- Firmware composes and admits a PENDING publication; a failure sets REFUSED (R314, R327, R367). -/
def State.compose (s : State) (n : Nat) : State :=
  let refused (code : Nat) : State :=
    ((s.setO 0x400008 code).setO (adaptObj n 0xE) 4).setAdapt n { s.adapt n with phase := 0 }
  match s.composed n false with
  | none => refused 3
  | some (pub, loads) =>
    let code := s.admitCode (s.rtMaps ++ [pub]) s.admitGroups loads
    if code ≠ 1 then refused code
    else if (s.loadPublication pub (pub.progs.map (fun p => p.core))).gapsBroken (pub.progs.map (fun p => p.core)) = true then refused 3
    else (s.setO 0x400008 1).setAdapt n { s.adapt n with phase := 1 }

/-- A PENDING publication of context `n` is composed once no invocation runs (R366). -/
def State.composeIfReady (s : State) (n : Nat) : State :=
  if s.pubState n = 1 ∧ Tbl.get 0 s.invocations n = 0 then s.compose n else s

/-- A write of PUBLISH (R365). -/
def State.publish (s : State) (n v : Nat) : State × Nat :=
  let t := s.o (adaptObj n 0xB)
  let st := s.pubState n
  if t < 64 ∧ s.o (ctxObj t 0x15) ≠ n then (s, 0x0A)
  else if v ≠ 1 then (s, 0x05)
  else if ¬ (st = 0 ∨ st = 3 ∨ st = 4 ∨ st = 5) ∨ s.adapts? n = false ∨ 64 ≤ t ∨ s.ctxState t ≠ 2 ∨ s.o (ctxObj t 2) ≠ 0 then
    (s, 0x06)
  else
    let s1 := (s.setO (adaptObj n 0xE) 1).setAdapt n { s.adapt n with phase := 0, target := t, frame := 0 }
    (s1.composeIfReady n, 0)

/-- A write of PUBLISH_FROM of context `t` (R366). -/
def State.publishFrom (s : State) (t v : Nat) : State × Nat :=
  if 64 ≤ v ∧ v ≠ 0xFF then (s, 0x05)
  else
    let s1 := if v = s.o (ctxObj t 0x15) then s else s.abortPublications (fun g => g == t)
    (s1.setO (ctxObj t 0x15) v, 0)

/-! ### Rows -/

/-- INVOCATION_DONE (R352, R363): every core program's last segment has retired; DONE_SEQ becomes the SEQ read, and STEP of
an adaptation context counts. A publication that waited for it is composed. -/
def execInvocationDone (n : Fin 64) (s : State) : Host.Outcome State Fault Refusal :=
  .next (
    let v := Tbl.get 0 s.invocations n
    if v = 0 || s.busyCtx n then s
    else
      let s1 := (s.sramWrite (hubAddr (s.o (ctxObj n 0x14)) + 4) (leBytes 4 (v - 1)))
      let s2 := { s1 with invocations := Tbl.set 0 s1.invocations n 0 }
      let s3 := if s2.adapts? n then s2.incO (adaptObj n 3) 1 else s2
      s3.composeIfReady n)

/-- A write of CLOSE by firmware's answer: an empty half is left as it is (R362). -/
def State.closeWrite (s : State) (n : Nat) : State × Nat := (s.rollBatch n, 0)

/-- PUBLICATION_FRAME (R368). Composed: the publication plan is requested on every target core for the next frame F, once no
other context's scale command is queued in their ME queues and no save runs there. In frame F: the second plan for F + 1,
where scale records were published, else the plan in force. In frame F + 1 after a second plan: the plan in force. -/
def execPublicationFrame (n : Fin 64) (s : State) : Host.Outcome State Fault Refusal :=
  .next (
    let a := s.adapt n
    let next := (s.frame + 1) % 2 ^ 32
    let scales := (mapEntries (s.d (adaptObj n 0xC))).any (fun e => e.kind == 1)
    if a.phase = 1 ∧ s.pubState n = 1 then
      let s0 := s.compose n
      match s0.composed n false with
      | none => s0
      | some (pub, _) =>
        let cores := pub.progs.map (fun p => p.core)
        let queued := cores.any (fun c =>
          ((s0.core c).engine 0).queue.any (fun q => scaleWriter q.cmd && q.cmd.ctx != a.target))
        let saving := (List.range 64).any (fun k => s0.ctxState k == 3 && cores.any (fun c => (s0.configCores k).contains c))
        if (s0.adapt n).phase ≠ 1 then s0
        else if queued || saving then s
        else
          let s1 := (s0.loadPublication pub cores).setO (adaptObj n 0xE) 2
          let s2 := pub.progs.foldl (fun t p => t.installTables p) s1
          s2.setAdapt n { s2.adapt n with phase := 2, frame := next }
    else if a.phase = 2 ∧ s.frame = a.frame then
      match (if scales then s.composed n true else none) with
      | some (pub, _) => (s.loadPublication pub (pub.progs.map (fun p => p.core))).setAdapt n { a with phase := 3 }
      | none => s.loadPlan.setAdapt n { a with phase := 4 }
    else if a.phase = 3 ∧ s.frame = (a.frame + 1) % 2 ^ 32 then s.loadPlan.setAdapt n { a with phase := 4 }
    else s)

/-- A command of a publication into context `t`: it moves data under the entries 63, or loads or exchanges scale records where
no program of the target does so itself (`own`). -/
def publicationCmd (t : Nat) (own : Bool) (c : Cmd) : Bool :=
  c.ctx == t && ((c.opc == 0x50 && fld c.w3 0 6 == 63 && fld c.w3 6 6 == 63) || (!own && (c.opc == 0x13 || c.opc == 0x14)))

/-- A command of the publication of context `n` is queued or executing on a core of its target. -/
def State.publicationRuns (s : State) (n : Nat) : Bool :=
  let t := (s.adapt n).target
  let progs : List MapProg := match s.mapOf t with | some m => m.progs | none => []
  let own := progs.any (fun p => p.cmds.any (fun l => l.any (fun c => c.opc == 0x13 || c.opc == 0x14)))
  progs.any (fun p => (List.range 5).any (fun e =>
    let y := (s.core p.core).engine e
    y.queue.any (fun q => publicationCmd t own q.cmd) || y.flights.any (fun f => publicationCmd t own f.cmd)))

/-- PUBLICATION_DONE (R368): the last added command has retired; both frames have passed. -/
def execPublicationDone (n : Fin 64) (s : State) : Host.Outcome State Fault Refusal :=
  .next (
    let a := s.adapt n
    if a.phase = 4 && s.pubState n == 2 && !s.publicationRuns n then
      ((((s.setO (adaptObj n 0xE) 3).setO (adaptObj n 0xF) ((a.frame + 1) % 2 ^ 32)).incO (adaptObj n 0x10) 1)).setAdapt n
        { a with phase := 5 }
    else s)

end Sys2Proof.Machine
end

