-- ==== Sys2Proof/Machine/Camera.lean ====
section
/-! DEFINITION. The image pipeline: camera streams, the stages a pixel passes, buffers and delivery (R386 to R392, R463). -/

namespace Sys2Proof.Machine

/-- The key of sub-index `b` of CAMERA k. -/
def camObj (k b : Nat) : Nat := ok (0x5200 + k) b

/-- Camera stream `k`. -/
def State.camera (s : State) (k : Nat) : Camera := Tbl.get Camera.reset s.cameras k

/-- The state with a camera stream replaced. -/
def State.setCamera (s : State) (k : Nat) (x : Camera) : State := { s with cameras := Tbl.set Camera.reset s.cameras k x }

/-! ### Accesses of hub units under their OWNER (R31, R412) -/

/-- The status a region-table answer gives: 0 granted, 0xF0 retry, 0x0A refused. -/
def permitStatus : Permit → Nat
  | .granted => 0
  | .retry => 0xF0
  | .refused => 0x0A

/-- A write of a hub unit under an owner to a place: its status, 0 stored (R31, R37). -/
def State.hubPutAt (s : State) (own a : Nat) (d : List Byte) : Place → State × Nat
  | .hubSram off =>
    let st := permitStatus (s.permits false (off / 0x1000) own none true)
    if (st == 0) = true then (s.sramWrite a d, 0) else (s.regionRefusal false (off / 0x1000) own a, st)
  | .dram x =>
    let st := permitStatus (s.permits true (x / 0x200000) own none true)
    if (st == 0) = true then ((s.dramStore x 0 d).1, 0)
    else (s.regionRefusal true (x / 0x200000) own a, st)
  | _ => (s.logEv 0x0D 7 0 { own := some own, addr := a }, 0x09)

/-- A write of a hub unit under an owner, within 64 B. -/
def State.hubPut (s : State) (own a : Nat) (d : List Byte) : State × Nat := s.hubPutAt own a d (s.place a)

/-- A run of writes of a hub unit, piece by piece, up to the first that is refused. -/
def State.hubPutRun (s : State) (own a : Nat) (d : List Byte) : State × Nat :=
  untilStop (accessRuns a d.length) s (fun t p => t.hubPut own p.1 ((d.drop (p.1 - a)).take p.2))

/-! ### Input (R387) -/

/-- Bits per pixel of an INFMT code: RAW10, RAW12, MONO8, MONO10, MONO12. -/
def infmtBits (f : Nat) : Nat := [10, 12, 8, 10, 12].getD f 8

/-- A mono format. -/
def infmtMono (f : Nat) : Bool := decide (2 ≤ f)

/-- IW and IH. -/
def State.camSize (s : State) (k : Nat) : Nat × Nat := (nfld (s.o (camObj k 6)) 0 16, nfld (s.o (camObj k 6)) 16 16)

/-- The pixels of a packed line (R71). -/
def unpackLine (bits n : Nat) (d : List Byte) : List Nat :=
  (List.range n).map (fun m => nfld (leNat ((d.drop (m * bits / 8)).take 3)) (m * bits % 8) bits)

/-! ### The stages (R387 to R389) -/

/-- An image of 16-bit values: rows of values. -/
abbrev Img := List (List Nat)

/-- The value at (x, y). -/
def Img.px (g : Img) (x y : Nat) : Nat := (g.getD y []).getD x 0

/-- An image of a size from a function of (x, y). -/
def Img.of (w h : Nat) (f : Nat → Nat → Nat) : Img := (List.range h).map (fun y => (List.range w).map (fun x => f x y))

/-- The colour of the pixel (x, y) by CFA: 0 R, 1 G on a red row, 2 G on a blue row, 3 B. -/
def cfaColour (cfa x y : Nat) : Nat := (x + cfa % 2) % 2 + 2 * ((y + cfa / 2) % 2)

/-- A 16-bit entry of a table object. -/
def tab16 (d : List Byte) (i : Nat) : Nat := natAt d (2 * i) 2

/-- The lens-shading gain at (x, y) for colour `c`. -/
def lscGain (d : List Byte) (shw shh c x y : Nat) : Nat :=
  let i := x / 2 ^ shw
  let fx := x % 2 ^ shw
  let j := y / 2 ^ shh
  let fy := y % 2 ^ shh
  let g (j i : Nat) : Nat := tab16 d (825 * c + 33 * j + i)
  ((g j i * (2 ^ shw - fx) + g j (i + 1) * fx) * (2 ^ shh - fy) +
    (g (j + 1) i * (2 ^ shw - fx) + g (j + 1) (i + 1) * fx) * fy + 2 ^ (shw + shh - 1)) / 2 ^ (shw + shh)

/-- A pixel after black level and lens shading (R387). -/
def State.levelled (s : State) (k p x y : Nat) : Nat :=
  let f := s.o (camObj k 4)
  let c := if infmtMono f then 0 else cfaColour (s.o (camObj k 5)) x y
  let l := p * 2 ^ (16 - infmtBits f)
  let l1 := min 65535 (((l - nfld (s.o (camObj k 8)) (16 * c) 16) * nfld (s.o (camObj k 9)) (16 * c) 16 + 2 ^ 13) / 2 ^ 14)
  if nbit (s.o (camObj k 0xA)) 0 then
    let sh := s.o (camObj k 0xB)
    min 65535 ((l1 * lscGain (s.d (camObj k 0xC)) (nfld sh 0 4) (nfld sh 4 4) c x y + 2 ^ 11) / 2 ^ 12)
  else l1

/-- The pixels of a frame after black level and lens shading. -/
def State.levelledFrame (s : State) (k : Nat) (g : Img) : Img :=
  let z := s.camSize k
  Img.of z.1 z.2 (fun x y => s.levelled k (g.px x y) x y)

/-- The same-colour neighbours of (x, y) inside the frame (R388). -/
def sameColour (g : Img) (w h x y : Nat) : List Nat :=
  (if 2 ≤ x then [g.px (x - 2) y] else []) ++ (if x + 2 < w then [g.px (x + 2) y] else []) ++
    (if 2 ≤ y then [g.px x (y - 2)] else []) ++ (if y + 2 < h then [g.px x (y + 2)] else [])

/-- A DEFECTS object lists (x, y). -/
def listed (d : List Byte) (x y : Nat) : Bool :=
  (List.range (d.length / 4)).any (fun i => natAt d (4 * i) 2 == x && natAt d (4 * i + 2) 2 == y)

/-- A pixel after defective-pixel correction, and whether dynamic correction replaced it (R388). -/
def State.corrected (s : State) (k : Nat) (g : Img) (x y : Nat) : Nat × Bool :=
  let z := s.camSize k
  let st := s.o (camObj k 0xA)
  let v := g.px x y
  let ns := sameColour g z.1 z.2 x y
  let n := ns.length
  if listed (s.d (camObj k 0xE)) x y then
    (if nbit st 1 then ((ns.foldl (fun a b => a + b) 0) + n / 2) / n else v, false)
  else if nbit st 2 then
    let hi := ns.foldl max 0
    let lo := ns.foldl min 65535
    let t := s.o (camObj k 0xD)
    if hi + t < v then (hi, true) else if v + t < lo then (lo, true) else (v, false)
  else (v, false)

/-- A coordinate outside the frame mirrored about its edge: `i` less 1 is the position, so that −1 is 0 here. -/
def mirror (n i : Nat) : Nat := if i = 0 then 1 else if i = n + 1 then n - 2 else i - 1

/-- The mean of two or four values. -/
def mean2 (a b : Nat) : Nat := (a + b + 1) / 2
/-- The mean of four values. -/
def mean4 (a b c d : Nat) : Nat := (a + b + c + d + 2) / 4

/-- Red, green and blue of the pixel (x, y) (R389). -/
def demosaic (cfa w h : Nat) (g : Img) (x y : Nat) : Nat × Nat × Nat :=
  let q (dx dy : Nat) : Nat := g.px (mirror w (x + dx)) (mirror h (y + dy))
  let own := q 1 1
  let orth := mean4 (q 0 1) (q 2 1) (q 1 0) (q 1 2)
  let diag := mean4 (q 0 0) (q 2 0) (q 0 2) (q 2 2)
  let lr := mean2 (q 0 1) (q 2 1)
  let ud := mean2 (q 1 0) (q 1 2)
  match cfaColour cfa x y with
  | 0 => (own, orth, diag)
  | 1 => (lr, own, ud)
  | 2 => (ud, own, lr)
  | _ => (diag, orth, own)

/-- A signed value clamped to 16 bits. -/
def clamp16 (v : Int) : Nat := if v < 0 then 0 else min 65535 v.toNat

/-- One row of the colour matrix (R389). -/
def ccmRow (d : List Byte) (i : Nat) (c : Nat × Nat × Nat) : Nat :=
  let m (j : Nat) : Int := sext 16 (tab16 d (3 * i + j))
  clamp16 (Int.fdiv (m 0 * c.1 + m 1 * c.2.1 + m 2 * c.2.2 + 2048) 4096 + sext 16 (tab16 d (9 + i)))

/-- Gamma (R389). -/
def gammaOf (d : List Byte) (l : Nat) : Nat :=
  let i := l / 64
  let t0 : Int := tab16 d i
  let t1 : Int := tab16 d (i + 1)
  clamp16 (t0 + Int.fdiv ((t1 - t0) * (l % 64 : Nat) + 32) 64)

/-- The planes of a frame before crop, and DPC_FIXED. -/
def State.planes (s : State) (k : Nat) (g : Img) : List Img × Nat :=
  let z := s.camSize k
  let st := s.o (camObj k 0xA)
  let l := s.levelledFrame k g
  let fixed := ((List.range z.2).map (fun y => ((List.range z.1).filter (fun x => (s.corrected k l x y).2)).length)).sum
  let c := Img.of z.1 z.2 (fun x y => (s.corrected k l x y).1)
  let gam (v : Nat) : Nat := if nbit st 4 then gammaOf (s.d (camObj k 0x10)) v else v
  if infmtMono (s.o (camObj k 4)) then ([Img.of z.1 z.2 (fun x y => gam (c.px x y))], fixed)
  else
    let rgb (x y : Nat) : Nat × Nat × Nat := demosaic (s.o (camObj k 5)) z.1 z.2 c x y
    let m (i x y : Nat) : Nat :=
      let v := rgb x y
      if nbit st 3 then ccmRow (s.d (camObj k 0xF)) i v else if i = 0 then v.1 else if i = 1 then v.2.1 else v.2.2
    ((List.range 3).map (fun i => Img.of z.1 z.2 (fun x y => gam (m i x y))), fixed)

/-- CX, CY, CW, CH. -/
def State.crop (s : State) (k : Nat) : Nat × Nat × Nat × Nat :=
  let c := s.o (camObj k 0x11)
  (nfld c 0 16, nfld c 16 16, nfld c 32 16, nfld c 48 16)

/-- OW and OH. -/
def State.outSize (s : State) (k : Nat) : Nat × Nat := (nfld (s.o (camObj k 0x12)) 0 16, nfld (s.o (camObj k 0x12)) 16 16)

/-- The position of an output column in the crop: its pixel, the next one, and the weight of the next in 256ths. -/
def resizeAt (c o i : Nat) : Nat × Nat × Nat :=
  let step := c * 2 ^ 16 / o
  let t := (2 * i + 1) * step / 2 - 2 ^ 15
  (t / 2 ^ 16, min (t / 2 ^ 16 + 1) (c - 1), t / 256 % 256)

/-- One value of the resized crop (R389). -/
def State.resized (s : State) (k : Nat) (g : Img) (ox oy : Nat) : Nat :=
  let c := s.crop k
  let z := s.outSize k
  let h := resizeAt c.2.2.1 z.1 ox
  let v := resizeAt c.2.2.2 z.2 oy
  let q (x y : Nat) : Nat := g.px (c.1 + x) (c.2.1 + y)
  ((q h.1 v.1 * (256 - h.2.2) + q h.2.1 v.1 * h.2.2) * (256 - v.2.2) +
    (q h.1 v.2.1 * (256 - h.2.2) + q h.2.1 v.2.1 * h.2.2) * v.2.2 + 2 ^ 15) / 2 ^ 16

/-- The format of the output. -/
def State.outFmt (s : State) (k : Nat) : Fmt := (Fmt.ofCode (s.o (camObj k 0x13))).getD .uint8

/-- The bytes of an output value. -/
def State.outValue (s : State) (k v : Nat) : List Byte :=
  let f := s.outFmt k
  leBytes f.bytes (convert f true .near (fma32 (Num.ofInt v) (ofBits32 (s.o (camObj k 0x14))) (ofBits32 (s.o (camObj k 0x15))))).code

/-- Planes: three for colour, one for mono. -/
def State.camNch (s : State) (k : Nat) : Nat := if infmtMono (s.o (camObj k 4)) then 1 else 3

/-- PSTRIDE (R390). -/
def State.pstride (s : State) (k : Nat) : Nat :=
  cdiv ((s.outSize k).1 * (s.outSize k).2 * (s.outFmt k).bytes) 64 * 64

/-- The bytes of one plane. -/
def State.planeBytes (s : State) (k : Nat) (g : Img) : List Byte :=
  let z := s.outSize k
  (List.range z.2).flatMap (fun y => (List.range z.1).flatMap (fun x => s.outValue k (s.resized k g x y)))

/-! ### Configuration (R386) -/

/-- Two places lie in DRAM, or both in hub SRAM. -/
def Place.bothStore : Place → Place → Bool
  | .dram _, .dram _ => true
  | .hubSram _, .hubSram _ => true
  | _, _ => false

/-- The range of `n` bytes lies in DRAM whole or in hub SRAM whole. -/
def State.inDramOrHub (s : State) (a n : Nat) : Bool := (s.place a).bothStore (s.place (a + n - 1))

/-- The streams that are enabled, with `k`. -/
def State.camerasWith (s : State) (k : Nat) : List Nat := (List.range 4).filter (fun j => j == k || s.o (camObj j 1) == 1)

/-- Pixels per second of a stream. -/
def State.pixelRate (s : State) (k : Nat) : Nat := (s.camSize k).1 * (s.camSize k).2 * s.o (camObj k 7)

/-- R386: ENABLE = 1 of stream `k` passes its checks. -/
def State.cameraOk (s : State) (k : Nat) : Bool :=
  let z := s.camSize k
  let c := s.crop k
  let o := s.outSize k
  let sh := s.o (camObj k 0xB)
  let d := s.d (camObj k 0xE)
  let ks := s.camerasWith k
  let load (j : Nat) : Nat := s.pixelRate j * infmtBits (s.o (camObj j 4))
  decide (c.1 + c.2.2.1 ≤ z.1) && decide (c.2.1 + c.2.2.2 ≤ z.2) && c.2.2.1 != 0 && c.2.2.2 != 0 && decide (o.1 ≤ c.2.2.1) &&
    decide (o.2 ≤ c.2.2.2) && decide (c.2.2.1 ≤ 8 * o.1) && decide (c.2.2.2 ≤ 8 * o.2) &&
    decide (z.1 ≤ 32 * 2 ^ nfld sh 0 4) && decide (z.2 ≤ 24 * 2 ^ nfld sh 4 4) &&
    decide (64 + s.camNch k * s.pstride k ≤ s.o (camObj k 0x19)) &&
    s.inDramOrHub (s.o (camObj k 0x17)) (s.o (camObj k 0x18) * s.o (camObj k 0x19)) &&
    decide (s.o (camObj k 0x1A) + 64 ≤ 0x800000) &&
    (List.range (d.length / 4)).all (fun i => decide (natAt d (4 * i) 2 < z.1) && decide (natAt d (4 * i + 2) 2 < z.2)) &&
    decide ((ks.map s.pixelRate).sum ≤ 1600000000) &&
    decide (((ks.filter (fun j => s.o (camObj j 2) == s.o (camObj k 2))).map load).sum ≤ 23000000000)

/-- A frame of stream `k` is abandoned: counted with its cause (R392). -/
def State.abandonCount (s : State) (k cause n : Nat) : State :=
  if n = 0 then s else (s.incO (camObj k 0x1E) n).setO (camObj k 0x1F) cause

/-- The frame being received is abandoned. -/
def State.abandonCur (s : State) (k cause : Nat) : State :=
  let x := s.camera k
  (s.setCamera k { x with cur := none }).abandonCount k cause (if x.cur.isSome then 1 else 0)

/-- Every frame of stream `k` that is not delivered is abandoned. -/
def State.abandonAll (s : State) (k cause : Nat) : State :=
  let x := s.camera k
  (s.setCamera k { x with cur := none, ready := [] }).abandonCount k cause ((if x.cur.isSome then 1 else 0) + x.ready.length)

/-- A write of ENABLE of stream `k` (R386, R390, R392). The pipeline clears its control block under its OWNER: a write that the
region table refuses changes nothing (R31). -/
def State.cameraEnable (s : State) (k v : Nat) : State × Nat :=
  if v = s.o (camObj k 1) then (s, 0)
  else if v = 0 then ((s.abandonAll k 5).setO (camObj k 1) 0, 0)
  else if !s.cameraOk k then (s, 0x05)
  else
    let s1 := (s.hubPutRun (s.o (camObj k 0x16)) (hubAddr (s.o (camObj k 0x1A))) (List.replicate 64 0)).1
    ((s1.setCamera k Camera.reset).setO (camObj k 1) 1, 0)

/-! ### Lines (R391, R392, R463) -/

/-- A word of the control block is written under OWNER. -/
def State.putCamWord (s : State) (k w v : Nat) : State :=
  (s.hubPut (s.o (camObj k 0x16)) (hubAddr (s.o (camObj k 0x1A)) + 4 * w) (leBytes 4 v)).1

/-- A word of RELEASE_SEQ as a frame start accepts it: a value above WRITE_SEQ or below the one last accepted is ignored and
logged; where RFC 1982 does not order the values, which of the two happens is free (log 165). -/
def State.acceptRelease (s : State) (k v : Nat) : State :=
  let x := s.camera k
  let w := x.writeSeq
  if serialGe 32 w v && serialGe 32 v x.released then s.setCamera k { x with released := v }
  else if (serialGe 32 w v || serialTie 32 w v) && (serialGe 32 v x.released || serialTie 32 v x.released) &&
      s.fresh.1 % 2 == 1 then s.fresh.2.setCamera k { x with released := v }
  else s.logEv 0x26 7 0 { detail := k }

/-- A frame start reads RELEASE_SEQ under OWNER; a read that returns no data changes nothing (R31, R273). -/
def State.readRelease (s : State) (k : Nat) : State :=
  let own := s.o (camObj k 0x16)
  let off := s.o (camObj k 0x1A) + 4
  let t := s.hubSee own off 4
  match s.hubLook own off 4 with
  | some d => t.acceptRelease k (leNat d)
  | none => t

/-- The header of a line packet. -/
structure LineHdr where
  cam : Nat
  fs : Bool
  fe : Bool
  line : Nat
  frame : Nat
  pixels : Nat
  fmt : Nat
  deriving DecidableEq, Repr

/-- The header that opens a payload. -/
def lineHdr (d : List Byte) : LineHdr :=
  let w (i : Nat) : Nat := wordAt d (4 * i)
  ⟨nfld (w 0) 0 8, nbit (w 0) 8, nbit (w 0) 9, nfld (w 0) 16 16, w 1, nfld (w 2) 0 16, nfld (w 2) 16 3⟩

/-- The line is one that the frame expects: its number, length, format and place. -/
def State.lineOk (s : State) (k : Nat) (h : LineHdr) (d : List Byte) (next : Nat) : Bool :=
  let z := s.camSize k
  h.line == next && h.pixels == z.1 && h.fmt == s.o (camObj k 4) && h.fs == (h.line == 0) && h.fe == (h.line + 1 == z.2) &&
    decide (16 + cdiv (z.1 * infmtBits (s.o (camObj k 4))) 8 ≤ d.length)

/-- A line taken into the frame being received; the last one makes it ready. -/
def State.takeLine (s : State) (k : Nat) (f : CamFrame) (h : LineHdr) (d : List Byte) : State :=
  let z := s.camSize k
  let g := { f with lines := f.lines ++ [unpackLine (infmtBits (s.o (camObj k 4))) z.1 (d.drop 16)], tEof := s.now }
  let x := s.camera k
  if h.fe then s.setCamera k { x with cur := none, ready := x.ready ++ [g] } else s.setCamera k { x with cur := some g }

/-- A frame start: RELEASE_SEQ is read; with no buffer free the frame is dropped whole (R391), and a frame that starts while
the input buffer is full is abandoned (R392). -/
def State.frameBegin (s : State) (k : Nat) (full : Bool) (h : LineHdr) (d : List Byte) : State :=
  let s1 := (s.abandonCur k 4).readRelease k
  let x := s1.camera k
  let seq := (x.writeSeq + x.ready.length) % 2 ^ 32
  if (seq + 2 ^ 32 - x.released) % 2 ^ 32 = s1.o (camObj k 0x18) then s1.incO (camObj k 0x1D) 1
  else if full then s1.abandonCount k 2 1
  else if !s1.lineOk k h d 0 then s1.abandonCount k 1 1
  else s1.takeLine k ⟨seq, h.frame, s1.now, 0, []⟩ h d

/-- A LINE_PKT of sensor link `sl` (R463): the line starts a frame, or continues the one being received; lines of a frame
that was dropped or abandoned pass by. `full`: the stream's input buffer of 8 lines is full. -/
def State.onLine (s : State) (sl : Nat) (full : Bool) (d : List Byte) : State :=
  let h := lineHdr d
  match (List.range 4).find? (fun k => s.o (camObj k 1) == 1 && s.o (camObj k 2) == sl && s.o (camObj k 3) == h.cam) with
  | none => s.incO (ok (0x7120 + sl) 8) 1
  | some k =>
    if h.fs then s.frameBegin k full h d
    else match (s.camera k).cur with
      | none => s
      | some f =>
        if full then s.abandonCur k 2
        else if f.frame = h.frame && s.lineOk k h d f.lines.length then s.takeLine k f h d
        else s.abandonCur k 1

/-! ### Delivery (R390 to R392) -/

/-- The header of a delivered image (R390). -/
def State.imageHeader (s : State) (k : Nat) (f : CamFrame) (fixed : Nat) : List Byte :=
  let z := s.outSize k
  leBytes 4 f.frame ++ leBytes 4 f.seq ++ leBytes 8 f.tSof ++ leBytes 8 f.tEof ++ leBytes 4 (z.1 + z.2 * 2 ^ 16) ++
    leBytes 4 (s.camNch k + s.o (camObj k 0x13) % 16 * 16) ++ leBytes 4 (s.pstride k) ++ leBytes 4 fixed ++ List.replicate 24 0

/-- A word of a context's dimension record is written by a hub unit under its OWNER (R31). -/
def State.unitDim (s : State) (own n w v : Nat) : State :=
  (s.hubPut own (hubAddr (s.o (ctxObj n 0x14)) + 4 * w) (leBytes 4 v)).1

/-- A dimension record announced by a unit under its OWNER: DIM0 and DIM1, then SEQ by a separate write (R352). -/
def State.announceDim (s : State) (own ctx d0 d1 seq : Nat) : State :=
  if 64 ≤ ctx then s else ((s.unitDim own ctx 4 d0).unitDim own ctx 5 d1).unitDim own ctx 0 seq

/-- A granule of the control block, or of the dimension record that is announced, is being cleared or closed: the writes wait
(R32). -/
def State.unitHeld (s : State) (own ctrl ctx : Nat) : Bool :=
  (ctrl :: (if 64 ≤ ctx then [] else [s.o (ctxObj ctx 0x14)])).any (fun off =>
    s.permits false (regionGranule false off) own none true == .retry)

/-- The oldest frame of stream `k` that is ready is written whole and delivered, or abandoned where a write is refused; it
waits while a granule is being cleared, and for the rebuild of the DRAM that abandons it (R53). -/
def State.deliver_ (s : State) (k : Nat) : State :=
  let x := s.camera k
  match x.ready with
  | [] => s
  | f :: rest =>
    if s.power.channelLost && (s.place (s.o (camObj k 0x17))).isDram then s else
    let own := s.o (camObj k 0x16)
    if s.unitHeld own (s.o (camObj k 0x1A)) (s.o (camObj k 0x1B)) then s else
    let buf := f.seq % s.o (camObj k 0x18)
    let base := s.o (camObj k 0x17) + buf * s.o (camObj k 0x19)
    let p := s.planes k f.lines
    let r := untilStop p.1.zipIdx s (fun t g => t.hubPutRun own (base + 64 + g.2 * s.pstride k) (s.planeBytes k g.1))
    let r1 := if r.2 = 0 then r.1.hubPutRun own base (s.imageHeader k f p.2) else r
    let next := (f.seq + 1) % 2 ^ 32
    if r1.2 = 0xF0 then s
    else if r1.2 ≠ 0 then
      (r1.1.setCamera k { x with ready := rest.map (fun g => { g with seq := (g.seq + 2 ^ 32 - 1) % 2 ^ 32 })
                                 cur := x.cur.map (fun g => { g with seq := (g.seq + 2 ^ 32 - 1) % 2 ^ 32 }) }).abandonCount k 3 1
    else
      let s1 := (((r1.1.setCamera k { x with ready := rest, writeSeq := next }).putCamWord k 2 buf).putCamWord k 3 f.frame).putCamWord k 0 next
      (s1.incO (camObj k 0x1C) 1).announceDim own (s.o (camObj k 0x1B)) buf f.seq next

/-- IMAGE_DELIVERY: the last write of a frame of stream k commits (R391, R392). -/
def execImageDelivery (k : Fin 4) (s : State) : Host.Outcome State Fault Refusal := .next (s.deliver_ k)

end Sys2Proof.Machine
end

