-- ==== Sys2Proof/Machine/Control.lean ====
section
/-! DEFINITION. What firmware and the hub do to a core's queues, and what befalls its commands (R127 to R149, R290 to
R297, R555). -/

namespace Sys2Proof.Machine

/-- A segment with one more command appended (R330). -/
def SegRec.add (r : SegRec) (c : Cmd) : SegRec :=
  { sums := Tbl.set 0 r.sums c.eng (Tbl.get 0 r.sums c.eng + c.budget)
    mask := if c.opc = 0x05 then some (fld c.w5 16 4) else r.mask
    engs := if c.markFlag then nput r.engs c.eng 1 1 else r.engs }

/-- The segment is whole: its MARK is appended, and the MARK-flagged command of each engine that the MARK names. -/
def SegRec.whole (r : SegRec) : Bool :=
  match r.mask with
  | some m => (List.range 4).all (fun e => !nbit m e || nbit r.engs e)
  | none => false

/-- The summed budgets of the engine with the largest sum, in cycles. -/
def SegRec.cycles (r : SegRec) : Nat := ((List.range 5).map (fun e => Tbl.get 0 r.sums e)).foldl max 0

/-- The account of segments after an append (R330): a whole one counts among the context's segments in the queues until it
retires, and one of a best-effort context whose budget exceeds its SEGMENT_MAX_NS, whose pre-emption latency is unbounded till
then, counts in SEGMENT_OVERRUNS. -/
def State.noteSegment (s : State) (core : Nat) (c : Cmd) : State :=
  let x := s.core core
  if bit x.ctxClass c.ctx then s
  else
    let r := (Tbl.get SegRec.reset x.segs c.ctx).add c
    let excess := r.whole && decide (s.o (ctxObj c.ctx 7) * s.clusterMhz (core / 4) < r.cycles * 1000)
    let t := s.setCore core { x with
      segs := Tbl.set SegRec.reset x.segs c.ctx (if r.whole then SegRec.reset else r)
      segOut := if r.whole then Tbl.set [] x.segOut c.ctx (Tbl.get [] x.segOut c.ctx ++ [excess]) else x.segOut }
    if excess then t.incO (ctxObj c.ctx 0xF) 1 else t

/-! ### The turn of a best-effort append (R324, R325, R328, R330) -/

/-- The rounds that pass until a deficit covers a group's sum, each crediting WEIGHT × 1,024 cycles; none where it never does.
A context whose deficit lies below −1,048,576 cycles is thereby skipped until its credit has recovered (R324). -/
def roundsFor (d : Int) (weight sum : Nat) : Option Nat :=
  if (sum : Int) ≤ d then some 0
  else if weight = 0 then none
  else some (cdiv ((sum : Int) - d).toNat (weight * 1024))

/-- The commands that a context's program on a core has for an engine, from the next one to be appended on: the program is
appended in order and round again, while an invocation runs where the context has dynamic dimensions (R352; DESIGN CHOICE, log
181). -/
def State.programLeft (s : State) (core e n : Nat) : List Cmd :=
  match s.mapOf n with
  | none => []
  | some m =>
    let l := (m.progs.filter (fun p => p.core == core)).flatMap (fun p => p.frameCmds e)
    if imgNdim (s.imageOf m.slot) ≠ 0 ∧ Tbl.get 0 s.invocations n = 0 then []
    else l.drop (Tbl.get 0 (s.engine core e).next n % max 1 l.length)

/-- The summed budgets of a group, which its first command with SLOT_END closes. -/
def groupBudget : List Cmd → Nat
  | [] => 0
  | c :: r => c.budget + (if c.slotEnd then 0 else groupBudget r)

/-- R330: a best-effort command goes on with its segment, or begins one while at most one other of its context stands in the
queues of the core. -/
def Core.segmentFits (x : Core) (n : Nat) : Bool :=
  Tbl.get SegRec.reset x.segs n != SegRec.reset || decide ((Tbl.get [] x.segOut n).length < 2)

/-- The best-effort contexts that may append to a core and have a group ready for one of its engines, with the group's summed
budgets in cycles: those whose program goes on there, and the context of the command `c` itself (R324, R330). -/
def State.groupsReady (s : State) (core e : Nat) (c : Cmd) : List (Nat × Nat) :=
  let x := s.core core
  (List.range 64).filterMap (fun n =>
    if bit x.ctxClass n || !bit x.ctxEn n || !x.segmentFits n then none
    else match s.programLeft core e n with
      | [] => if n = c.ctx then some (n, c.budget) else none
      | l => some (n, groupBudget l))

/-- The groups ready of the contexts of highest PRIORITY (R324). -/
def State.topGroups (s : State) (l : List (Nat × Nat)) : List (Nat × Nat) :=
  let top := (l.map (fun p => s.o (ctxObj p.1 5))).foldl max 0
  l.filter (fun p => s.o (ctxObj p.1 5) == top)

/-- The rounds after which the first of the groups is within its context's deficit, the context of that group, the lowest of
several, and its sum (R324; DESIGN CHOICE, log 181). -/
def State.turnOf (s : State) (y : Engine) (l : List (Nat × Nat)) : Option (Nat × Nat × Nat) :=
  l.foldl (fun best p =>
    match roundsFor (Tbl.get 0 y.deficits p.1) (s.o (ctxObj p.1 6)) p.2, best with
    | some k, some b => if k < b.1 then some (k, p) else some b
    | some k, none => some (k, p)
    | none, b => b) none

/-- The engine after the rounds: each context of the priority credited, and the sum of the group that is appended
subtracted (R324). -/
def State.creditRounds (s : State) (y : Engine) (l : List (Nat × Nat)) (turn : Nat × Nat × Nat) : Engine :=
  let d := l.foldl (fun t p =>
    Tbl.set 0 t p.1 (Tbl.get 0 t p.1 + ((turn.1 * s.o (ctxObj p.1 6) * 1024 : Nat) : Int))) y.deficits
  { y with group := some turn.2.1, deficits := Tbl.set 0 d turn.2.1 (Tbl.get 0 d turn.2.1 - (turn.2.2 : Int)) }

/-- The real-time commands that the plan places on an engine of a core in a frame. -/
def State.rtPerFrame (s : State) (core e : Nat) : Nat :=
  ((s.rtMaps.flatMap (fun m => m.progs)).map (fun p => if p.core = core then (p.frameCmds e).length else 0)).sum

/-- R325: in a queue of partition 0 more entries are free than the real-time commands of the next two frames need, those that
stand in it already needing none (DEDUCED, log 181). -/
def State.keepsFree (s : State) (core e : Nat) : Bool :=
  let y := s.engine core e
  !(s.coresOf 0).contains core ||
    decide (2 * s.rtPerFrame core e < 64 - y.queue.length + (y.queue.filter (fun q => (s.core core).isRt q.cmd)).length)

/-- A chain of held banks of the context is open in the ME queue: its last matrix command there leaves the bank held (R328). -/
def chainOpen (queue : List QEntry) (n : Nat) : Bool :=
  match (queue.filter (fun q => q.cmd.ctx == n && isMatrix q.cmd)).getLast? with
  | some q => q.cmd.hold
  | none => false

/-- The engine as the cluster control core's append of a well-formed command finds it, with the group it belongs to open; none
while the command may not be appended: another context's group is open, another group's turn has come, or the queues hold
what R325 and R330 allow. A real-time command waits for an open group only (R324). -/
def State.appendTurn (s : State) (core e : Nat) (c : Cmd) : Option Engine :=
  let x := s.core core
  let y := s.engine core e
  if x.isRt c then (if y.group.isNone then some y else none)
  else if !s.keepsFree core e || !x.segmentFits c.ctx then none
  else match y.group with
    | some n => if n = c.ctx then some y else none
    | none =>
      let l := s.topGroups (s.groupsReady core e c)
      match s.turnOf y l with
      | some t => if t.2.1 = c.ctx then some (s.creditRounds y l t) else none
      | none => none

/-- A best-effort command with SLOT_END has closed its group, unless a chain of held banks goes on (R324, R328). -/
def Engine.endGroup (y : Engine) (c : Cmd) : Engine :=
  if c.slotEnd && !(c.eng == 0 && chainOpen y.queue c.ctx) then { y with group := none } else y

/-- A well-formed command is appended in its turn: its group is opened or goes on, and its segment is accounted for. -/
def State.appendInTurn (s : State) (core : Nat) (eng : Eng) (c : Cmd) (y : Engine) : State :=
  let e := engCode eng
  let t := ((s.setEngine core e y).append core eng c).noteSegment core c
  if (s.core core).isRt c then t
  else
    let z := (t.engine core e).endGroup c
    t.setEngine core e { z with next := Tbl.set 0 z.next c.ctx (Tbl.get 0 z.next c.ctx + 1) }

/-- QUEUE_APPEND of a command of the code object, as the cluster control core appends it (R28, R29, R128, R324, R325, R330,
R359). While a publication is under way it appends no command of another context that changes the scales of a target core
(R368). A stopped cluster's control core appends nothing (R25), and a command whose turn has not come is not appended. -/
def execQueueAppend (core : Fin 24) (eng : Eng) (c : Cmd) (s : State) : Host.Outcome State Fault Refusal :=
  .next (
    if (scaleWriter c && s.publishedCore core c.ctx) || s.stopped (core / 4) then s
    else
      let w := s.workingCopy c
      let admitted := decide ((s.engine core (engCode eng)).queue.length < 64) && s.appendOk core eng w
      let u := if !admitted then s.append core eng w
        else match s.appendTurn core (engCode eng) w with
          | some y => s.appendInTurn core eng w y
          | none => s
      if (s.core core).clockGated then u.settle else u)

/-! ### Issue and retirement -/

/-- What follows a row at a core's engines, before which the state was `s`: stops that waited for its commands (R321), a save
that goes on where its command ended well or not (R331, R335), and what waits for them. -/
def State.afterEngine (t s : State) (core : Nat) (ok : Bool) : State :=
  let u := t.finishStops
  let v := u.saveGoesOn s core ok
  let w := if s.preempting != v.preempting then v.afterPreempt else v
  if w.power.waiting.isEmpty then w else w.serveWaiting

/-- COMMAND_ISSUE: a submission to RSTCMD issues ahead of the queue (R555); else the oldest command of a class is
considered (R130, R131). -/
def execCommandIssue (core : Fin 24) (eng : Eng) (rt : Bool) (s : State) : Host.Outcome State Fault Refusal :=
  .next (
    let e := engCode eng
    let t := s.rstIssue core e
    let u := if (s.engine core e).rstPending.isSome && (t.engine core e).rstPending.isNone then t else s.consider core e rt
    u.afterEngine s core false)

/-- COMMAND_RETIRE (R136). -/
def execCommandRetire (core : Fin 24) (eng : Eng) (s : State) : Host.Outcome State Fault Refusal :=
  .next ((s.retire core (engCode eng)).afterEngine s core true)

/-- STREAM_FAULT_END (R170). -/
def execStreamFaultEnd (core : Fin 24) (se : Fin 2) (s : State) : Host.Outcome State Fault Refusal :=
  .next ((s.streamFaultEnd core (seOf se)).afterEngine s core false)

/-- WATCHDOG_EXPIRY (R149). -/
def execWatchdogExpiry (core : Fin 24) (eng : Eng) (s : State) : Host.Outcome State Fault Refusal :=
  .next ((s.watchdog core (engCode eng)).afterEngine s core false)

/-- SLOT_MISS (R143). -/
def execSlotMiss (core : Fin 24) (eng : Eng) (s : State) : Host.Outcome State Fault Refusal :=
  .next (s.slotMiss core (engCode eng))

/-- HANDLE_FORWARD_ARRIVAL (R295): the oldest handle on its way from queue `q` of unit `u` (a cluster, or 7 the hub). -/
def execHandleForwardArrival (u : Fin 8) (q : Fin 32) (s : State) : Host.Outcome State Fault Refusal :=
  .next (s.forwardArrival u q)

/-- CREDIT_ARRIVAL (R295): the oldest credit on its way to FORWARD queue `q` of unit `u`. -/
def execCreditArrival (u : Fin 8) (q : Fin 32) (s : State) : Host.Outcome State Fault Refusal :=
  .next (s.creditArrival u q)

/-- The frame whose tick is due at a core: one that has started t_FTK = 20 ns ago or more, and whose tick has not reached the
core (R299, R317). -/
def State.tickDue (s : State) (core : Nat) : Option Nat :=
  match s.loop.start with
  | some t => if t + 20 ≤ s.now ∧ (s.core core).tickFor ≠ t + 1 then some t else none
  | none => none

/-- CORE_FRAME_TICK (R137, R299): one tick a frame reaches each core, t_FTK after the frame start. -/
def execCoreFrameTick (core : Fin 24) (s : State) : Host.Outcome State Fault Refusal :=
  .next (
    match s.tickDue core with
    | some t =>
      let u := s.frameTick core
      u.setCore core { u.core core with tickFor := t + 1 }
    | none => s)

/-- FRAME_SWAP_WRITE (R137, R326). -/
def execFrameSwapWrite (core : Fin 24) (s : State) : Host.Outcome State Fault Refusal := .next (s.frameSwapWrite core)

/-- ME_CFG_WRITE (R118), which the repair state records (R64). -/
def execMeCfgWrite (core : Fin 24) (v : W32) (s : State) : Host.Outcome State Fault Refusal :=
  .next ((s.meCfgWrite core v).recordRepair s)

/-- HANDLE_QUEUE_CONFIG: word `w` of HQCFGq of a unit (R290, R296). -/
def execHandleQueueConfig (u : Fin 8) (q : Fin 32) (w : Fin 2) (v : W32) (s : State) : Host.Outcome State Fault Refusal :=
  .next (s.configQueue u q w v)

/-- RSTCMD_SUBMIT: words 0 to 7 of ENGx.RSTCMD, word 7 submitting them; the command issues at once where it may (R555). -/
def execRstcmdSubmit (core : Fin 24) (se : Fin 2) (c : Cmd) (s : State) : Host.Outcome State Fault Refusal :=
  .next ((s.rstSubmit core (seOf se) c).rstIssue core (seOf se))

end Sys2Proof.Machine
end

