-- ==== Sys2Proof/Machine/Tokens.lean ====
section
/-! DEFINITION. The NC-program tokenizer: vocabulary, normalisation, matching and the token ring (R393 to R396). -/

namespace Sys2Proof.Machine

/-- The key of sub-index `b` of TOKENIZER. -/
def tokObj (b : Nat) : Nat := ok 0x5300 b

/-! ### Vocabulary (R393) -/

/-- The records of a vocabulary, read with as much fuel as it has bytes; none where a length is not 2 to 32 or runs past the
end. -/
def vocabRecords : Nat → List Byte → Option (List (List Byte))
  | _, [] => some []
  | 0, _ => none
  | fuel + 1, n :: r =>
    if n.toNat < 2 ∨ 32 < n.toNat ∨ r.length < n.toNat then none
    else (vocabRecords fuel (r.drop n.toNat)).map (fun l => r.take n.toNat :: l)

/-- The records in force. -/
def State.vocab (s : State) : List (List Byte) := (vocabRecords (s.d (tokObj 2)).length (s.d (tokObj 2))).getD []

/-- R393, but for the size of the trie. -/
def vocabOk (d : List Byte) : Bool :=
  match vocabRecords d.length d with
  | some l => decide (l.length ≤ 65280) && l.eraseDups.length == l.length
  | none => false

/-- VOCAB written whole: `fits`, its trie fits the memory that firmware reserves for it. -/
def State.vocabWrite (s : State) (d : List Byte) (fits : Bool) : State × Nat :=
  if !(vocabOk d && fits) then (s, 0x05)
  else if s.o (tokObj 1) = 1 then (s, 0x06)
  else ((s.setD (tokObj 2) d).setO (tokObj 0xB) (256 + ((vocabRecords d.length d).getD []).length), 0)

/-! ### Normalisation (R394) -/

/-- Step 1 for one byte: the state of comments after it, and whether the byte passes. -/
def stripByte (norm : Nat) (x : Tokenizer) (b : Byte) : Tokenizer × Bool :=
  let c := b.toNat
  if x.paren then
    if c = 0x0A then ({ x with paren := false }, true)
    else ({ x with paren := c != 0x29 }, false)
  else if x.semi then
    if c = 0x0A then ({ x with semi := false }, true) else (x, false)
  else if c = 0x28 ∧ nbit norm 0 = true then ({ x with paren := true }, false)
  else if c = 0x3B ∧ nbit norm 1 = true then ({ x with semi := true }, false)
  else (x, true)

/-- Step 2. -/
def foldCase (norm : Nat) (b : Byte) : Byte := if nbit norm 2 && decide (0x61 ≤ b.toNat) && decide (b.toNat ≤ 0x7A) then b - 0x20 else b

/-- Step 3 for one byte: what it lets through. A 0x0D is kept back until the byte after it is known. -/
def collapseByte (norm : Nat) (x : Tokenizer) (b : Byte) : Tokenizer × List Byte :=
  if !nbit norm 3 then (x, [b])
  else
    let c := b.toNat
    let before : List Byte := if x.cr && c != 0x0A then [0x0D] else []
    let y := { x with cr := false, space := if x.cr && c != 0x0A then false else x.space }
    if c = 0x0D then ({ y with cr := true }, before)
    else if c = 0x20 ∨ c = 0x09 then ({ y with space := true }, if y.space then before else before ++ [0x20])
    else ({ y with space := false }, before ++ [b])

/-- The bytes of a text normalised and put behind those held. -/
def Tokenizer.feed (norm : Nat) (x : Tokenizer) (d : List Byte) : Tokenizer :=
  d.foldl (fun (y : Tokenizer) b =>
    let p := stripByte norm y b
    if p.2 then
      let q := collapseByte norm p.1 (foldCase norm b)
      { q.1 with held := q.1.held ++ q.2 }
    else p.1) x

/-- The end of a text: a 0x0D kept back passes, and every comment closes (R395). -/
def Tokenizer.close (x : Tokenizer) : Tokenizer :=
  { x with held := if x.cr then x.held ++ [0x0D] else x.held, paren := false, semi := false, space := false, cr := false }

/-! ### Matching (R395) -/

/-- `p` begins `l`. -/
def beginsWith : List Byte → List Byte → Bool
  | [], _ => true
  | _, [] => false
  | a :: p, b :: l => a == b && beginsWith p l

/-- The longest entry that the bytes begin with: its token and length; else the byte token. -/
def longestToken (v : List (List Byte)) (l : List Byte) : Nat × Nat :=
  v.zipIdx.foldl (fun (best : Nat × Nat) r =>
    if best.2 < r.1.length && beginsWith r.1 l then (256 + r.2, r.1.length) else best) ((l.headD 0).toNat, 1)

/-- A further byte can still make a longer entry of the bytes left. -/
def undecided (v : List (List Byte)) (l : List Byte) : Bool := v.any (fun r => decide (l.length < r.length) && beginsWith l r)

/-- The tokens of the bytes, with as much fuel as bytes, and the bytes held. -/
def tokenize (v : List (List Byte)) (flush : Bool) : Nat → List Byte → List Nat × List Byte
  | _, [] => ([], [])
  | 0, l => ([], l)
  | fuel + 1, l =>
    if !flush && undecided v l then ([], l)
    else
      let t := longestToken v l
      let r := tokenize v flush fuel (l.drop t.2)
      (t.1 :: r.1, r.2)

/-! ### The token ring (R396) -/

/-- Address of word `w` of the control block. -/
def State.tokAddr (s : State) (w : Nat) : Nat := hubAddr (s.o (tokObj 6)) + 4 * w

/-- RELEASE_SEQ as the tokenizer reads it under OWNER; where a read returns no data, the last value read (R31, R273). -/
def State.tokRelease (s : State) : Nat :=
  ((s.hubLook (s.o (tokObj 0xA)) (s.o (tokObj 6) + 4) 4).map leNat).getD s.tokenizer.released

/-- The tokenizer reads RELEASE_SEQ. -/
def State.readTokRelease (s : State) : State :=
  let t := s.hubSee (s.o (tokObj 0xA)) (s.o (tokObj 6) + 4) 4
  { t with tokenizer := { t.tokenizer with released := s.tokRelease } }

/-- WRITE_SEQ less RELEASE_SEQ. -/
def State.unreleased (s : State) : Nat := (s.tokenizer.writeSeq + 2 ^ 32 - s.tokRelease) % 2 ^ 32

/-- The offset in hub SRAM of the ring entry that takes the token after the next `i` (R396). -/
def State.tokenPlace (s : State) (i : Nat) : Nat := s.o (tokObj 4) + 2 * ((s.o (tokObj 0xD) + i) % s.o (tokObj 5))

/-- One of the next `n` entries, or what is written after them, lies in a granule that is being cleared or closed: the writes
wait (R32). -/
def State.tokensHeld (s : State) (n : Nat) : Bool :=
  s.unitHeld (s.o (tokObj 0xA)) (s.o (tokObj 6)) (s.o (tokObj 7)) ||
  (List.range n).any (fun i => s.permits false (s.tokenPlace i / 0x1000) (s.o (tokObj 0xA)) none true == .retry)

/-- Tokens written to the ring, entry TOKENS_OUT mod OUT_TOKENS on. -/
def State.putTokens (s : State) (l : List Nat) : State :=
  l.foldl (fun (t : State) k => (t.hubPut (t.o (tokObj 0xA)) (hubAddr (t.tokenPlace 0)) (leBytes 2 k)).1.incO (tokObj 0xD) 1) s

/-- A write of ENABLE: a 1 clears the control block under OWNER and starts a text. -/
def State.tokenizerEnable (s : State) (v : Nat) : State × Nat :=
  if v = s.o (tokObj 1) then (s, 0)
  else if v = 0 then ({ (s.setO (tokObj 1) 0) with tokenizer := Tokenizer.reset }, 0)
  else
    let s1 := (s.hubPutRun (s.o (tokObj 0xA)) (s.tokAddr 0) (List.replicate 64 0)).1
    ({ (s1.setO (tokObj 1) 1) with tokenizer := Tokenizer.reset }, 0)

/-- TEXT written whole by the holder of the control token. -/
def State.textWrite (s : State) (d : List Byte) : State × Nat :=
  if d.length = 0 ∨ 65536 < d.length then (s, 0x05)
  else if s.o (tokObj 1) = 0 then (s, 0x06)
  else if !s.tokenizer.jobs.isEmpty then (s.incO (tokObj 0xE) 1, 0x07)
  else
    let t := s.readTokRelease
    if s.o (tokObj 5) < s.unreleased + d.length + 32 then (t.incO (tokObj 0xE) 1, 0x07)
    else
    let s1 := t.incO (tokObj 0xC) d.length
    ({ s1 with tokenizer := { s1.tokenizer with jobs := [(d, false)] } }, 0)

/-- FLUSH = 1: it is processed behind a transfer that is being processed. -/
def State.flushWrite (s : State) (v : Nat) : State × Nat :=
  if s.o (tokObj 1) = 0 then (s, 0x06)
  else if v = 0 then (s, 0)
  else ({ s with tokenizer := { s.tokenizer with jobs := s.tokenizer.jobs ++ [([], true)] } }, 0)

/-- TOKENIZE_COMPLETE: the oldest transfer or FLUSH has been processed: its tokens, then WRITE_SEQ, then the dimension record
(R395, R396). -/
def execTokenizeComplete (s : State) : Host.Outcome State Fault Refusal :=
  .next (
    match s.tokenizer.jobs with
    | [] => s
    | j :: rest =>
      let x := s.tokenizer.feed (s.o (tokObj 3)) j.1
      let y := if j.2 then x.close else x
      let r := tokenize s.vocab j.2 y.held.length y.held
      if s.tokensHeld r.1.length then s else
      let own := s.o (tokObj 0xA)
      let s1 := s.putTokens r.1
      let seq := (s.tokenizer.writeSeq + r.1.length) % 2 ^ 32
      let s2 := (s1.hubPut own (s1.tokAddr 0) (leBytes 4 seq)).1
      let s3 := { s2 with tokenizer := { y with held := r.2, jobs := rest, writeSeq := seq } }
      if 64 ≤ s3.o (tokObj 7) then s3
      else s3.readTokRelease.announceDim own (s3.o (tokObj 7)) s3.unreleased s3.tokRelease seq)

end Sys2Proof.Machine
end

