-- ==== Sys2Proof/Machine/Rebuild.lean ====
section
/-! DEFINITION. The rebuild after the loss of a DRAM channel (R52, R53), and the rewrite of poisoned words that were placed from
pinned images (R573). -/

namespace Sys2Proof.Machine

/-! ### Channel rebuild (R52, R53) -/

/-- The partitions with an active context that does not wait for a restart: its image lies in DRAM, every page of which has
lines in every channel. -/
def State.lossParts (s : State) : List Nat :=
  (List.range 4).filter (fun p => anyBelow 64 (fun n => s.ctxActive n && s.ctxState n != 6 && !s.power.restart.contains n &&
    s.o (ctxObj n 2) == p))

/-- The slots whose image is pinned. -/
def State.pinnedSlotsNow (s : State) : List Nat :=
  ((List.range 32).map (fun i => i + 1)).filter (fun k => s.o (slotObj k 8) == 1 && (Tbl.get none s.pins k).isSome)

/-- The fences of R52 are requested, and no context restarts before its pinned image is good again. -/
def State.beginRebuild (s : State) : State :=
  let s1 := s.lossParts.foldl (fun t p => t.raise ⟨3, p, 0x06, none, true⟩) s
  { s1 with reloads := s1.reloads ++ s1.pinnedSlotsNow.filter (fun k => !s1.reloads.contains k)
            power := { s1.power with rebuilding := true } }

/-- A fence of R52 is still awaited. -/
def State.rebuildWaits (s : State) : Bool :=
  s.reqs.any (fun r => r.code == 3 && r.cause == 0x06) || s.steps.any (fun x => decide (3 ≤ x.req.code) && !x.complete)

/-- A region-table entry of DRAM that an owner opened is valid. -/
def State.ownerHoldsDram (s : State) (own : Nat) : Bool :=
  (List.range 64).any (fun e => bit (s.rgn e 0) 31 && rgnDram (s.rgn e 0) && s.o (ok (0x6100 + e) 4) == 0 && fld (s.rgn e 0) 25 2 == own)

/-- A best-effort context's save area lies in DRAM. -/
def State.savesInDram (s : State) (n : Nat) : Bool :=
  (s.place (s.o (ctxObj n 8))).isDram

/-- Contexts that a rebuild stops, given the slots that stay pinned. -/
def State.rebuildStops (s : State) (pinned : List Nat) : List Nat :=
  (List.range 64).filter (fun n => s.ctxActive n && s.ctxState n != 6 &&
    (!pinned.contains (s.o (ctxObj n 4)) || s.ctxState n == 4 ||
      (s.o (ctxObj n 2) != 0 && (s.ownerHoldsDram (s.o (ctxObj n 1) % 4) || s.savesInDram n))))

/-- The rebuild: every page loses its contents and its holder; the retired pages are derived again; owners' entries close;
slots that are not pinned fail; the contexts of R53 stop; camera frames into DRAM are abandoned. Pinned slots are reloaded
by PINNED_RELOAD. -/
def State.rebuild (s : State) : State :=
  let pinned := s.pinnedSlotsNow
  let stops := s.rebuildStops pinned
  let s0 := s.dropBytes (fun a => decide (a < 0x200000000))
  let s1 := { s0 with
    line := [], holders := s.holders.filter (fun e => decide (4096 ≤ e.1))
    power := { s.power with channelLost := false, lost := [], rebuilding := false
                            restart := s.power.restart.filter (fun n => !stops.contains n) } }
  let sm := s1.derivePages
  let s2 := (List.range 64).foldl (fun t e =>
    if s.o (ok (0x6100 + e) 4) = 0 ∧ bit (s.rgn e 0) 31 = true then
      (t.rgnDrop e).setO (ok (0x6100 + e) 2) 0
    else t) sm
  let s3 := ((List.range 32).map (fun i => i + 1)).foldl (fun t k =>
    if t.o (slotObj k 3) = 0 ∨ t.o (slotObj k 3) = 5 ∨ pinned.contains k = true then t
    else ({ t with loading := Tbl.set [] t.loading k [] }).slotFails k 0x0D) s2
  let s4 := stops.foldl (fun t n => t.ctxStopped n) s3
  let s5 := (List.range 4).foldl (fun t k =>
    if (t.place (t.o (camObj k 0x17))).isDram then t.abandonAll k 3 else t) s4
  s5.settle

/-- CHANNEL_REBUILD (R52): first the partitions are to be fenced; once their fences are complete, the rebuild. -/
def execChannelRebuild (s : State) : Host.Outcome State Fault Refusal :=
  .next (
    if !s.power.channelLost then s
    else if !s.power.rebuilding then s.beginRebuild
    else if s.rebuildWaits then s
    else s.rebuild)

/-! ### Placed words (R573) -/

/-- The directory entry a mapped program came from. -/
def entryOf (img : List Byte) (key lcore : Nat) : Option DirEntry :=
  dirFind img lcore (key / 4 ^ lcore % 4) (nbit key 53) (key / 2 ^ 54)

/-- The bytes that an image placed at granule address `a`, as far as one record of a program covers the whole granule. -/
def placedGranule (img : List Byte) (p : MapProg) (recs : List Placement) (a : Nat) : Option (List Byte) :=
  recs.findSome? (fun r =>
    let b := if r.cm then cmAddr (p.core / 4) (p.cmBase + r.dst) else spadAddr p.core r.dst
    if b ≤ a ∧ a + 64 ≤ b + cdiv r.bytes 64 * 64 then
      let d := ((imgSection img 5).drop (r.src + (a - b))).take (min 64 (r.bytes - (a - b)))
      some d
    else none)

/-- Granule `a` placed by the pinned image of a context: the context, its program and the bytes. -/
def State.placedAt (s : State) (a : Nat) : Option (Nat × MapProg × List Byte) :=
  (List.range 64).findSome? (fun n =>
    match s.mapOf n with
    | none => none
    | some m =>
      if s.o (slotObj m.slot 8) != 1 then none
      else
        let img := s.imageOf m.slot
        m.progs.findSome? (fun p =>
          match entryOf img m.key p.lcore with
          | none => none
          | some e => (placedGranule img p (placementsOf img e) a).map (fun d => (n, p, d))))

/-- The granule lies in a DST range of a publication into context `n` (R573). -/
def State.inPublication (s : State) (n : Nat) (p : MapProg) (a : Nat) : Bool :=
  (List.range 64).any (fun k =>
    (s.adapt k).phase != 0 && (s.adapt k).target == n &&
      (mapEntries (s.d (adaptObj k 0xC))).any (fun e => e.lcore == p.lcore && rangesMeet a 64 (spadAddr p.core e.dst) e.len))

/-- PLACED_WORD_REWRITE: the granule that holds a poisoned word is written from the image, or a partition reset of partition 0
restores it where a publication lies over it. -/
def execPlacedWordRewrite (m : Fin 30) (word : Fin 262144) (s : State) : Host.Outcome State Fault Refusal :=
  .next (
    let w := memBase m / 16 + word
    let a := w * 16 / 64 * 64
    if Tbl.get 0 s.ecc w ≠ 3 ∨ memSize m ≤ word.val * 16 then s
    else match s.placedAt a with
      | none => s
      | some x => if s.inPublication x.1 x.2.1 a then s.raise ⟨3, 0, 0, none, true⟩ else s.sramWrite a x.2.2)

end Sys2Proof.Machine
end

