-- ==== Sys2Proof/Machine/Rights.lean ====
section
/-! DEFINITION. The object dictionary as masters see it: rights classes and owners (R484, R485, R498, R499), features (R496),
what a read of each object returns, the serving unit (R35), and the changes of tokens and sessions (R491 to R495). -/

namespace Sys2Proof.Machine

/-- The rights classes of R485. -/
inductive Rights where
  | pub | neg | ses | sys | owb | sub | svc | sup
  deriving DecidableEq, Repr

/-- The index of a key lies in a range. -/
def inIndex (k a z : Nat) : Bool := decide (a * 256 ≤ k) && decide (k < (z + 1) * 256)

/-- The rights class of an object (R498 and the classes its own row names). -/
def rightsOf (k : Nat) : Rights :=
  let b := k % 256
  if k = 0x108101 ∨ k = 0x108303 then .neg
  else if inIndex k 0x1018 0x1018 || inIndex k 0x1080 0x1083 || inIndex k 0x1F10 0x1F10 || k == 0xB00001 then .pub
  else if inIndex k 0x1F00 0x1F00 then (if b = 2 ∨ b = 3 then .ses else .pub)
  else if k = 0x1F2005 ∨ k = 0x80000B ∨ k = 0x801101 then .sup
  else if inIndex k 0x3060 0x309F then (if b = 7 ∨ b = 8 then .sub else .owb)
  else if inIndex k 0x5200 0x5203 then (if b = 0x16 then .sys else .owb)
  else if inIndex k 0x5300 0x5300 then (if b = 0x0A then .sys else .owb)
  else if inIndex k 0x3000 0x305F || inIndex k 0x5500 0x557F || inIndex k 0x6100 0x613F || inIndex k 0x6200 0x623F ||
    inIndex k 0xB020 0xB023 then .owb
  else if inIndex k 0xB010 0xB013 then .ses
  else if inIndex k 0xB000 0xB000 || inIndex k 0xC000 0xC000 || k == 0x800104 then .svc
  else .sys

/-- The feature bit an index belongs to (the feature table of R496). -/
def featureOf (k : Nat) : Option Nat :=
  if inIndex k 0x4000 0x402F || inIndex k 0x5000 0x514F then some 0
  else if inIndex k 0x5200 0x52FF then some 1
  else if inIndex k 0x5300 0x53FF then some 2
  else if inIndex k 0x5500 0x557F then some 3
  else if inIndex k 0x3060 0x309F then some 4
  else if inIndex k 0x7200 0x72FF then some 5
  else if inIndex k 0x9000 0x91FF then some 6
  else if inIndex k 0xC000 0xC0FF then some 7
  else none

/-- The home of an object for master `m`: the objects of R484 exist once per master, the master's number above bit 24. -/
def homeOf (m k : Nat) : Nat :=
  if k = 0x108101 ∨ k = 0x108201 ∨ k = 0x108303 ∨ k = 0x108304 then k + m * 2 ^ 24 else k

/-- The session owner of a master; 0xFF none (0xB010 + m:01). -/
def State.session (s : State) (m : Nat) : Nat := s.o (ok (0xB010 + m) 1)

/-! ### Owners (R485, R499) -/

/-- The object that holds the owner field of an object of class OWB or SUB. -/
def ownerField (k : Nat) : Nat :=
  let i := k / 256
  if inIndex k 0x3060 0x309F then ctxObj (i - 0x3060) 1
  else if inIndex k 0x5500 0x553F then ctxObj (i - 0x5500) 1
  else if inIndex k 0x5540 0x557F then ctxObj (i - 0x5540) 1
  else if inIndex k 0x5200 0x5203 then ok i 0x16
  else if inIndex k 0x5300 0x5300 then ok i 0x0A
  else ok i 1

/-- The owner of an object of class OWB or SUB. -/
def State.ownerOf (s : State) (k : Nat) : Nat :=
  let v := s.o (ownerField k)
  if inIndex k 0x6100 0x613F then nfld v 25 2
  else if inIndex k 0x6200 0x623F then nfld v 26 2
  else if inIndex k 0xB020 0xB023 then k / 256 - 0xB020
  else v

/-- An owner field that no session has written yet, of a STOPPED context, an EMPTY slot, or a closed region or window: any
session owner may write it. -/
def State.claimable (s : State) (k : Nat) : Bool :=
  let i := k / 256
  k % 256 == 1 && !s.owned.contains k &&
    ((inIndex k 0x3000 0x303F && s.o (ok i 0xB) == 0) || (inIndex k 0x3040 0x305F && s.o (ok i 3) == 0) ||
     (inIndex k 0x6100 0x613F && s.o (ok i 3) == 0) || (inIndex k 0x6200 0x623F && s.o (ok i 2) == 0))

/-- R512: the first key of an owner may also be written by a session of owner 3 in PROVISION. -/
def State.firstKey (s : State) (k : Nat) : Bool :=
  inIndex k 0xB020 0xB023 && k % 256 == 3 && s.o 0xB00001 == 2 && s.o (ok (k / 256) 1) == 0

/-- The session owner of `m` is admitted to a write of class OWB. -/
def State.ownsOwb (s : State) (m k : Nat) : Bool :=
  let own := s.session m
  own != 0xFF && (own == s.ownerOf k || s.claimable k || (own == 3 && s.firstKey k))

/-- R485: 0 where master `m` may read or write an object, else ACCESS, OWNER or TOKEN. -/
def State.admits (s : State) (m k : Nat) (write : Bool) : Nat :=
  let own := s.session m
  let tok := if s.o 0x1F0001 = m + 1 then 0 else 0x09
  let held (b : Bool) : Nat := if 2 ≤ m then 0x03 else if b then tok else 0x0A
  match rightsOf k with
  | .pub => if write then 0x03 else 0
  | .neg => 0
  | .ses =>
    if !write then 0
    else if k = 0x1F0003 ∧ m ≠ 1 then 0x03
    else if inIndex k 0xB010 0xB013 && k / 256 != 0xB010 + m then 0x03 else 0
  | .sys => if write then held (own == 0 || own == 3) else 0
  | .owb => if write then held (s.ownsOwb m k) else if own = 0xFF then 0x0A else 0
  | .sub => if own ≠ 0xFF ∧ (write = false ∨ own = s.ownerOf k) then 0 else 0x0A
  | .svc =>
    if write then held (own == 3 || (inIndex k 0xC000 0xC000 && s.o 0xB00001 == 1 && own != 0xFF))
    else if own = 3 then 0 else 0x0A
  | .sup => if write ∧ m ≠ 1 then 0x03 else 0

/-! ### Reads -/

/-- The number an object of a fixed-size type reads as. -/
def State.valueOf (s : State) (m k : Nat) : Nat :=
  if k = 0x101806 then s.o 0x700008
  else if k = 0x500001 then s.deviceTime
  else if k = 0x730001 then 2 * 2 ^ 40 + Config.serialNumber % 2 ^ 40
  else if k = 0x900005 then 16 * s.obs.ring.length
  else if inIndex k 0x9100 0x91FF then Tbl.get 0 s.obs.counts (2 * (k / 256 - 0x9100) + (k % 256 - 1))
  else s.o (homeOf m k)

/-- The bytes of a DOMAIN or STRING object. -/
def State.domainOf (s : State) (m k : Nat) : List Byte :=
  if k = 0x800103 then s.obs.sticky.flatMap (fun r => logBytes r true) ++ s.obs.log.flatMap (fun r => logBytes r false)
  else if k = 0x800201 then s.classBytes
  else if k = 0x901001 then (List.range 512).flatMap (fun n => leBytes 4 (s.selection n))
  else s.d (homeOf m k)

/-- A read of an object by master `m`: a fresh challenge for its own NONCE (R494); the estimate PACKAGE_MW, which no rule
gives, is a free value. -/
def State.readObj (s : State) (m k : Nat) : State × List Byte :=
  match objRowOf k with
  | none => (s, [])
  | some r =>
    if k = ok (0xB010 + m) 2 then
      let (v, t) := s.fresh
      let n := leBytes 16 v
      ((t.setD k n).setMaster m { t.master m with nonceLive := true }, n)
    else if k = 0x200007 then
      let (v, t) := s.fresh
      (t, leBytes 4 v)
    else if r.ty = .domain ∨ r.ty = .string then (s, s.domainOf m k)
    else (s, leBytes r.ty.size (s.valueOf m k))

/-- The present size of an object in bytes. -/
def State.sizeOf (s : State) (m k : Nat) : Nat :=
  match objRowOf k with
  | some r => if r.ty = .domain ∨ r.ty = .string then (s.domainOf m k).length else r.ty.size
  | none => 0

/-! ### The serving unit (R35, R413, R480) -/

/-- A request for this object is within the minimal dictionary. -/
def minimal (k : Nat) (write : Bool) : Bool :=
  inIndex k 0x1018 0x1018 || inIndex k 0x1080 0x1083 || inIndex k 0x1F00 0x1F00 || inIndex k 0x1F10 0x1F10 ||
    inIndex k 0x1F20 0x1F20 || inIndex k 0x2000 0x20FF || (!write && inIndex k 0x8000 0x82FF) ||
    (write && (k == 0x80000B || k == 0x801101)) || inIndex k 0xA000 0xA1FF

/-- The restricted set of R496. -/
def restricted (k : Nat) : Bool :=
  inIndex k 0x1018 0x1018 || inIndex k 0x1080 0x1083 || inIndex k 0x1F10 0x1F10 || inIndex k 0xB010 0xB013 ||
    inIndex k 0xA000 0xA1FF

/-! ### The control token (R491 to R493) -/

/-- HOLDER changes. -/
def State.setHolder (s : State) (h : Nat) : State :=
  if s.o 0x1F0001 = h then s else (s.setO 0x1F0001 h).setO 0x1F0005 s.now

/-- A write of REQUEST by master `m`; DL2 and DL3 never hold the token (R459). -/
def State.tokenRequest (s : State) (m v : Nat) : State × Nat :=
  if v = 1 then
    if m < 2 ∧ (s.o 0x1F0001 = 0 ∨ s.o 0x1F0001 = m + 1) then (s.setHolder (m + 1), 0) else (s, 0x09)
  else if v = 0 then (if s.o 0x1F0001 = m + 1 then s.setHolder 0 else s, 0)
  else (s, 0x05)

/-- The classes whose writes need the token. -/
def needsToken (k : Nat) : Bool := [Rights.sys, .owb, .svc].contains (rightsOf k)

/-- SEIZE by the management port: the former holder's open write transfers that need the token end, and the next request on
each is answered with TOKEN. -/
def State.seize (s : State) (v : Nat) : State × Nat :=
  if v = 0 ∨ s.o 0x1F0001 = 2 then (s, 0)
  else
    let h := s.o 0x1F0001
    let s1 := if h = 0 then s else s.endTransfers (h - 1) 0x09 (fun x => x.write && needsToken x.key)
    ((s1.setHolder 2).incO 0x1F0004 1, 0)

/-! ### Sessions (R494, R495, R514) -/

/-- The session of a master ends: its open writes of classes OWB, SUB and SVC end with OWNER, and an injection armed in it
stops. -/
def State.endSession (s : State) (m : Nat) : State :=
  if s.session m = 0xFF then s
  else
    let s1 := (s.setO (ok (0xB010 + m) 1) 0xFF).endTransfers m 0x0A
      (fun x => x.write && [Rights.owb, .sub, .svc].contains (rightsOf x.key))
    if s1.inject.any (fun j => j.master == m) then { s1 with inject := none } else s1

/-- The proof of an OPEN by master `m` for owner `w` (R494). -/
def State.sessionProof (s : State) (m w : Nat) (key : List Byte) : List Byte :=
  (hmac key (ascii "SESS" ++ s.d (ok (0xB010 + m) 2) ++ leBytes 1 m ++ leBytes 1 w)).take 16

/-- OPEN: 17 bytes, the owner and the proof. A nonce serves one OPEN; three failures within 60 s lock OPEN for 60 s. -/
def State.sessionOpen (s : State) (m : Nat) (d : List Byte) : State × Nat :=
  let x := s.master m
  let w := natAt d 0 1
  if d.length ≠ 17 then (s, 0x05)
  else
    let good := x.nonceLive && decide (w < 4) &&
      (match s.fuses.key w with
       | some key => d.drop 1 == s.sessionProof m w key
       | none => false)
    if good then
      (((s.setMaster m { x with nonceLive := false }).endSession m).setO (ok (0xB010 + m) 1) w, 0)
    else
      let fs := s.now :: x.fails.filter (fun t => decide (s.now < t + 60000000000))
      let lock := decide (3 ≤ fs.length)
      ((s.incO (ok (0xB010 + m) 5) 1).setMaster m
        { x with nonceLive := false, fails := if lock then [] else fs
                 lockedUntil := if lock then s.now + 60000000000 else x.lockedUntil }, 0x05)

/-- The port of a master has been lost for t_TKL = 1 s: its token, session and negotiation clear (R492, R495, R496). -/
def State.portLost (s : State) (m : Nat) : State :=
  let s1 := s.endSession m
  let s2 := if s1.o 0x1F0001 = m + 1 then s1.setHolder 0 else s1
  (((s2.setD (homeOf m 0x108101) (List.replicate 16 0)).setD (homeOf m 0x108201) (List.replicate 16 0)).setO
    (homeOf m 0x108303) 0).setO (homeOf m 0x108304) 0

/-- A write of HOST_MAJOR completes the negotiation of master `m` (R496): ACTIVE is REQUESTED AND OFFERED. -/
def State.hostMajor (s : State) (m v : Nat) : State :=
  let act := List.zipWith (fun a b => a &&& b) (s.d (homeOf m 0x108101)) (s.d 0x108001)
  ((s.setO (homeOf m 0x108303) v).setD (homeOf m 0x108201) act).setO (homeOf m 0x108304)
    (if v = s.o 0x108301 then 1 else 2)

/-- The feature of an object is active for master `m`. -/
def State.featureOn (s : State) (m k : Nat) : Bool :=
  match featureOf k with
  | some f => nbit (natAt (s.d (homeOf m 0x108201)) 0 1) f
  | none => true

end Sys2Proof.Machine
end

