-- ==== Sys2Proof/Machine/Writes.lean ====
section
/-! DEFINITION. What an accepted write does, object by object: the values each object admits, the condition of each RWS object,
and the action of each object that has one (the object tables of the chapters; R300, R318 to R320, R354, R357, R374, R386,
R504, R513, R514, R618, R620). -/

namespace Sys2Proof.Machine

/-! ### Values (RANGE) -/

/-- `v` lies in a range. -/
def within_ (lo hi v : Nat) : Bool := decide (lo ≤ v) && decide (v ≤ hi)

/-- `v` is a multiple of `n`. -/
def mult (n v : Nat) : Bool := v % n == 0

/-- A byte offset in hub SRAM, a multiple of 64. -/
def hubOffset (v : Nat) : Bool := mult 64 v && decide (v < 0x800000)

/-- A number below `n`, or 0xFF for none. -/
def orNone (n v : Nat) : Bool := decide (v < n) || v == 0xFF

/-- The bits of a finite FP32 number. -/
def finite32 (v : Nat) : Bool := nfld v 23 8 != 0xFF

/-- The code of one of some formats. -/
def oneOf (l : List Nat) (v : Nat) : Bool := l.contains v

/-- Values of the loop objects 0x4000 to 0x402F. -/
def State.loopValue (s : State) (k v : Nat) : Bool :=
  let i := k / 256
  let b := k % 256
  if i = 0x4000 then
    match b with
    | 2 => loopTimesOk v s.deadline s.ingressClose
    | 3 => loopTimesOk s.period v s.ingressClose
    | 4 => loopTimesOk s.period s.deadline v
    | 5 => decide (v ≤ 16)
    | _ => true
  else if i < 0x4010 then
    match b with
    | 1 => hubOffset v
    | 2 => within_ 64 1024 v && mult 64 v
    | 3 => hubOffset v
    | 4 => within_ 64 256 v && mult 64 v
    | _ => true
  else
    match b with
    | 2 => decide (v ≤ 7)
    | 3 => within_ 1 16 v
    | 4 => decide (v < s.o (ok i 3))
    | 5 => decide (v ≤ 31)
    | 6 => within_ 4 1024 v
    | 7 => within_ 4 256 v
    | 8 => decide (v ≤ 1)
    | _ => true

/-- Values of a source, an aligner channel (0x5010 to 0x513F). -/
def State.sensorValue (s : State) (k v : Nat) : Bool :=
  let i := k / 256
  let b := k % 256
  let size (f : Nat) : Nat := if f = 0 then 4 else 2
  if i < 0x5050 then
    match b with
    | 2 => decide (v ≤ 1)
    | 4 => oneOf [0, 1, 7, 8] v
    | 5 => decide (v ≤ 1)
    | 7 => within_ 1 64 v
    | 8 => hubOffset v
    | 9 => mult 4 v
    | _ => true
  else
    match b with
    | 2 => decide (v ≤ 63)
    | 3 => decide (v ≤ 31)
    | 4 => mult (size (s.o (ok i 5))) v
    | 5 => oneOf [0, 1, 2, 7] v && mult (size v) (s.o (ok i 4))
    | 6 => decide (v ≤ 2)
    | 7 => decide (v ≤ 10000000)
    | 8 => within_ 1000 10000000 v
    | 9 => decide (v ≤ 3)
    | 0xA => finite32 v && v % 2 ^ 31 != 0
    | _ => true

/-- Values of a camera stream. -/
def cameraValue (b v : Nat) : Bool :=
  let side (n : Nat) : Bool := within_ 16 4096 n && mult 2 n
  match b with
  | 2 => decide (v ≤ 1)
  | 4 => decide (v ≤ 4)
  | 5 => decide (v ≤ 3)
  | 6 => side (nfld v 0 16) && side (nfld v 16 16)
  | 7 => within_ 1 1000 v
  | 0xA => decide (v < 32)
  | 0xB => within_ 4 8 (nfld v 0 4) && within_ 4 8 (nfld v 4 4)
  | 0x13 => oneOf [1, 2, 9] v
  | 0x14 => finite32 v
  | 0x15 => finite32 v
  | 0x16 => decide (v ≤ 3)
  | 0x17 => mult 4096 v
  | 0x18 => within_ 2 16 v
  | 0x19 => mult 4096 v
  | 0x1A => hubOffset v
  | 0x1B => orNone 64 v
  | _ => true

/-- Values of the tokenizer. -/
def tokenizerValue (b v : Nat) : Bool :=
  match b with
  | 3 => decide (v < 16)
  | 4 => hubOffset v
  | 5 => within_ 64 1048576 v && mult 32 v
  | 6 => hubOffset v
  | 7 => orNone 64 v
  | 0xA => decide (v ≤ 3)
  | _ => true

/-- Values of a context. -/
def contextValue (b v : Nat) : Bool :=
  match b with
  | 1 => decide (v ≤ 3)
  | 2 => decide (v ≤ 3)
  | 3 => decide (v < 2 ^ 24)
  | 4 => decide (v ≤ 32)
  | 5 => decide (v ≤ 7)
  | 6 => within_ 1 255 v
  | 7 => within_ 10000 1000000 v
  | 8 => mult 4096 v
  | 9 => nfld v 11 5 == 0 && nfld v 27 5 == 0
  | 0xA => within_ 1 4 v
  | 0x14 => hubOffset v
  | 0x15 => orNone 64 v
  | _ => true

/-- Values of an adaptation context `n` (R357). -/
def State.adaptValue (s : State) (n b v : Nat) : Bool :=
  match b with
  | 1 => v == 0 || (s.o (ctxObj n 2) != 0 && s.halvesFit n)
  | 4 => hubOffset v
  | 5 => within_ 64 1048576 v && mult 64 v
  | 6 => within_ 1 1024 v
  | 0xB => orNone 64 v
  | 0xD => v == 1
  | _ => true

/-- Values of a partition (R319). -/
def State.partitionValue (s : State) (p b v : Nat) : Bool :=
  match b with
  | 1 => decide (v < 64) && (List.range 4).all (fun q => q == p || s.o (partObj q 1) &&& v == 0)
  | 2 => if p = 0 then v == 1000 else oneOf [500, 750, 1000] v
  | _ => true

/-- Values of the links' and lanes' objects. -/
def linkValue (k v : Nat) : Bool :=
  match k with
  | 0x700001 => within_ 10 3600 v
  | 0x700008 => orNone 4 v
  | 0x710003 => within_ 1 15 v
  | _ =>
    if inIndex k 0x7110 0x7113 then (if k % 256 = 1 then decide (0x711200 ≤ k) else false)
    else if inIndex k 0x7120 0x7121 then k % 256 == 9 && within_ 10 10000 v
    else true

/-- Values of trace, fault injection and the other objects of single registers. -/
def State.plainValue (s : State) (k v : Nat) : Bool :=
  match k with
  | 0x1F2008 => within_ 1 60000 v
  | 0x200005 => within_ 60 105 v
  | 0x600006 => within_ 2 32 v
  | 0x608001 => within_ 1 168 v
  | 0x900002 => decide (v ≤ 1)
  | 0x900003 => decide (v ≤ 2) && !(v == 1 && s.o 0x900009 == 0)
  | 0x900009 => decide (v < 2 ^ 48)
  | 0xC00001 => orNone 9 v
  | 0xC00002 => decide (v ≤ 3)
  | 0xC00003 => decide (v ≤ 1)
  | _ => true

/-- The value lies within the limits of its object. -/
def State.valueOk (s : State) (k v : Nat) : Bool :=
  let i := k / 256
  let b := k % 256
  if inIndex k 0x2100 0x2103 then s.partitionValue (i - 0x2100) b v
  else if inIndex k 0x3000 0x303F then contextValue b v
  else if inIndex k 0x3040 0x305F then (if b = 1 then decide (v ≤ 3) else if b = 9 then v == 1 else true)
  else if inIndex k 0x3060 0x309F then s.adaptValue (i - 0x3060) b v
  else if inIndex k 0x3100 0x3103 then (if b = 1 then decide (v ≤ 64) else if b = 2 then decide (v ≤ 15) else true)
  else if inIndex k 0x4000 0x402F then s.loopValue k v
  else if inIndex k 0x5010 0x513F then s.sensorValue k v
  else if inIndex k 0x5200 0x5203 then cameraValue b v
  else if inIndex k 0x5300 0x5300 then tokenizerValue b v
  else if inIndex k 0x5540 0x557F then decide (v ≤ 2)
  else if inIndex k 0x6200 0x623F && b == 1 then nfld v 28 3 == 0 && nfld v 53 11 == 0
  else if inIndex k 0x7000 0x7121 then linkValue k v
  else s.plainValue k v

/-! ### Conditions of RWS objects (STATE) -/

/-- Every context that satisfies a test is STOPPED. -/
def State.allStopped (s : State) (p : Nat → Bool) : Bool := (List.range 64).all (fun n => !p n || s.ctxState n == 0)

/-- The condition of an RWS object holds. -/
def State.writable (s : State) (k : Nat) : Bool :=
  let i := k / 256
  let off := s.o 0x400001 == 0
  if inIndex k 0x2100 0x2103 then
    s.allStopped (fun n => s.o (ctxObj n 2) == i - 0x2100 || (s.ctxState n != 4 && s.ctxState n != 6 &&
      (s.ctxCores n).any (fun c => (s.coresOf (i - 0x2100)).contains c)))
  else if inIndex k 0x3000 0x303F then s.o (ok i 0xB) == 0 || s.o (ok i 0xB) == 6
  else if inIndex k 0x3040 0x305F then s.o (ok i 0xA) == 0
  else if inIndex k 0x3060 0x309F then s.ctxState (i - 0x3060) == 0
  else if inIndex k 0x3100 0x3103 then s.allStopped (fun n => s.o (ctxObj n 1) == i - 0x3100)
  else if inIndex k 0x4000 0x402F || inIndex k 0x5010 0x514F || inIndex k 0x6000 0x6000 || inIndex k 0x7100 0x7121 then off
  else if inIndex k 0x5200 0x5203 then s.o (ok i 1) == 0
  else if inIndex k 0x5300 0x5300 then s.o 0x530001 == 0
  else if inIndex k 0x5500 0x557F then s.ctxState ((i - 0x5500) % 64) == 0
  else if k = 0x700008 then (List.range 6).all (fun j => [0, 1, 6].contains (s.laneState (6 + j)))
  else true

/-- TRACE objects that are writable only while ENABLE is 0 (R618), and ENABLE of the main host's lane (LANE:03). -/
def State.unlocked (s : State) (k v : Nat) : Bool :=
  if oneOf [0x900002, 0x900003, 0x900004, 0x900009] k then s.o 0x900001 == 0
  else if k = laneObj s.mainLink 3 ∧ v = 0 then s.o 0x400001 == 0
  else true

/-! ### Actions -/

/-- An action on a context, slot or unit: RANGE comes before the STATE of a condition (R487). -/
def onlyWhile (s : State) (cond : Bool) (r : State × Nat) : State × Nat := if cond || r.2 == 0x05 then r else (s, 0x06)

/-- CONTROL of a context (R321 to R335). -/
def State.contextControl (s : State) (n v : Nat) : State × Nat :=
  match v with
  | 1 => s.startRequest n
  | 2 => s.stopRequest n
  | 3 => s.ctxPreempt n
  | 4 => s.resumeRequest n
  | _ => (s, 0x05)

/-- CLUSTERS of a partition: a cluster that leaves it belongs to none and enters P2, one that joins it leaves P2, and FILL_MODE
of every partition follows (R121, R319, R596). -/
def State.setClusters (s : State) (p v : Nat) : State :=
  let gone := (List.range 6).filter (fun k => s.oBit (partObj p 1) k && !nbit v k)
  let s1 := (s.setO (partObj p 1) v).setO (partObj p 3) (if v = 0 then 0 else 1)
  let s2 := gone.foldl (fun t k =>
    let u := t.retainCluster k
    u.setCluster k { u.cluster k with p2 := true }) s1
  let s3 := if p = 0 then
      (s2.coresOf 0).foldl (fun t c => t.setCore c { t.core c with framePeriod := t.period }) s2 else s2
  ((List.range 6).foldl (fun t k => if nbit v k then t.wakeFor k else t) s3.fillAll).settle

/-- FREQ_MHZ of a partition: its PLLs lock anew (R582). -/
def State.setFreq (s : State) (p v : Nat) : State :=
  if s.o (partObj p 2) = v then s
  else ((s.clustersOf p).filter (fun k => !(s.cluster k).p2)).foldl (fun t k => t.setPll k false) (s.setO (partObj p 2) v)

/-- The words of a region or window whose CONFIG is a 64-bit object. -/
def configWords (v : Nat) : W32 × W32 := (BitVec.ofNat 32 v, BitVec.ofNat 32 (v / 2 ^ 32))

/-- REGION OPEN = 1 by a session of owner `own` (R411, R413, the table of 0x6100). -/
def State.regionOpen (s : State) (e own : Nat) : State × Nat :=
  let c := configWords (s.o (ok (0x6100 + e) 1))
  let w0 := put32 (put32 c.1 31 1 1) 30 1 0
  let w1 := put32 c.2 8 2 0
  let mine := if bit (s.rgn e 0) 31 && rgnDram (s.rgn e 0) && fld (s.rgn e 0) 25 2 == own then 2 * (fld (s.rgn e 0) 12 12 + 1) else 0
  let new := if rgnDram w0 then 2 * (fld w0 12 12 + 1) else 0
  if fld w0 25 2 ≠ own then (s, 0x0A)
  else if !s.rgnOk e w0 w1 || decide (s.o (ok (0x3100 + own) 4) < s.coveredMib own - mine + new) then (s, 0x05)
  else ((s.setO (ok (0x6100 + e) 2) 1).rgnChange e w0 w1, 0)

/-- REGION OPEN = 0: the entry closes under R32. -/
def State.regionClose (s : State) (e : Nat) : State :=
  let t := s.setO (ok (0x6100 + e) 2) 0
  if bit (s.rgn e 0) 31 then t.rgnChange e (put32 (s.rgn e 0) 31 1 0) (s.rgn e 1) else t

/-- WINDOW OPEN = 1 (R268). An open window whose CONFIG has changed is closed first; while an admitted write has not landed,
or the window is closing, the request is to be repeated. -/
def State.windowRequest (s : State) (n : Nat) : State × Nat :=
  let c := configWords (s.o (ok (0x6200 + n) 1))
  let w0 := put32 c.1 31 1 0
  let open_ := bit (s.win n 0) 31
  let st := s.windowOpenStatus n w0 c.2
  if open_ && s.win n 0 == put32 w0 31 1 1 && s.win n 1 == c.2 && !s.windowClosing n then (s, 0)
  else if st ≠ 0 then (s, st)
  else if s.windowClosing n || (open_ && s.windowAdmitted n != 0) then (s, 0x07)
  else (((if open_ then s.windowShut n else s).windowOpen n w0 c.2), 0)

/-- RESET_REQUEST: step 1 to 4 and its target (0x8000:0C). -/
def State.resetRequest (s : State) (v : Nat) : State × Nat :=
  let step := nfld v 0 3
  let t := nfld v 8 8
  let good := nfld v 3 5 == 0 &&
    (match step with
     | 1 => decide (t < 64)
     | 2 => decide (t / 8 < 24) && decide (t % 8 < 5)
     | 3 => decide (t < 4)
     | 4 => t == 0
     | _ => false)
  if good then (s.raise ⟨step, t, 0, none, false⟩, 0) else (s, 0x05)

/-- ENABLE of the trace: a 1 empties the ring; from 0, a TIME record begins it (R617, R618). -/
def State.traceEnable (s : State) (v : Nat) : State :=
  if v = 0 then s.setO 0x900001 0
  else
    let t := { (s.setO 0x900001 1) with obs := { s.obs with ring := [], written := 0 } }
    if s.o 0x900001 = 0 then t.traceTime else t

/-- ARM of the fault injection by master `m` (R513, R514). The first after a power cycle is logged with its master and owner. -/
def State.arm (s : State) (m v : Nat) : State :=
  if v = 0 then { s with inject := none }
  else
    let s1 := if s.oBit 0x800002 7 then s
      else (s.setSticky 7).logEv 0x25 0 0 { own := if s.session m = 0xFF then none else some (s.session m), detail := m }
    ({ (s1.setO 0xC00006 0) with inject := some ⟨s1.o 0xC00001, s1.o 0xC00002, s1.o 0xC00003, s1.o 0xC00004, m⟩ }).settle

/-- CLEAR of the error log: every entry goes. -/
def State.clearLog (s : State) : State :=
  ({ s with obs := { s.obs with log := [], sticky := [] } }).setO 0x800101 0

/-- RESTORE_DEFAULTS clears the kept store, but for DEV_NUM_LOCAL (R504). -/
def State.restoreDefaults (s : State) (v : Nat) : State × Nat :=
  if s.o 0x400001 = 1 then (s, 0x06)
  else if v = 0 then (s, 0)
  else
    ({ s with flash := { s.flash with kept := s.flash.kept.filter (fun e => e.1 == 0x700008), keptDom := [] } }, 0)

/-- CYCLE_ACK: the summary and the repair state are in flash before the answer (R563). -/
def State.cycleAck (s : State) (v : Nat) : State × Nat :=
  if s.o 0x80000A = 0 then (s, 0x06) else if v = 0 then (s, 0) else (s.writeSummary 0, 0)

/-- SWITCH: a failover at the next frame start (R457). -/
def State.switchWrite (s : State) (v : Nat) : State × Nat :=
  if s.o 0x710001 = 0 ∨ s.laneUp (1 - s.mainLink) = false then (s, 0x06)
  else if v = 0 then (s, 0)
  else (s.withLoop (fun l => { l with switchDue := true }), 0)

/-! ### A write of a fixed-size object -/

/-- The plain objects: the value is stored; what follows it is brought up to date. -/
def State.storeObj (s : State) (k v : Nat) : State :=
  let t := s.setO k v
  let u := if k = 0x400002 then
      (t.coresOf 0).foldl (fun u c => u.setCore c { u.core c with framePeriod := v }) t
    else if inIndex k 0x3000 0x303F && t.o (ok (k / 256) 0xB) == 6 then t.leaveRefused (k / 256 - 0x3000)
    else t
  let w := if k == ownerField k && (inIndex k 0x3000 0x305F || inIndex k 0x6100 0x613F || inIndex k 0x6200 0x623F) &&
      !u.owned.contains k then { u with owned := k :: u.owned } else u
  w.settle

/-- The objects of contexts, slots and adaptation. -/
def State.writeContext (s : State) (k v : Nat) : State × Nat :=
  let i := k / 256
  let b := k % 256
  if i < 0x3040 then
    if b = 0xA then s.contextControl (i - 0x3000) v
    else if b = 0x15 then s.publishFrom (i - 0x3000) v
    else (s.storeObj k v, 0)
  else if i < 0x3060 then
    if b = 7 then s.pinWrite (i - 0x303F) v
    else if b = 9 then onlyWhile s (s.writable k) (s.unload (i - 0x303F))
    else (s.storeObj k v, 0)
  else if b = 8 then (if v = 0 then (s, 0) else s.closeWrite (i - 0x3060))
  else if b = 0xD then s.publish (i - 0x3060) v
  else (s.storeObj k v, 0)

/-- The objects of the loop's inputs, DRAM, windows and links. -/
def State.writeUnit (s : State) (m k v : Nat) : State × Nat :=
  let i := k / 256
  let b := k % 256
  if k = 0x400001 then s.loopEnable v
  else if inIndex k 0x5200 0x5203 && b == 1 then s.cameraEnable (i - 0x5200) v
  else if k = 0x530001 then s.tokenizerEnable v
  else if k = 0x530009 then s.flushWrite v
  else if inIndex k 0x6100 0x613F then
    if s.o (ok i 4) = 1 then (s, 0x03)
    else if b = 1 then (s.storeObj k v, 0)
    else if v = 1 then s.regionOpen (i - 0x6100) (s.session m) else (s.regionClose (i - 0x6100), 0)
  else if inIndex k 0x6200 0x623F && b == 2 then
    if v = 1 then s.windowRequest (i - 0x6200) else (s.windowClose (i - 0x6200), 0)
  else if k = 0x700008 then (s.setDevNum v, 0)
  else if inIndex k 0x7010 0x701B && b == 3 then (s.laneEnable (i - 0x7010) v, 0)
  else if inIndex k 0x7010 0x701B && b == 4 then (if v = 1 then s.retrain (i - 0x7010) else s, 0)
  else if k = 0x710004 then s.switchWrite v
  else (s.storeObj k v, 0)

/-- The objects of the control plane. -/
def State.writeControl (s : State) (m k v : Nat) (e : Env) : State × Nat :=
  match k with
  | 0x108303 => (s.hostMajor m v, 0)
  | 0x1F0002 => s.tokenRequest m v
  | 0x1F0003 => s.seize v
  | 0x1F2001 => s.targetWrite v
  | 0x1F2005 => s.wakeWrite v
  | 0x1F3002 => s.restoreDefaults v
  | 0x800104 => (if v = 1 then s.clearLog else s, 0)
  | 0x80000B => s.cycleAck v
  | 0x80000C => s.resetRequest v
  | 0x801101 => (if v = 1 then (s.setOBit 0x801100 3 true).settle else s, 0)
  | 0x900001 => (s.traceEnable v, 0)
  | 0xA00006 => s.fwErase 0 v
  | 0xA00106 => s.fwErase 1 v
  | 0xA01007 => s.activate v
  | 0xB00003 => s.lifeRequest v e.fuseFails
  | 0xC00005 => (s.arm m v, 0)
  | _ =>
    if inIndex k 0xB010 0xB013 then (if v = 1 then s.endSession m else s, 0)
    else if inIndex k 0x2100 0x2103 then
      (if k % 256 = 1 then s.setClusters (k / 256 - 0x2100) v else s.setFreq (k / 256 - 0x2100) v, 0)
    else (s.storeObj k v, 0)

/-- A write of a value to an object of a fixed-size type: RANGE, STATE, then its effect. -/
def State.writeFixed (s : State) (m k v : Nat) (e : Env) : State × Nat :=
  let rws := (objRowOf k).any (fun r => r.acc == .rws)
  let act := if inIndex k 0x3000 0x309F then s.writeContext k v
    else if inIndex k 0x4000 0x7FFF then s.writeUnit m k v else s.writeControl m k v e
  if s.valueOk k v = false then (s, 0x05)
  else onlyWhile s (s.unlocked k v && (!rws || s.writable k)) act

/-! ### A write of a DOMAIN object -/

/-- The largest total of a DOMAIN object, where one is stated. -/
def domainMax (k : Nat) : Nat :=
  let b := k % 256
  if k = 0x108101 then 16
  else if inIndex k 0x3000 0x303F then 32
  else if inIndex k 0x3060 0x309F && b == 0xC then 512
  else if inIndex k 0x5140 0x5143 then 4096
  else if inIndex k 0x5200 0x5203 then
    (if b = 0xC then 6600 else if b = 0xE then 4096 else if b = 0xF then 24 else 2050)
  else if k = 0x530008 then 65536
  else if k = 0x901001 then 2048
  else if k = 0xA00005 ∨ k = 0xA00105 then 8 * 2 ^ 20
  else if inIndex k 0xB010 0xB013 then 17
  else if inIndex k 0xB020 0xB023 then 64
  else 2 ^ 32 - 1

/-- The DOMAIN objects of one fixed length. -/
def domainLength (k : Nat) : Option Nat :=
  let b := k % 256
  if inIndex k 0x5200 0x5203 then (if b = 0xE then none else some (domainMax k))
  else if k = 0x108101 || inIndex k 0x3000 0x303F || inIndex k 0x5140 0x5143 || k == 0x901001 then some (domainMax k)
  else none

/-- An event code of a counter with a unit of its row (the event-code table of R620). -/
def counterEntryOk (v : Nat) : Bool :=
  let code := nfld v 0 10
  let unit := nfld v 10 6
  decide (v < 2 ^ 17) &&
    ((decide (code ≤ 0x13) && decide (unit < 24)) || (within_ 0x40 0x43 code && decide (unit < 48)) ||
     (within_ 0x60 0x63 code && decide (unit < 6)) || (within_ 0x80 0x87 code && decide (unit < 31)) ||
     (code == 0xC0 && unit == 0))

/-- COUNTER_SELECT: each entry that changes starts its counter at 0 (R620). -/
def State.counterSelect (s : State) (d : List Byte) : State × Nat :=
  if (List.range 512).all (fun n => counterEntryOk (wordAt d (4 * n))) then
    ((List.range 512).foldl (fun t n =>
      let v := wordAt d (4 * n)
      if t.selection n = v then t
      else
        let dflt := if n < 384 then n % 16 + n / 16 * 2 ^ 10 + 2 ^ 16 else 0
        { t with obs := { t.obs with ctrSel := Tbl.set none t.obs.ctrSel n (if v = dflt then none else some v)
                                     counts := Tbl.set 0 t.obs.counts n 0 } }) s, 0)
  else (s, 0x05)

/-- The contents suit a camera's DEFECTS or an adaptation map. -/
def contentOk (k : Nat) (d : List Byte) : Bool :=
  if inIndex k 0x5200 0x5203 && k % 256 == 0xE then mult 4 d.length
  else if inIndex k 0x3060 0x309F && k % 256 == 0xC then mapOk d
  else true

/-- A DOMAIN object written whole, with its one change. -/
def State.writeDomain (s : State) (m k : Nat) (d : List Byte) (e : Env) : State × Nat :=
  let i := k / 256
  let b := k % 256
  if domainMax k < d.length || (domainLength k).any (fun n => n != d.length) || !contentOk k d then (s, 0x05)
  else if inIndex k 0x3060 0x309F && b == 7 then s.submit (i - 0x3060) d
  else if k = 0x530002 then s.vocabWrite d e.trieFits
  else if k = 0x530008 then s.textWrite d
  else if k = 0x901001 then s.counterSelect d
  else if inIndex k 0xB010 0xB013 then s.sessionOpen m d
  else if inIndex k 0xB020 0xB023 then s.provision (i - 0xB020) d (e.fuseFails.val != 0)
  else if (objRowOf k).any (fun r => r.acc == .rws) && !s.writable k then (s, 0x06)
  else
    let t := s.setD (homeOf m k) d
    (if inIndex k 0x3000 0x303F && t.o (ok i 0xB) == 6 then (t.leaveRefused (i - 0x3000)).settle else t, 0)

/-! ### The kept store (R500) -/

/-- A write to a kept sub-index: it is appended to the store before its OK; a failed flash write answers BUSY_RETRY and
changes nothing but STORE_ERRORS; with no sector left the write is not kept. -/
def State.keep (s : State) (k : Nat) (fails : Bool) (put : Flash → Flash) (r : State × Nat) : State × Nat :=
  if r.2 ≠ 0 ∨ isKept k = false then r
  else if s.o 0x1F3003 = 0 then (r.1.setSticky 6, 0)
  else if fails then (s.incO 0x1F3004 1, 0x07)
  else (({ r.1 with flash := put r.1.flash }).incO 0x1F3001 1, 0)

/-- A fixed-size object written, and kept where R498 says so. -/
def State.putFixed (s : State) (m k v : Nat) (e : Env) : State × Nat :=
  s.keep k e.flashFails (fun f => { f with kept := Tbl.set none f.kept k (some v) }) (s.writeFixed m k v e)

/-- A DOMAIN object written, and kept where R498 says so. -/
def State.putDomain (s : State) (m k : Nat) (d : List Byte) (e : Env) : State × Nat :=
  s.keep k e.flashFails (fun f => { f with keptDom := Tbl.set none f.keptDom k (some d) }) (s.writeDomain m k d e)

end Sys2Proof.Machine
end

