-- ==== Sys2Proof/Machine/Request.lean ====
section
/-! DEFINITION. Dictionary requests: their checks in order, segmented transfers and the response (R486 to R490, R500, R551). -/

namespace Sys2Proof.Machine

/-- What a request is answered with: status, RETRY_MS, the object's size, and data. -/
structure Answer where
  status : Nat
  retry : Nat
  size : Nat
  data : List Byte
  deriving DecidableEq, Repr

/-- The key of the object a message names. -/
def keyOf (x : DictMsg) : Nat := ok x.index.toNat x.sub.toNat

/-- The largest number of data bytes in a message of master `m`. -/
def maxData (m : Nat) : Nat := if m = 1 then 1476 else 240

/-- The code of a type (R481). -/
def typeCode : ObjTy → Nat
  | .bool => 1 | .u8 => 2 | .u16 => 3 | .u32 => 4 | .u64 => 5 | .i8 => 6 | .i16 => 7 | .i32 => 8 | .f32 => 0xA
  | .string => 0xB | .domain => 0xC

/-- The index has objects. -/
def hasIndex (i : Nat) : Bool := objRows.any (fun r => decide (r.base ≤ i) && decide (i < r.base + r.cnt))

/-- The transfer of master `m` with number `tid`. -/
def State.transfer (s : State) (m tid : Nat) : Option Transfer := Tbl.get none s.transfers (m * 256 + tid)

/-- Open transfers of a master. -/
def State.openOf (s : State) (m : Nat) : Nat := (s.transfers.filter (fun e => e.1 / 256 == m && e.2.isSome)).length

/-! ### Check 1: BUSY_RETRY, and STATE in MAINT and P4 (R35, R494, R502, R523, R551, R613) -/

/-- Whole ms until a device time, at least 1. -/
def msUntil (now t : Nat) : Nat := max 1 (cdiv (t - now) 1000000)

/-- The reset step in progress whose domain an object describes: a context or a partition (R551). -/
def State.stepAt (s : State) (k : Nat) : Option ResetStep :=
  s.steps.find? (fun x =>
    (x.req.code == 1 || x.req.code == 3) &&
      ((inIndex k 0x3000 0x303F && (s.resetCtxs x.req.code x.req.target).contains (k / 256 - 0x3000)) ||
       (x.req.code == 3 && k / 256 == 0x2100 + x.req.target)))

/-- The request would open a fifth transfer of its master. -/
def State.fifth (s : State) (m op : Nat) (x : DictMsg) : Bool :=
  let opens := x.typ == 0xC && x.offset == 0 &&
    ((op == 2 && !(x.last && x.total.toNat == x.data.length)) || (op == 1 && decide (maxData m < s.sizeOf m (keyOf x))))
  opens && (s.transfer m x.tid.toNat).isNone && decide (4 ≤ s.openOf m)

/-- A RETRY_MS that no rule fixes is a free value. -/
def State.freeRetry (s : State) : State × Option Answer :=
  let (v, t) := s.fresh
  (t, some ⟨0x07, v % 2 ^ 16, 0, []⟩)

/-- The answer of the first check, if it fails. -/
def State.busyCheck (s : State) (m op : Nat) (x : DictMsg) : State × Option Answer :=
  let k := keyOf x
  let wr := op == 2
  let out := !minimal k wr
  if out && (s.boot.maint || s.o 0x1F2002 == 4) then (s, some ⟨0x06, 0, 0, []⟩)
  else if out && !s.boot.up then
    match s.steps.find? (fun y => y.req.code == 4) with
    | some y => (s, some ⟨0x07, msUntil s.now (y.begun + 350000000), 0, []⟩)
    | none => if s.o 0x1F1001 = 0 then (s, some ⟨0x07, msUntil s.now (s.o 0x1F1003 + 120000000), 0, []⟩) else s.freeRetry
  else
    match s.stepAt k with
    | some y => (s, some ⟨0x07, msUntil s.now (y.begun + s.stepMax y), 0, []⟩)
    | none =>
      if (s.frozen && wr && needsToken k) || s.fifth m op x then s.freeRetry
      else if wr && k == ok (0xB010 + m) 3 && decide (s.now < (s.master m).lockedUntil) then
        (s, some ⟨0x07, msUntil s.now (s.master m).lockedUntil, 0, []⟩)
      else (s, none)

/-! ### The other checks (R481, R482, R485, R488, R496) -/

/-- Negotiation, index, feature, sub-index: the status of the first that fails, or 0. -/
def State.objectCheck (s : State) (m : Nat) (k : Nat) : Nat :=
  if s.o (homeOf m 0x108304) ≠ 1 ∧ restricted k = false then 0x06
  else if !hasIndex (k / 256) || !s.featureOn m k then 0x01
  else if (objRowOf k).isNone then 0x02 else 0

/-- ACCESS, OWNER, TOKEN and TYPE of a read or write of an object, or 0. -/
def State.rightsCheck (s : State) (m op : Nat) (r : ObjRow) (x : DictMsg) : Nat :=
  let wr := op == 2
  if (wr && (r.acc == .ro || r.acc == .const)) || (!wr && r.acc == .wo) then 0x03
  else
    let a := s.admits m (keyOf x) wr
    if a ≠ 0 then a
    else if x.typ.val ≠ typeCode r.ty ∨ (wr && r.ty.size != 0 && x.data.length != r.ty.size) = true then 0x04 else 0

/-- The header and length of a message are such as R485 and R488 allow for its object. -/
def headerOk (m op : Nat) (r : ObjRow) (x : DictMsg) : Bool :=
  x.rsv == 0 && x.dlen.toNat == x.data.length && decide (x.data.length ≤ maxData m) && (op == 2 || x.data.isEmpty) &&
    (r.ty == .domain || x.offset == 0) && ((r.ty == .domain && op == 2) || x.total == 0)

/-! ### Segments (R354, R488, R489, R509) -/

/-- The state with a transfer set or ended without consequence. -/
def State.setTransfer (s : State) (m tid : Nat) (x : Option Transfer) : State :=
  { s with transfers := Tbl.set none s.transfers (m * 256 + tid) x }

/-- OFFSET 0 reuses a transfer number: an open transfer of it ends, and no abort is reported any more. -/
def State.reuse (s : State) (m tid : Nat) : State :=
  let t := s.endTransfer (m * 256 + tid)
  { t with aborted := Tbl.set 0 t.aborted (m * 256 + tid) 0 }

/-- The code-object slot whose IMAGE an object is. -/
def imageSlot (k : Nat) : Option Nat := if inIndex k 0x3040 0x305F && k % 256 == 2 then some (k / 256 - 0x303F) else none

/-- The firmware slot whose IMAGE an object is. -/
def fwSlot (k : Nat) : Option Nat := if k = 0xA00005 then some 0 else if k = 0xA00105 then some 1 else none

/-- A segment of an object that streams: an image of a slot that is unused and not pinned, or of a firmware slot that is not
booted. -/
def State.streamSegment (s : State) (k off : Nat) (last : Bool) (d all : List Byte) : Option (State × Nat) :=
  match imageSlot k, fwSlot k with
  | some j, _ =>
    some (if s.writable k && s.o (slotObj j 8) == 0 && s.o (slotObj j 3) != 4 then (s.imageSegment j (off == 0) last d, 0)
          else (s, 0x06))
  | none, some j =>
    some (if s.o 0xA01001 = j then (s, 0x06) else (s.fwSegment j (off == 0) (if last then some all else none), 0))
  | none, none => none

/-- The object may be written in its present state; the object changes at the last segment only. -/
def State.segmentState (s : State) (k : Nat) : Bool := !(objRowOf k).any (fun r => r.acc == .rws) || s.writable k

/-- A WRITE of a DOMAIN object. -/
def State.writeSegment (s : State) (m : Nat) (x : DictMsg) (e : Env) : State × Nat :=
  let k := keyOf x
  let tid := x.tid.toNat
  let off := x.offset.toNat
  let tot := x.total.toNat
  let s0 := if off = 0 then s.reuse m tid else s
  let cur := if off = 0 then some (Transfer.mk true k tot [] s.now) else s0.transfer m tid
  match cur with
  | none => (s0, 0x05)
  | some y =>
    let fin := off + x.data.length
    if !y.write || y.key != k || off != y.data.length || tot != y.total || decide (tot < fin) || (x.last && fin != tot) ||
        decide (domainMax k < tot) then (s0.endTransfer (m * 256 + tid), 0x05)
    else
      let all := y.data ++ x.data
      let next : Option Transfer := if x.last then none else some { y with data := all, last := s.now }
      match s0.streamSegment k off x.last x.data all with
      | some r => if r.2 = 0 then (r.1.setTransfer m tid next, 0) else r
      | none =>
        if !x.last then (if s0.segmentState k then (s0.setTransfer m tid next, 0) else (s0, 0x06))
        else
          let r := s0.putDomain m k all e
          if r.2 = 0 then (r.1.setTransfer m tid none, 0) else r

/-- A READ of a DOMAIN object: OFFSET 0 takes a snapshot, which ends when a read reaches its size. -/
def State.readSegment (s : State) (m : Nat) (x : DictMsg) : State × Answer :=
  let k := keyOf x
  let tid := x.tid.toNat
  let off := x.offset.toNat
  let deliver (t : State) (snap : List Byte) : State × Answer :=
    let d := (snap.drop off).take (maxData m)
    let fin := off + d.length
    (t.setTransfer m tid (if snap.length ≤ fin then none else some (Transfer.mk false k fin snap s.now)),
     ⟨0, 0, snap.length, d⟩)
  if off = 0 then
    let r := (s.reuse m tid).readObj m k
    deliver r.1 r.2
  else
    match s.transfer m tid with
    | none => (s, ⟨0x05, 0, s.sizeOf m k, []⟩)
    | some y =>
      if y.write || y.key != k || y.total != off then (s.endTransfer (m * 256 + tid), ⟨0x05, 0, s.sizeOf m k, []⟩)
      else deliver s y.data

/-! ### A request (R487) -/

/-- A read or write whose object, rights and type have been checked. -/
def State.execute (s : State) (m op : Nat) (r : ObjRow) (x : DictMsg) (e : Env) : State × Answer :=
  let k := keyOf x
  let tid := x.tid.toNat
  let ab := Tbl.get 0 s.aborted (m * 256 + tid)
  let refuse (st : Nat) : State × Answer := (s, ⟨st, 0, s.sizeOf m k, []⟩)
  let wrote (q : State × Nat) : State × Answer :=
    if q.2 = 0x07 then
      let f := q.1.fresh
      (f.2, ⟨0x07, f.1 % 2 ^ 16, s.sizeOf m k, []⟩)
    else (q.1, ⟨q.2, 0, q.1.sizeOf m k, []⟩)
  if x.offset ≠ 0 ∧ ab ≠ 0 then ({ s with aborted := Tbl.set 0 s.aborted (m * 256 + tid) 0 }, ⟨ab, 0, s.sizeOf m k, []⟩)
  else if !headerOk m op r x then refuse 0x05
  else if r.ty = .domain then (if op = 2 then wrote (s.writeSegment m x e) else s.readSegment m x)
  else if op = 2 then
    let v := leNat x.data
    if r.ty = .bool ∧ 1 < v then refuse 0x05 else wrote (s.putFixed m k v e)
  else
    let q := s.readObj m k
    (q.1, ⟨0, 0, q.2.length, q.2⟩)

/-- The answer to a request of master `m` with operation `op`: 1 READ, 2 WRITE, 3 ABORT. -/
def State.request (s : State) (m op : Nat) (x : DictMsg) (e : Env) : State × Answer :=
  let k := keyOf x
  match s.busyCheck m op x with
  | (t, some a) => (t, a)
  | (_, none) =>
    let c := s.objectCheck m k
    let refuse (st : Nat) : State × Answer := (s, ⟨st, 0, s.sizeOf m k, []⟩)
    if c ≠ 0 then refuse c
    else if op = 3 then
      if x.data.isEmpty then (s.reuse m x.tid.toNat, ⟨0, 0, s.sizeOf m k, []⟩) else refuse 0x05
    else if op ≠ 1 ∧ op ≠ 2 then refuse 0x05
    else
      match objRowOf k with
      | none => refuse 0x02
      | some r =>
        let a := s.rightsCheck m op r x
        if a ≠ 0 then refuse a else s.execute m op r x e

/-! ### The response (R485, R486) -/

/-- The bytes of a response. -/
def responseBytes (op : Nat) (x : DictMsg) (attn : Bool) (a : Answer) : List Byte :=
  leBytes 4 ((op % 128 + 128) + x.typ.val * 2 ^ 8 + b01 x.last * 2 ^ 12 + x.rsv.val * 2 ^ 13 + x.tid.toNat * 2 ^ 16 +
      x.sub.toNat * 2 ^ 24) ++
    leBytes 4 (x.index.toNat + a.data.length * 2 ^ 16) ++ leBytes 4 a.size ++
    leBytes 4 (a.status + b01 attn * 2 ^ 8 + a.retry * 2 ^ 16) ++ a.data

/-- Some unit serves master `m`: the always-on reset is released, and the PMC, where it serves, does not restart (R480,
R518). -/
def State.serves (s : State) (m : Nat) : Bool := s.power.stage != 0 && !((m == 1 || !s.boot.up) && s.fw.pmcDown)

/-- A request is executed and its one response formed, which carries the attention flag and clears it. -/
def State.respond (s : State) (m op : Nat) (x : DictMsg) (e : Env) : State × List Byte :=
  let r := s.request m op x e
  let d := responseBytes op x (r.1.attn.contains m) r.2
  ({ r.1 with attn := r.1.attn.filter (fun j => j != m), responses := Tbl.set [] r.1.responses m d }, d)

/-- A request that has arrived on drive lane `lane`: its response goes out on channel A of the lane, while the lane is UP. -/
def State.serveOn (s : State) (lane m op : Nat) (x : DictMsg) (e : Env) : State :=
  if s.serves m then
    let r := s.respond m op x e
    if r.1.laneUp lane then r.1.sendRel lane 0 ⟨0x10, 0, 0, r.2, 0, 0, 0⟩ else r.1
  else s

/-- A request of a master, on the link that is its own: the main host's, the management port, DL2 or DL3. -/
def State.serve (s : State) (m op : Nat) (x : DictMsg) (e : Env) : State :=
  if m = 1 then (if s.serves 1 then (s.respond 1 op x e).1 else s)
  else s.serveOn (if m = 0 then s.mainLink else m) m op x e

/-! ### Messages of the rows that name one write -/

/-- Nothing fails. -/
def Env.clear : Env := ⟨false, 0, true⟩

/-- A message about a key. -/
def messageFor (tid : BitVec 8) (k typ : Nat) (last : Bool) (off tot : BitVec 32) (d : List Byte) : DictMsg :=
  { typ := Fin.ofNat 16 typ, last := last, rsv := 0, tid := tid, sub := BitVec.ofNat 8 (k % 256)
    index := BitVec.ofNat 16 (k / 256), dlen := BitVec.ofNat 16 d.length, offset := off, total := tot, data := d }

/-- The message that writes a value to an object of a fixed-size type. -/
def valueMessage (tid : BitVec 8) (k v : Nat) : DictMsg :=
  match objRowOf k with
  | some r => messageFor tid k (typeCode r.ty) false 0 0 (leBytes r.ty.size v)
  | none => messageFor tid k 0 false 0 0 []

/-- The message that carries a segment of a DOMAIN object. -/
def segmentMessage (k : Nat) (g : Segment) : DictMsg := messageFor g.tid k 0xC g.last g.offset g.total g.data

/-- A write of a value by a master. -/
def State.hostWrite (s : State) (m : Nat) (tid : BitVec 8) (k v : Nat) (e : Env := Env.clear) : State :=
  s.serve m 2 (valueMessage tid k v) e

/-- A write of a segment by a master. -/
def State.hostSegment (s : State) (m k : Nat) (g : Segment) (e : Env := Env.clear) : State :=
  s.serve m 2 (segmentMessage k g) e

end Sys2Proof.Machine
end

