-- ==== Sys2Proof/Machine/Dictionary.lean ====
section
/-! DEFINITION. The rows that are dictionary requests, each a message of a master that goes through the checks of R487, and the
rows that end transfers and sessions in time. A row that names one object is a write of that object; `m` is the master: 0
main host, 1 management port, 2 DL2, 3 DL3. -/

namespace Sys2Proof.Machine

/-! ### Requests in general -/

/-- DICT_READ: a READ is checked and answered. -/
def execDictRead (m : Fin 4) (x : DictMsg) (s : State) : Host.Outcome State Fault Refusal := .next (s.serve m 1 x Env.clear)

/-- DICT_WRITE: a WRITE is checked and applied. -/
def execDictWrite (m : Fin 4) (x : DictMsg) (e : Env) (s : State) : Host.Outcome State Fault Refusal :=
  .next (s.serve m 2 x e)

/-- DICT_ABORT: the transfer of the message's TID ends with no change (R489). -/
def execDictAbort (m : Fin 4) (x : DictMsg) (s : State) : Host.Outcome State Fault Refusal := .next (s.serve m 3 x Env.clear)

/-- SEGMENT_TIMEOUT: an open transfer has received no segment for t_SEGT = 1 s (R489). -/
def execSegmentTimeout (m : Fin 4) (tid : BitVec 8) (s : State) : Host.Outcome State Fault Refusal :=
  .next (
    match s.transfer m tid.toNat with
    | some x => if x.last + 1000000000 ≤ s.now then s.endTransfer (m * 256 + tid.toNat) else s
    | none => s)

/-! ### The token, sessions and negotiation -/

/-- TOKEN_ACQUIRE: REQUEST = 1 (R491). -/
def execTokenAcquire (m : Fin 4) (tid : BitVec 8) (s : State) : Host.Outcome State Fault Refusal :=
  .next (s.hostWrite m tid 0x1F0002 1)

/-- TOKEN_RELEASE: REQUEST = 0 (R491). -/
def execTokenRelease (m : Fin 4) (tid : BitVec 8) (s : State) : Host.Outcome State Fault Refusal :=
  .next (s.hostWrite m tid 0x1F0002 0)

/-- SEIZE: SEIZE = 1 (R491, R493). -/
def execSeize (m : Fin 4) (tid : BitVec 8) (s : State) : Host.Outcome State Fault Refusal :=
  .next (s.hostWrite m tid 0x1F0003 1)

/-- PORT_LOSS: a master's port has been lost for t_TKL = 1 s (R492, R495, R496). -/
def execPortLoss (m : Fin 4) (s : State) : Host.Outcome State Fault Refusal :=
  .next (
    let t := (s.master m).lostAt
    if t ≠ 0 ∧ t + 1000000000 ≤ s.now + 1 then s.portLost m else s)

/-- NONCE: a read of the master's own NONCE (R494). -/
def execNonce (m : Fin 4) (tid : BitVec 8) (s : State) : Host.Outcome State Fault Refusal :=
  .next (s.serve m 1 (messageFor tid (ok (0xB010 + m) 2) 0xC false 0 0 []) Env.clear)

/-- SESSION_OPEN: OPEN of the master's session object (R494). -/
def execSessionOpen (m : Fin 4) (g : Segment) (s : State) : Host.Outcome State Fault Refusal :=
  .next (s.hostSegment m (ok (0xB010 + m) 3) g)

/-- SESSION_CLOSE: CLOSE = 1 (R495). -/
def execSessionClose (m : Fin 4) (tid : BitVec 8) (s : State) : Host.Outcome State Fault Refusal :=
  .next (s.hostWrite m tid (ok (0xB010 + m) 4) 1)

/-- HOST_MAJOR: the write that completes negotiation (R496). -/
def execHostMajor (m : Fin 4) (tid : BitVec 8) (v : BitVec 16) (s : State) : Host.Outcome State Fault Refusal :=
  .next (s.hostWrite m tid 0x108303 v.toNat)

/-! ### The store, the log, observation, injection, the supervisor -/

/-- RESTORE_DEFAULTS (R504). -/
def execRestoreDefaults (m : Fin 4) (tid : BitVec 8) (s : State) : Host.Outcome State Fault Refusal :=
  .next (s.hostWrite m tid 0x1F3002 1)

/-- ERROR_LOG_CLEAR (R507, R568). -/
def execErrorLogClear (m : Fin 4) (tid : BitVec 8) (s : State) : Host.Outcome State Fault Refusal :=
  .next (s.hostWrite m tid 0x800104 1)

/-- COUNTER_SELECT (R620). -/
def execCounterSelect (m : Fin 4) (g : Segment) (s : State) : Host.Outcome State Fault Refusal :=
  .next (s.hostSegment m 0x901001 g)

/-- TRACE_ENABLE: ENABLE = 1 (R617, R618). -/
def execTraceEnable (m : Fin 4) (tid : BitVec 8) (s : State) : Host.Outcome State Fault Refusal :=
  .next (s.hostWrite m tid 0x900001 1)

/-- FAULT_INJECT_ARM: ARM = 1 (R513, R514). -/
def execFaultInjectArm (m : Fin 4) (tid : BitVec 8) (s : State) : Host.Outcome State Fault Refusal :=
  .next (s.hostWrite m tid 0xC00005 1)

/-- FAULT_INJECT_STOP: ARM = 0 (R514). -/
def execFaultInjectStop (m : Fin 4) (tid : BitVec 8) (s : State) : Host.Outcome State Fault Refusal :=
  .next (s.hostWrite m tid 0xC00005 0)

/-- SUPERVISOR_PRESENT: the supervisor declares itself (R55, R56). -/
def execSupervisorPresent (m : Fin 4) (tid : BitVec 8) (s : State) : Host.Outcome State Fault Refusal :=
  .next (s.hostWrite m tid 0x801101 1)

/-- CYCLE_ACK (R563). -/
def execCycleAck (m : Fin 4) (tid : BitVec 8) (s : State) : Host.Outcome State Fault Refusal :=
  .next (s.hostWrite m tid 0x80000B 1)

/-! ### Contexts and code objects -/

/-- CONTEXT_START: CONTROL = 1 (R322). -/
def execContextStart (m : Fin 4) (tid : BitVec 8) (n : Fin 64) (s : State) : Host.Outcome State Fault Refusal :=
  .next (s.hostWrite m tid (ctxObj n 0xA) 1)

/-- CONTEXT_STOP: CONTROL = 2 (R321). -/
def execContextStop (m : Fin 4) (tid : BitVec 8) (n : Fin 64) (s : State) : Host.Outcome State Fault Refusal :=
  .next (s.hostWrite m tid (ctxObj n 0xA) 2)

/-- CONTEXT_PREEMPT: CONTROL = 3 (R330). -/
def execContextPreempt (m : Fin 4) (tid : BitVec 8) (n : Fin 64) (s : State) : Host.Outcome State Fault Refusal :=
  .next (s.hostWrite m tid (ctxObj n 0xA) 3)

/-- CONTEXT_RESUME: CONTROL = 4 (R334). -/
def execContextResume (m : Fin 4) (tid : BitVec 8) (n : Fin 64) (s : State) : Host.Outcome State Fault Refusal :=
  .next (s.hostWrite m tid (ctxObj n 0xA) 4)

/-- CODE_OBJECT_IMAGE: a segment of IMAGE of slot k + 1 (R354). -/
def execCodeObjectImage (m : Fin 4) (k : Fin 32) (g : Segment) (s : State) : Host.Outcome State Fault Refusal :=
  .next (s.hostSegment m (slotObj (k + 1) 2) g)

/-- PIN of slot k + 1 (R355). -/
def execPin (m : Fin 4) (tid : BitVec 8) (k : Fin 32) (v : Bool) (e : Env) (s : State) : Host.Outcome State Fault Refusal :=
  .next (s.hostWrite m tid (slotObj (k + 1) 7) (b01 v) e)

/-- UNLOAD of slot k + 1 (R354). -/
def execUnload (m : Fin 4) (tid : BitVec 8) (k : Fin 32) (s : State) : Host.Outcome State Fault Refusal :=
  .next (s.hostWrite m tid (slotObj (k + 1) 9) 1)

/-! ### Adaptation -/

/-- SUBMIT: a segment of a submission record of context n (R360, R361). -/
def execSubmit (m : Fin 4) (n : Fin 64) (g : Segment) (s : State) : Host.Outcome State Fault Refusal :=
  .next (s.hostSegment m (adaptObj n 7) g)

/-- BATCH_CLOSE: CLOSE is written by a master, if one is named; then the oldest batch that awaits it closes once its last row
is written (R362, R382). -/
def execBatchClose (n : Fin 64) (by_ : Option (Fin 4)) (tid : BitVec 8) (s : State) : Host.Outcome State Fault Refusal :=
  .next ((match by_ with
    | some m => s.hostWrite m tid (adaptObj n 8) 1
    | none => s).closeBatch n)

/-- PUBLISH = 1 of context n (R365). -/
def execPublish (m : Fin 4) (tid : BitVec 8) (n : Fin 64) (s : State) : Host.Outcome State Fault Refusal :=
  .next (s.hostWrite m tid (adaptObj n 0xD) 1)

/-- PUBLISH_FROM of context n (R366). -/
def execPublishFrom (m : Fin 4) (tid : BitVec 8) (n : Fin 64) (v : BitVec 8) (e : Env) (s : State) :
    Host.Outcome State Fault Refusal :=
  .next (s.hostWrite m tid (ctxObj n 0x15) v.toNat e)

/-! ### Inputs -/

/-- CAMERA_ENABLE of stream k (R386, R392). -/
def execCameraEnable (m : Fin 4) (tid : BitVec 8) (k : Fin 4) (v : Bool) (s : State) : Host.Outcome State Fault Refusal :=
  .next (s.hostWrite m tid (camObj k 1) (b01 v))

/-- TEXT: a segment of program text (R396). -/
def execText (m : Fin 4) (g : Segment) (s : State) : Host.Outcome State Fault Refusal := .next (s.hostSegment m (tokObj 8) g)

/-- FLUSH = 1 (R395). -/
def execFlush (m : Fin 4) (tid : BitVec 8) (s : State) : Host.Outcome State Fault Refusal :=
  .next (s.hostWrite m tid (tokObj 9) 1)

/-- VOCAB: a segment of a vocabulary (R393). -/
def execVocab (m : Fin 4) (g : Segment) (e : Env) (s : State) : Host.Outcome State Fault Refusal :=
  .next (s.hostSegment m (tokObj 2) g e)

/-! ### Windows and regions -/

/-- WINDOW_OPEN: OPEN = 1 of window n (R268). -/
def execWindowOpen (m : Fin 4) (tid : BitVec 8) (n : Fin 64) (s : State) : Host.Outcome State Fault Refusal :=
  .next (s.hostWrite m tid (ok (0x6200 + n) 2) 1)

/-- WINDOW_CLOSE: OPEN = 0 of window n (R32, R268). -/
def execWindowClose (m : Fin 4) (tid : BitVec 8) (n : Fin 64) (s : State) : Host.Outcome State Fault Refusal :=
  .next (s.hostWrite m tid (ok (0x6200 + n) 2) 0)

/-- REGION_OPEN: OPEN = 1 of entry n (R411, R413). -/
def execRegionOpen (m : Fin 4) (tid : BitVec 8) (n : Fin 64) (s : State) : Host.Outcome State Fault Refusal :=
  .next (s.hostWrite m tid (ok (0x6100 + n) 2) 1)

/-- REGION_CLOSE: OPEN = 0 of entry n (R32). -/
def execRegionClose (m : Fin 4) (tid : BitVec 8) (n : Fin 64) (s : State) : Host.Outcome State Fault Refusal :=
  .next (s.hostWrite m tid (ok (0x6100 + n) 2) 0)

/-! ### Firmware, fuses and power -/

/-- ACTIVATE_HANDOFF: ACTIVATE = 1 (R510, R522). -/
def execActivateHandoff (m : Fin 4) (tid : BitVec 8) (s : State) : Host.Outcome State Fault Refusal :=
  .next (s.hostWrite m tid 0xA01007 1)

/-- ACTIVATE_SC_IMAGE: ACTIVATE = 2 (R510, R529). -/
def execActivateScImage (m : Fin 4) (tid : BitVec 8) (s : State) : Host.Outcome State Fault Refusal :=
  .next (s.hostWrite m tid 0xA01007 2)

/-- FW_IMAGE: a segment of IMAGE of a firmware slot (R509). -/
def execFwImage (m : Fin 4) (k : Fin 2) (g : Segment) (s : State) : Host.Outcome State Fault Refusal :=
  .next (s.hostSegment m (ok (0xA000 + k) 5) g)

/-- FW_ERASE: ERASE = 1 of a firmware slot (R509). -/
def execFwErase (m : Fin 4) (tid : BitVec 8) (k : Fin 2) (s : State) : Host.Outcome State Fault Refusal :=
  .next (s.hostWrite m tid (ok (0xA000 + k) 6) 1)

/-- LIFE_CYCLE_REQUEST: REQUEST of a state (R511, R543). -/
def execLifeCycleRequest (m : Fin 4) (tid : BitVec 8) (v : BitVec 8) (e : Env) (s : State) :
    Host.Outcome State Fault Refusal :=
  .next (s.hostWrite m tid 0xB00003 v.toNat e)

/-- OWNER_KEY_PROVISION: PROVISION of owner w (R512, R544 to R546). -/
def execOwnerKeyProvision (m : Fin 4) (w : Fin 4) (g : Segment) (e : Env) (s : State) : Host.Outcome State Fault Refusal :=
  .next (s.hostSegment m (ok (0xB020 + w) 3) g e)

/-- POWER_TARGET_P0: TARGET = 0 (R503). -/
def execPowerTargetP0 (m : Fin 4) (tid : BitVec 8) (s : State) : Host.Outcome State Fault Refusal :=
  .next (s.hostWrite m tid 0x1F2001 0)

/-- POWER_TARGET_P3: TARGET = 3 (R503, R597). -/
def execPowerTargetP3 (m : Fin 4) (tid : BitVec 8) (s : State) : Host.Outcome State Fault Refusal :=
  .next (s.hostWrite m tid 0x1F2001 3)

/-- POWER_TARGET_P4: TARGET = 4 (R503, R598). -/
def execPowerTargetP4 (m : Fin 4) (tid : BitVec 8) (s : State) : Host.Outcome State Fault Refusal :=
  .next (s.hostWrite m tid 0x1F2001 4)

/-- WAKE = 1 (R503). -/
def execWake (m : Fin 4) (tid : BitVec 8) (s : State) : Host.Outcome State Fault Refusal :=
  .next (s.hostWrite m tid 0x1F2005 1)

/-! ### The loop and the links -/

/-- LOOP_ENABLE: LOOP_ENABLE = 1 (R304, R308, R314). -/
def execLoopEnable (m : Fin 4) (tid : BitVec 8) (s : State) : Host.Outcome State Fault Refusal :=
  .next (s.hostWrite m tid 0x400001 1)

/-- LOOP_DISABLE: LOOP_ENABLE = 0 (R308). -/
def execLoopDisable (m : Fin 4) (tid : BitVec 8) (s : State) : Host.Outcome State Fault Refusal :=
  .next (s.hostWrite m tid 0x400001 0)

/-- SWITCH: SWITCH = 1 (R457). -/
def execSwitch (m : Fin 4) (tid : BitVec 8) (s : State) : Host.Outcome State Fault Refusal :=
  .next (s.hostWrite m tid 0x710004 1)

/-- RETRAIN: RETRAIN = 1 of a lane (R431). -/
def execRetrain (m : Fin 4) (tid : BitVec 8) (lane : Fin 12) (s : State) : Host.Outcome State Fault Refusal :=
  .next (s.hostWrite m tid (laneObj lane 4) 1)

/-- LANE_ENABLE_WRITE: ENABLE of a lane (R431). -/
def execLaneEnableWrite (m : Fin 4) (tid : BitVec 8) (lane : Fin 12) (v : Bool) (e : Env) (s : State) :
    Host.Outcome State Fault Refusal :=
  .next (s.hostWrite m tid (laneObj lane 3) (b01 v) e)

/-- DEV_NUM_LOCAL_WRITE: the device number (R434). -/
def execDevNumLocalWrite (m : Fin 4) (tid : BitVec 8) (v : BitVec 8) (e : Env) (s : State) :
    Host.Outcome State Fault Refusal :=
  .next (s.hostWrite m tid 0x700008 v.toNat e)

end Sys2Proof.Machine
end

