-- ==== Sys2Proof/Machine/Frames.lean ====
section
/-! DEFINITION. Frames received on drive, sensor and peer links and at the management port, with injection on received
frames, and the drains of the trace ring (R445 to R479, R513, R576, R619). -/

namespace Sys2Proof.Machine

/-! ### Messages -/

/-- OP of a dictionary message (R485). -/
def messageOp (d : List Byte) : Nat := nfld (wordAt d 0) 0 8

/-- The rest of a dictionary message (R485). -/
def messageOf (d : List Byte) : DictMsg :=
  let w0 := wordAt d 0
  let w1 := wordAt d 4
  { typ := Fin.ofNat 16 (nfld w0 8 4), last := nbit w0 12, rsv := Fin.ofNat 8 (nfld w0 13 3), tid := BitVec.ofNat 8 (nfld w0 16 8)
    sub := BitVec.ofNat 8 (nfld w0 24 8), index := BitVec.ofNat 16 (nfld w1 0 16), dlen := BitVec.ofNat 16 (nfld w1 16 16)
    offset := BitVec.ofNat 32 (wordAt d 8), total := BitVec.ofNat 32 (wordAt d 12), data := d.drop 16 }

/-! ### Drive and sensor links -/

/-- LEN lies in the range of its frame type (R447). -/
def lenIn (lo hi : Nat) (d : List Byte) : Bool := decide (lo ≤ d.length) && decide (d.length ≤ hi)

/-- A cyclic frame of the main host: DL2 and DL3 carry none (R459). -/
def State.hostCyclic (s : State) (lane seq : Nat) (ok : Bool) (f : State → State) : State :=
  if lane < 2 ∧ ok = true then f (s.noteCyclic lane seq) else s.discardFrame lane

/-- A frame of a sensor link. -/
def State.sensorCyclic (s : State) (lane seq : Nat) (d : List Byte) (f : State → State) : State :=
  if lenIn 24 8192 d then f (s.noteCyclic lane seq) else s.discardFrame lane

/-- An ACYC frame: delivered in sequence, acknowledged, and its message executed (R454, R485). While no unit serves the
lane's master the frame is not taken, and its sender sends it again. A payload shorter than a header is no request. -/
def State.onAcyc (s : State) (lane seq : Nat) (d : List Byte) (e : Env) : State :=
  let m := masterOf lane
  if ¬ lenIn 8 256 d = true then s.discardFrame lane
  else if ¬ s.serves m = true then s
  else
    let r := s.relReceive lane 0 seq
    if r.2 = true ∧ 16 ≤ d.length then r.1.serveOn lane m (messageOp d) (messageOf d) e else r.1

/-- A BULK frame: delivered in sequence and acknowledged; no rule gives its payload a meaning (R454). -/
def State.onBulk (s : State) (lane seq : Nat) (d : List Byte) : State :=
  if lane < 2 ∧ lenIn 8 8192 d = true then (s.relReceive lane 1 seq).1 else s.discardFrame lane

/-! ### Peer links -/

/-- The link of a peer lane. -/
def linkOf (lane : Nat) : Nat := (lane - 6) / 2

/-- The partner of a lane's link is an observation device (R467). -/
def State.fromObserver (s : State) (lane : Nat) : Bool := s.o (peerObj (linkOf lane) 2) == 4

/-- The number of the device a lane's link faces. -/
def State.facing (s : State) (lane : Nat) : Nat := s.o (peerObj (linkOf lane) 2)

/-- A WRITE packet: taken in sequence, given to the window, and answered with WSTATUS on the lane and in the class it came
(R269 to R271, R470). -/
def State.onPeerWrite (s : State) (lane cls seq w2 w3 : Nat) (d : List Byte) : State :=
  if s.fromObserver lane || d.length % 64 != 0 || !lenIn 64 512 d then s.discardFrame lane
  else
    let r := s.relReceive lane cls seq
    if r.2 then
      let tag := nfld w3 0 16
      let q := r.1.packetIn (s.facing lane) tag (nfld w2 0 6) (nfld w2 8 2) (nfld w2 12 20) (nbit w2 6) (nbit w2 7) d
      q.1.sendRel lane cls ⟨0x02, tag + nfld w3 16 4 * 2 ^ 16, q.2, [], tag + 2 ^ 21, 0, 0⟩
    else r.1

/-- The end of a pair on this device that a HANDLE or CREDIT frame names is in a cluster in retention: the frame is not
taken, so that it waits in its source (R596). -/
def State.waitsFor (s : State) (typ w3 : Nat) : Bool :=
  let u := if typ = 3 then nfld w3 5 3 else nfld w3 13 3
  (typ == 3 || typ == 4) && decide (u < 6) && s.stopped u

/-- A frame of a class that carries no payload, taken in sequence: WSTATUS, HANDLE, CREDIT or FENCE (R295, R470, R475). -/
def State.onPeer (s : State) (lane typ cls seq w2 w3 : Nat) : State :=
  if s.fromObserver lane then s.discardFrame lane
  else if s.waitsFor typ w3 then s.sendAck lane cls
  else
    let r := s.relReceive lane cls seq
    if r.2 then
      match typ with
      | 2 => r.1.onWstatus (s.facing lane) (nfld w2 0 16) (nfld w2 16 4) (nfld w3 0 2)
      | 3 => r.1.arrive (s.facing lane) (nfld w3 13 3) (nfld w3 8 5) (nfld w3 5 3) (nfld w3 0 5) (BitVec.ofNat 32 w2)
      | 4 => (List.range (nfld w2 0 5)).foldl (fun t _ => t.credit (nfld w3 13 3) (nfld w3 8 5)) r.1
      | 10 => r.1.onFence (linkOf lane) w2
      | _ => r.1
    else r.1

/-! ### A frame at the receiver (R448, R513) -/

/-- The lane a frame comes on. -/
def RxFrame.lane : RxFrame → Nat
  | .sync l _ _ => l
  | .samples l _ _ => l
  | .samplePkt l _ _ _ => l
  | .linePkt l _ _ _ => l
  | .acyc l _ _ _ => l
  | .bulk l _ _ => l
  | .ack l _ _ => l
  | .peerWrite l _ _ _ _ _ => l
  | .peer l _ _ _ _ _ => l
  | .echo l _ _ _ => l

/-- Its channel: 0 A, 1 B, 2 C, 3 N; on a peer lane its class, and 3 for frames outside the classes. -/
def RxFrame.chan : RxFrame → Nat
  | .sync _ _ _ => 2
  | .samples _ _ _ => 2
  | .samplePkt _ _ _ _ => 2
  | .linePkt _ _ _ _ => 2
  | .acyc _ _ _ _ => 0
  | .bulk _ _ _ => 1
  | .ack _ _ _ => 3
  | .peerWrite _ c _ _ _ _ => c
  | .peer _ t c _ _ _ => if t = 5 ∨ t = 7 then 3 else c
  | .echo _ _ _ _ => 3

/-- Its sequence number; 0 outside the channels. -/
def RxFrame.number : RxFrame → Nat
  | .sync _ n _ => n
  | .samples _ n _ => n
  | .samplePkt _ n _ _ => n
  | .linePkt _ n _ _ => n
  | .acyc _ n _ _ => n
  | .bulk _ n _ => n
  | .ack _ _ _ => 0
  | .peerWrite _ _ n _ _ _ => n
  | .peer _ _ _ n _ _ => n
  | .echo _ _ _ _ => 0

/-- A frame is served. -/
def State.served (s : State) : RxFrame → State
  | .sync l n f => s.hostCyclic l n true (fun t => t.onSync l f)
  | .samples l n d => s.hostCyclic l n (lenIn 8 8192 d) (fun t => t.onSamples l d)
  | .samplePkt l n d excess => s.sensorCyclic l n d (fun t => t.onSamplePkt l d excess)
  | .linePkt l n d full => s.sensorCyclic l n d (fun t => t.onLine (l - 4) full d)
  | .acyc l n d e => s.onAcyc l n d e
  | .bulk l n d => s.onBulk l n d
  | .ack l c n => s.onAck l c n
  | .peerWrite l c n w2 w3 d => s.onPeerWrite l c n w2 w3 d
  | .peer l t c n w2 w3 =>
    if t = 5 then (s.onAck l 0 (nfld w2 0 16)).onAck l 1 (nfld w2 16 16)
    else if t = 7 then (if s.fromObserver l then s.discardFrame l else s.onLaneMode l (nfld w2 0 2))
    else s.onPeer l t c n w2 w3
  | .echo l r turn rtt => s.onEcho l r turn rtt

/-- A frame is served, and after it the frame of its channel that REORDER held back. -/
def State.passFrame (s : State) (f : RxFrame) : State :=
  let t := s.served f
  match t.heldRx with
  | some g => if g.lane = f.lane ∧ g.chan = f.chan then ({ t with heldRx := none }).served g else t
  | none => t

/-- The lane receives a frame: it is UP, or it is a peer lane whose partner measures the fibre (R468). -/
def State.receives (s : State) : RxFrame → Bool
  | .echo l _ _ _ => s.laneUp l || s.laneState l == 3
  | f => s.laneUp f.lane

/-- A frame at the receiver, under fault injection (R513): DROP removes it, CORRUPT has it fail its CRC, REORDER delivers it
after the next of its channel. -/
def State.inbound (s : State) (f : RxFrame) : State :=
  if ¬ s.receives f = true then s
  else match s.injects f.lane 0 with
    | 1 => s.acted
    | 2 => s.acted.crcError f.lane f.number
    | 3 => if s.heldRx.isNone then { s.acted with heldRx := some f } else s.passFrame f
    | _ => s.passFrame f

/-! ### Rows: drive and sensor links -/

/-- SYNC_FRAME (R301, R449). -/
def execSyncFrame (lane : Fin 4) (seq : BitVec 16) (frame : BitVec 32) (s : State) : Host.Outcome State Fault Refusal :=
  .next (s.inbound (.sync lane seq.toNat frame.toNat))

/-- SAMPLES_FRAME (R305, R450). -/
def execSamplesFrame (lane : Fin 4) (seq : BitVec 16) (data : List Byte) (s : State) : Host.Outcome State Fault Refusal :=
  .next (s.inbound (.samples lane seq.toNat data))

/-- SAMPLE_PKT on sensor lane `sl` (R462); `excess`: it would exceed the decoder's rate (R384). -/
def execSamplePkt (sl : Fin 2) (seq : BitVec 16) (data : List Byte) (excess : Bool) (s : State) :
    Host.Outcome State Fault Refusal :=
  .next (s.inbound (.samplePkt (4 + sl.val) seq.toNat data excess))

/-- LINE_PKT on sensor lane `sl` (R463); `full`: the stream's input buffer is full (R392). -/
def execLinePkt (sl : Fin 2) (seq : BitVec 16) (data : List Byte) (full : Bool) (s : State) :
    Host.Outcome State Fault Refusal :=
  .next (s.inbound (.linePkt (4 + sl.val) seq.toNat data full))

/-- ACYC_FRAME (R454, R485). -/
def execAcycFrame (lane : Fin 4) (seq : BitVec 16) (data : List Byte) (e : Env) (s : State) :
    Host.Outcome State Fault Refusal :=
  .next (s.inbound (.acyc lane seq.toNat data e))

/-- BULK_FRAME (R454, R459). -/
def execBulkFrame (lane : Fin 4) (seq : BitVec 16) (data : List Byte) (s : State) : Host.Outcome State Fault Refusal :=
  .next (s.inbound (.bulk lane seq.toNat data))

/-- ACK of channel A or B of a drive lane (R454). -/
def execAck (lane : Fin 4) (ch : Fin 2) (next : BitVec 16) (s : State) : Host.Outcome State Fault Refusal :=
  .next (s.inbound (.ack lane ch next.toNat))

/-! ### Rows: peer links -/

/-- ECHO (R468): a request, or a reply with its sender's turnaround; `rtt` is the measured round trip. -/
def execEcho (j : Fin 6) (reply : Bool) (turn rtt : BitVec 32) (s : State) : Host.Outcome State Fault Refusal :=
  .next (s.inbound (.echo (6 + j.val) reply turn.toNat rtt.toNat))

/-- PEER_WRITE (R470). -/
def execPeerWrite (j : Fin 6) (cls : Fin 2) (seq : BitVec 16) (w2 w3 : W32) (data : List Byte) (s : State) :
    Host.Outcome State Fault Refusal :=
  .next (s.inbound (.peerWrite (6 + j.val) cls seq.toNat w2.toNat w3.toNat data))

/-- WSTATUS (R470). -/
def execWstatus (j : Fin 6) (cls : Fin 2) (seq : BitVec 16) (w2 w3 : W32) (s : State) : Host.Outcome State Fault Refusal :=
  .next (s.inbound (.peer (6 + j.val) 0x02 cls seq.toNat w2.toNat w3.toNat))

/-- PEER_HANDLE (R295). -/
def execPeerHandle (j : Fin 6) (seq : BitVec 16) (h w3 : W32) (s : State) : Host.Outcome State Fault Refusal :=
  .next (s.inbound (.peer (6 + j.val) 0x03 0 seq.toNat h.toNat w3.toNat))

/-- PEER_CREDIT (R295). -/
def execPeerCredit (j : Fin 6) (seq : BitVec 16) (w2 w3 : W32) (s : State) : Host.Outcome State Fault Refusal :=
  .next (s.inbound (.peer (6 + j.val) 0x04 0 seq.toNat w2.toNat w3.toNat))

/-- LANE_MODE (R442). -/
def execLaneMode (j : Fin 6) (mode : Fin 4) (s : State) : Host.Outcome State Fault Refusal :=
  .next (s.inbound (.peer (6 + j.val) 0x07 0 0 mode 0))

/-- PEER_ACK: the next numbers expected of class 0 and class 1 (R473). -/
def execPeerAck (j : Fin 6) (next0 next1 : BitVec 16) (s : State) : Host.Outcome State Fault Refusal :=
  .next (s.inbound (.peer (6 + j.val) 0x05 0 0 (next0.toNat + next1.toNat * 2 ^ 16) 0))

/-- PEER_FENCE (R475). -/
def execPeerFence (j : Fin 6) (seq : BitVec 16) (mask : BitVec 6) (complete : Bool) (s : State) :
    Host.Outcome State Fault Refusal :=
  .next (s.inbound (.peer (6 + j.val) 0x0A 0 seq.toNat (mask.toNat + b01 complete * 2 ^ 8) 0))

/-! ### The management port (R477 to R480, R576) -/

/-- This device's address on the management port. -/
def macAddress : Nat := 2 * 2 ^ 40 + Config.serialNumber % 2 ^ 40

/-- KIND of a management frame. -/
def mgmtKind (f : MgmtFrame) : Nat := fld f.w0 8 8
/-- SEQ of a management frame. -/
def mgmtSeq (f : MgmtFrame) : Nat := fld f.w0 16 16
/-- MLEN of a management frame. -/
def mgmtLen (f : MgmtFrame) : Nat := fld f.w1 0 11

/-- The port accepts a frame: its EtherType and header, its address, or broadcast for KIND 2 (R477, R478). -/
def mgmtAccepts (f : MgmtFrame) : Bool :=
  f.etherType == 0x88B5 && (f.dst.toNat == macAddress || (f.dst.toNat == 2 ^ 48 - 1 && mgmtKind f == 2)) &&
    fld f.w0 0 8 == 1 && (mgmtKind f == 0 || mgmtKind f == 2) && fld f.w1 11 21 == 0 && decide (mgmtLen f ≤ 1492) &&
    decide (mgmtLen f ≤ f.body.length)

/-- A management frame that leaves: destination, header and message. -/
def mgmtFrame (dst kind seq : Nat) (d : List Byte) : List Byte :=
  leBytes 6 dst ++ leBytes 4 (1 + kind * 2 ^ 8 + seq * 2 ^ 16) ++ leBytes 4 d.length ++ d

/-- The store of a source: the one it has, or a fresh one, for which a fifth source evicts the store of the source silent
longest (R479). -/
def State.mgmtStore (s : State) (mac : Nat) : MgmtSource × List MgmtSource :=
  match s.mgmtSources.find? (fun x => x.mac == mac) with
  | some x => (x, s.mgmtSources.filter (fun y => y.mac != mac))
  | none =>
    let l := s.mgmtSources
    let oldest := l.foldl (fun m y => min m y.last) ((l.head?.map (fun y => y.last)).getD 0)
    let victim := (l.find? (fun y => y.last == oldest)).map (fun y => y.mac)
    (⟨mac, [], 0⟩, if l.length < 4 then l else l.filter (fun y => some y.mac != victim))

/-- A response leaves and is kept among the last 8 of its source (R479). -/
def State.mgmtAnswer (s : State) (f : MgmtFrame) (kind : Nat) (d : List Byte) : State :=
  let st := s.mgmtStore f.src.toNat
  let l := st.1.resps ++ [(mgmtKind f * 2 ^ 16 + mgmtSeq f, d)]
  let s1 := { s with mgmtSources := st.2 ++ [MgmtSource.mk f.src.toNat (l.drop (l.length - 8)) s.now] }
  s1.putSent 12 kind (mgmtFrame f.src.toNat kind (mgmtSeq f) d)

/-- The discovery answer: the identity record with TYPE 0x02 and PORT 0xF (R479). -/
def State.mgmtDiscovery (s : State) (f : MgmtFrame) : State := s.mgmtAnswer f 2 (s.identity 2 0xF 0 0)

/-- An accepted frame is served: a request whose SEQ is kept is answered from the store; a dictionary request is executed;
a discovery request is answered with the identity record. A dictionary message shorter than its header is no request. -/
def State.mgmtServe (s : State) (f : MgmtFrame) (e : Env) : State :=
  let st := s.mgmtStore f.src.toNat
  match st.1.resps.find? (fun r => r.1 == mgmtKind f * 2 ^ 16 + mgmtSeq f) with
  | some r =>
    let kind := if mgmtKind f = 2 then 2 else 1
    let s1 := { s with mgmtSources := st.2 ++ [{ st.1 with last := s.now }] }
    (s1.incO 0x730006 1).putSent 12 kind (mgmtFrame f.src.toNat kind (mgmtSeq f) r.2)
  | none =>
    if mgmtKind f = 2 then s.mgmtDiscovery f
    else
      let d := f.body.take (mgmtLen f)
      if d.length < 16 then s
      else
        let r := s.respond 1 (messageOp d) (messageOf d) e
        r.1.mgmtAnswer f 1 r.2

/-- A frame arrives at the management port: a bad check sequence and a frame it does not accept are counted; an accepted
frame is served, or held while the PMC does not serve, at most 16 of them (R477, R576). -/
def State.mgmtArrive (s : State) (f : MgmtFrame) (e : Env) : State :=
  if s.o 0x730002 = 0 ∨ s.power.stage = 0 then s
  else if ¬ f.fcsOk = true then s.incO 0x730004 1
  else if ¬ mgmtAccepts f = true then s.incO 0x730005 1
  else if ¬ s.serves 1 = true then
    (if s.mgmtHeld.length < 16 then { s.incO 0x730003 1 with mgmtHeld := s.mgmtHeld ++ [(f, e)] } else s.incO 0x730005 1)
  else (s.incO 0x730003 1).mgmtServe f e

/-- MGMT_FRAME (R477 to R480). -/
def execMgmtFrame (f : MgmtFrame) (e : Env) (s : State) : Host.Outcome State Fault Refusal := .next (s.mgmtArrive f e)

/-- DISCOVERY: a frame of KIND 2 from a source, broadcast or to this device's address (R477, R479). -/
def execDiscovery (src : BitVec 48) (broadcast : Bool) (seq : BitVec 16) (s : State) : Host.Outcome State Fault Refusal :=
  .next (s.mgmtArrive
    { dst := BitVec.ofNat 48 (if broadcast then 2 ^ 48 - 1 else macAddress), src := src, etherType := 0x88B5
      w0 := BitVec.ofNat 32 (1 + 2 * 2 ^ 8 + seq.toNat * 2 ^ 16), w1 := 0, body := [], fcsOk := true } Env.clear)

/-- PMC_RESTART_DONE (R518, R537): the frames held meanwhile are served (R486, R576). -/
def execPmcRestartDone (s : State) : Host.Outcome State Fault Refusal :=
  .next (
    let t := s.pmcReturns
    if t.serves 1 then t.mgmtHeld.foldl (fun u x => u.mgmtServe x.1 x.2) { t with mgmtHeld := [] } else t)

/-! ### Trace drains (R616, R619) -/

/-- The 16 bytes of a trace record. -/
def traceBytes (r : TraceRec) : List Byte :=
  leBytes 6 r.time ++ leBytes 2 (r.cls + r.unit * 2 ^ 5 + r.eng * 2 ^ 10 + b01 r.gap * 2 ^ 14) ++
    leBytes 4 ((r.ctx.getD 0) % 64 + b01 r.ctx.isSome * 2 ^ 6 + r.arg % 256 * 2 ^ 8 + r.frame % 2 ^ 16 * 2 ^ 16) ++
    leBytes 4 r.detail

/-- Records leave the ring oldest first, as bytes. -/
def State.takeTrace (s : State) (n : Nat) : List Byte × State :=
  ((s.obs.ring.take n).flatMap traceBytes, { s with obs := { s.obs with ring := s.obs.ring.drop n } })

/-- TRACE_DRAIN: one frame of records to the management port or to the observer (R619). -/
def execTraceDrain (s : State) : Host.Outcome State Fault Refusal :=
  .next (
    if s.obs.ring.isEmpty then s
    else match s.o 0x900003 with
      | 1 =>
        if s.o 0x730002 = 1 ∧ s.mgmtHeld.isEmpty = true then
          let r := s.takeTrace 93
          r.2.putSent 12 3 (mgmtFrame (s.o 0x900009) 3 0 r.1)
        else s
      | 2 =>
        match s.linkTo 4 with
        | some n =>
          let lane := s.peerLane n (2 ^ 23) false
          if (s.rel lane 1).waiting.isEmpty then
            let r := s.takeTrace 32
            r.2.sendRel lane 1 ⟨0x08, 0, 0, r.1, 2 ^ 23, 0, 0⟩
          else s
        | none => s
      | _ => s)

end Sys2Proof.Machine
end

