-- ==== Sys2Proof/Machine/Dispatch.lean ====
section
/-! DEFINITION. The command a step takes, by its constructor: each arm calls the meaning of its row. -/

namespace Sys2Proof.Machine

/-- The effect of a command on everything but the queue of waiting commands. -/
def exec (i : Instr) (s : State) : Host.Outcome State Fault Refusal :=
  match i with
  | .nop core => Sys2Proof.Machine.execNop core s
  | .setc core => Sys2Proof.Machine.execSetc core s
  | .addc core => Sys2Proof.Machine.execAddc core s
  | .cmp core => Sys2Proof.Machine.execCmp core s
  | .setp core => Sys2Proof.Machine.execSetp core s
  | .mark core => Sys2Proof.Machine.execMark core s
  | .mma core => Sys2Proof.Machine.execMma core s
  | .mmaChive core => Sys2Proof.Machine.execMmaChive core s
  | .convTaps core => Sys2Proof.Machine.execConvTaps core s
  | .loadScales core => Sys2Proof.Machine.execLoadScales core s
  | .scaleSwap core => Sys2Proof.Machine.execScaleSwap core s
  | .elem core => Sys2Proof.Machine.execElem core s
  | .reduce core => Sys2Proof.Machine.execReduce core s
  | .softmax core => Sys2Proof.Machine.execSoftmax core s
  | .norm core => Sys2Proof.Machine.execNorm core s
  | .lut core => Sys2Proof.Machine.execLut core s
  | .cast core => Sys2Proof.Machine.execCast core s
  | .quant core => Sys2Proof.Machine.execQuant core s
  | .rescale core => Sys2Proof.Machine.execRescale core s
  | .scaleUpdate core => Sys2Proof.Machine.execScaleUpdate core s
  | .rngFill core => Sys2Proof.Machine.execRngFill core s
  | .dropout core => Sys2Proof.Machine.execDropout core s
  | .sample core => Sys2Proof.Machine.execSample core s
  | .pool core => Sys2Proof.Machine.execPool core s
  | .gather core => Sys2Proof.Machine.execGather core s
  | .scatter core => Sys2Proof.Machine.execScatter core s
  | .streamIn core se => Sys2Proof.Machine.execStreamIn core se s
  | .streamOut core se => Sys2Proof.Machine.execStreamOut core se s
  | .accumulatorSpill core se => Sys2Proof.Machine.execAccumulatorSpill core se s
  | .accumulatorRestore core se => Sys2Proof.Machine.execAccumulatorRestore core se s
  | .fill core se => Sys2Proof.Machine.execFill core se s
  | .copy core se => Sys2Proof.Machine.execCopy core se s
  | .winWrite core se => Sys2Proof.Machine.execWinWrite core se s
  | .hinit core se => Sys2Proof.Machine.execHinit core se s
  | .hmark core se => Sys2Proof.Machine.execHmark core se s
  | .hbump core se => Sys2Proof.Machine.execHbump core se s
  | .queueAppend core eng c => Sys2Proof.Machine.execQueueAppend core eng c s
  | .commandIssue core eng rt => Sys2Proof.Machine.execCommandIssue core eng rt s
  | .commandRetire core eng => Sys2Proof.Machine.execCommandRetire core eng s
  | .streamFaultEnd core se => Sys2Proof.Machine.execStreamFaultEnd core se s
  | .watchdogExpiry core eng => Sys2Proof.Machine.execWatchdogExpiry core eng s
  | .slotMiss core eng => Sys2Proof.Machine.execSlotMiss core eng s
  | .handleForwardArrival u q => Sys2Proof.Machine.execHandleForwardArrival u q s
  | .creditArrival u q => Sys2Proof.Machine.execCreditArrival u q s
  | .coreFrameTick core => Sys2Proof.Machine.execCoreFrameTick core s
  | .frameSwapWrite core => Sys2Proof.Machine.execFrameSwapWrite core s
  | .meCfgWrite core v => Sys2Proof.Machine.execMeCfgWrite core v s
  | .handleQueueConfig u q w v => Sys2Proof.Machine.execHandleQueueConfig u q w v s
  | .ownerMapWrite m n v => Sys2Proof.Machine.execOwnerMapWrite m n v s
  | .ownerMapClearDone m => Sys2Proof.Machine.execOwnerMapClearDone m s
  | .regionEntryWrite e w0 w1 => Sys2Proof.Machine.execRegionEntryWrite e w0 w1 s
  | .regionCloseComplete e => Sys2Proof.Machine.execRegionCloseComplete e s
  | .hubGranuleClear dram g => Sys2Proof.Machine.execHubGranuleClear dram g s
  | .rstcmdSubmit core se c => Sys2Proof.Machine.execRstcmdSubmit core se c s
  | .tileClaim k t => Sys2Proof.Machine.execTileClaim k t s
  | .registerWrite r v => Sys2Proof.Machine.execRegisterWrite r v s
  | .remoteWindowWrite dev own n woff first notify last d => Sys2Proof.Machine.execRemoteWindowWrite dev own n woff first notify last d s
  | .eccWriteBack m word => Sys2Proof.Machine.execEccWriteBack m word s
  | .scrubAtom m bank => Sys2Proof.Machine.execScrubAtom m bank s
  | .scrubLate m => Sys2Proof.Machine.execScrubLate m s
  | .frameStart => Sys2Proof.Machine.execFrameStart s
  | .syncFrame lane seq frame => Sys2Proof.Machine.execSyncFrame lane seq frame s
  | .syncWindowClose => Sys2Proof.Machine.execSyncWindowClose s
  | .samplesFrame lane seq data => Sys2Proof.Machine.execSamplesFrame lane seq data s
  | .ingressClose => Sys2Proof.Machine.execIngressClose s
  | .alignerEvaluation n => Sys2Proof.Machine.execAlignerEvaluation n s
  | .egressHandleArrival g => Sys2Proof.Machine.execEgressHandleArrival g s
  | .egressInstant => Sys2Proof.Machine.execEgressInstant s
  | .loopEnable m tid => Sys2Proof.Machine.execLoopEnable m tid s
  | .loopDisable m tid => Sys2Proof.Machine.execLoopDisable m tid s
  | .failover => Sys2Proof.Machine.execFailover s
  | .switch m tid => Sys2Proof.Machine.execSwitch m tid s
  | .notReady link => Sys2Proof.Machine.execNotReady link s
  | .samplePkt sl seq data excess => Sys2Proof.Machine.execSamplePkt sl seq data excess s
  | .linePkt sl seq data full => Sys2Proof.Machine.execLinePkt sl seq data full s
  | .imageDelivery k => Sys2Proof.Machine.execImageDelivery k s
  | .timeFrame sl => Sys2Proof.Machine.execTimeFrame sl s
  | .acycFrame lane seq data e => Sys2Proof.Machine.execAcycFrame lane seq data e s
  | .bulkFrame lane seq data => Sys2Proof.Machine.execBulkFrame lane seq data s
  | .ack lane ch next => Sys2Proof.Machine.execAck lane ch next s
  | .retransmitTimeout lane ch => Sys2Proof.Machine.execRetransmitTimeout lane ch s
  | .ident k r => Sys2Proof.Machine.execIdent k r s
  | .swapNotice k => Sys2Proof.Machine.execSwapNotice k s
  | .lightAboveSeat k p => Sys2Proof.Machine.execLightAboveSeat k p s
  | .laneSeated k => Sys2Proof.Machine.execLaneSeated k s
  | .lossOfLight k p => Sys2Proof.Machine.execLossOfLight k p s
  | .lightReturn k p => Sys2Proof.Machine.execLightReturn k p s
  | .unplugEvent k => Sys2Proof.Machine.execUnplugEvent k s
  | .trainingComplete k => Sys2Proof.Machine.execTrainingComplete k s
  | .echo j reply turn rtt => Sys2Proof.Machine.execEcho j reply turn rtt s
  | .retrain m tid lane => Sys2Proof.Machine.execRetrain m tid lane s
  | .laneEnableWrite m tid lane v e => Sys2Proof.Machine.execLaneEnableWrite m tid lane v e s
  | .devNumLocalWrite m tid v e => Sys2Proof.Machine.execDevNumLocalWrite m tid v e s
  | .marginProbe k h v => Sys2Proof.Machine.execMarginProbe k h v s
  | .biasMeasurement k ua => Sys2Proof.Machine.execBiasMeasurement k ua s
  | .sparePrewarmDone k => Sys2Proof.Machine.execSparePrewarmDone k s
  | .laserSwap k bias => Sys2Proof.Machine.execLaserSwap k bias s
  | .laserSwapFallback k bias => Sys2Proof.Machine.execLaserSwapFallback k bias s
  | .laserFailure k bias => Sys2Proof.Machine.execLaserFailure k bias s
  | .laneDegrade j bad total => Sys2Proof.Machine.execLaneDegrade j bad total s
  | .laneRestore n => Sys2Proof.Machine.execLaneRestore n s
  | .peerWrite j cls seq w2 w3 data => Sys2Proof.Machine.execPeerWrite j cls seq w2 w3 data s
  | .wstatus j cls seq w2 w3 => Sys2Proof.Machine.execWstatus j cls seq w2 w3 s
  | .peerHandle j seq h w3 => Sys2Proof.Machine.execPeerHandle j seq h w3 s
  | .peerCredit j seq w2 w3 => Sys2Proof.Machine.execPeerCredit j seq w2 w3 s
  | .laneMode j mode => Sys2Proof.Machine.execLaneMode j mode s
  | .peerAck j next0 next1 => Sys2Proof.Machine.execPeerAck j next0 next1 s
  | .peerRetransmitTimeout j cls => Sys2Proof.Machine.execPeerRetransmitTimeout j cls s
  | .peerFence j seq mask complete => Sys2Proof.Machine.execPeerFence j seq mask complete s
  | .peerFenceTimeout n => Sys2Proof.Machine.execPeerFenceTimeout n s
  | .peerLinkDown n => Sys2Proof.Machine.execPeerLinkDown n s
  | .peerBackoffExpiry j => Sys2Proof.Machine.execPeerBackoffExpiry j s
  | .traceDrain => Sys2Proof.Machine.execTraceDrain s
  | .mgmtFrame f e => Sys2Proof.Machine.execMgmtFrame f e s
  | .discovery src broadcast seq => Sys2Proof.Machine.execDiscovery src broadcast seq s
  | .dictRead m x => Sys2Proof.Machine.execDictRead m x s
  | .dictWrite m x e => Sys2Proof.Machine.execDictWrite m x e s
  | .dictAbort m x => Sys2Proof.Machine.execDictAbort m x s
  | .segmentTimeout m tid => Sys2Proof.Machine.execSegmentTimeout m tid s
  | .tokenAcquire m tid => Sys2Proof.Machine.execTokenAcquire m tid s
  | .tokenRelease m tid => Sys2Proof.Machine.execTokenRelease m tid s
  | .seize m tid => Sys2Proof.Machine.execSeize m tid s
  | .portLoss m => Sys2Proof.Machine.execPortLoss m s
  | .nonce m tid => Sys2Proof.Machine.execNonce m tid s
  | .sessionOpen m g => Sys2Proof.Machine.execSessionOpen m g s
  | .sessionClose m tid => Sys2Proof.Machine.execSessionClose m tid s
  | .hostMajor m tid v => Sys2Proof.Machine.execHostMajor m tid v s
  | .restoreDefaults m tid => Sys2Proof.Machine.execRestoreDefaults m tid s
  | .errorLogClear m tid => Sys2Proof.Machine.execErrorLogClear m tid s
  | .counterSelect m g => Sys2Proof.Machine.execCounterSelect m g s
  | .traceEnable m tid => Sys2Proof.Machine.execTraceEnable m tid s
  | .faultInjectArm m tid => Sys2Proof.Machine.execFaultInjectArm m tid s
  | .faultInjectStop m tid => Sys2Proof.Machine.execFaultInjectStop m tid s
  | .supervisorPresent m tid => Sys2Proof.Machine.execSupervisorPresent m tid s
  | .cycleAck m tid => Sys2Proof.Machine.execCycleAck m tid s
  | .contextStart m tid n => Sys2Proof.Machine.execContextStart m tid n s
  | .contextStop m tid n => Sys2Proof.Machine.execContextStop m tid n s
  | .contextPreempt m tid n => Sys2Proof.Machine.execContextPreempt m tid n s
  | .contextResume m tid n => Sys2Proof.Machine.execContextResume m tid n s
  | .cheapPointReached n core => Sys2Proof.Machine.execCheapPointReached n core s
  | .invocationStart n => Sys2Proof.Machine.execInvocationStart n s
  | .invocationDone n => Sys2Proof.Machine.execInvocationDone n s
  | .codeObjectImage m k g => Sys2Proof.Machine.execCodeObjectImage m k g s
  | .loadCheck k => Sys2Proof.Machine.execLoadCheck k s
  | .pin m tid k v e => Sys2Proof.Machine.execPin m tid k v e s
  | .pinCopyDone k failed => Sys2Proof.Machine.execPinCopyDone k failed s
  | .unload m tid k => Sys2Proof.Machine.execUnload m tid k s
  | .pinnedReload k damaged => Sys2Proof.Machine.execPinnedReload k damaged s
  | .submit m n g => Sys2Proof.Machine.execSubmit m n g s
  | .submissionRowWritten => Sys2Proof.Machine.execSubmissionRowWritten s
  | .batchClose n by_ tid => Sys2Proof.Machine.execBatchClose n by_ tid s
  | .publish m tid n => Sys2Proof.Machine.execPublish m tid n s
  | .publishFrom m tid n v e => Sys2Proof.Machine.execPublishFrom m tid n v e s
  | .publicationFrame n => Sys2Proof.Machine.execPublicationFrame n s
  | .publicationDone n => Sys2Proof.Machine.execPublicationDone n s
  | .cameraEnable m tid k v => Sys2Proof.Machine.execCameraEnable m tid k v s
  | .text m g => Sys2Proof.Machine.execText m g s
  | .flush m tid => Sys2Proof.Machine.execFlush m tid s
  | .tokenizeComplete => Sys2Proof.Machine.execTokenizeComplete s
  | .vocab m g e => Sys2Proof.Machine.execVocab m g e s
  | .windowOpen m tid n => Sys2Proof.Machine.execWindowOpen m tid n s
  | .windowClose m tid n => Sys2Proof.Machine.execWindowClose m tid n s
  | .regionOpen m tid n => Sys2Proof.Machine.execRegionOpen m tid n s
  | .regionClose m tid n => Sys2Proof.Machine.execRegionClose m tid n s
  | .dramRead owner part line => Sys2Proof.Machine.execDramRead owner part line s
  | .dramWrite owner part line frt d => Sys2Proof.Machine.execDramWrite owner part line frt d s
  | .dramPartialWrite owner part a d => Sys2Proof.Machine.execDramPartialWrite owner part a d s
  | .refreshDue ch => Sys2Proof.Machine.execRefreshDue ch s
  | .refreshMakeup ch => Sys2Proof.Machine.execRefreshMakeup ch s
  | .dramTempRead t0 t1 t2 t3 => Sys2Proof.Machine.execDramTempRead t0 t1 t2 t3 s
  | .dramAlert ch expect clean => Sys2Proof.Machine.execDramAlert ch expect clean s
  | .channelRebuild => Sys2Proof.Machine.execChannelRebuild s
  | .rowSparing ch bank row => Sys2Proof.Machine.execRowSparing ch bank row s
  | .zqCalibration ch => Sys2Proof.Machine.execZqCalibration ch s
  | .patternRead ch => Sys2Proof.Machine.execPatternRead ch s
  | .patrolRead ch => Sys2Proof.Machine.execPatrolRead ch s
  | .modelReload line bad => Sys2Proof.Machine.execModelReload line bad s
  | .placedWordRewrite m word => Sys2Proof.Machine.execPlacedWordRewrite m word s
  | .selftestRun core cols failed => Sys2Proof.Machine.execSelftestRun core cols failed s
  | .selftestAtom core col failed => Sys2Proof.Machine.execSelftestAtom core col failed s
  | .repairApply p => Sys2Proof.Machine.execRepairApply p s
  | .fenceRequest => Sys2Proof.Machine.execFenceRequest s
  | .fenceDrainLimit => Sys2Proof.Machine.execFenceDrainLimit s
  | .fenceComplete => Sys2Proof.Machine.execFenceComplete s
  | .contextReset => Sys2Proof.Machine.execContextReset s
  | .engineReset => Sys2Proof.Machine.execEngineReset s
  | .partitionReset => Sys2Proof.Machine.execPartitionReset s
  | .packageReset => Sys2Proof.Machine.execPackageReset s
  | .escalation stuck => Sys2Proof.Machine.execEscalation stuck s
  | .crossingFault k => Sys2Proof.Machine.execCrossingFault k s
  | .recoveryReturn => Sys2Proof.Machine.execRecoveryReturn s
  | .cccWatchdog k bad => Sys2Proof.Machine.execCccWatchdog k bad s
  | .schWatchdog => Sys2Proof.Machine.execSchWatchdog s
  | .scWatchdog => Sys2Proof.Machine.execScWatchdog s
  | .pmcWatchdog => Sys2Proof.Machine.execPmcWatchdog s
  | .lockstepMismatch sch => Sys2Proof.Machine.execLockstepMismatch sch s
  | .powerCycleRequest => Sys2Proof.Machine.execPowerCycleRequest s
  | .powerOn => Sys2Proof.Machine.execPowerOn s
  | .setpointReached mv0 mv1 => Sys2Proof.Machine.execSetpointReached mv0 mv1 s
  | .vaonLow => Sys2Proof.Machine.execVaonLow s
  | .railExcursion r mv => Sys2Proof.Machine.execRailExcursion r mv s
  | .activateHandoff m tid => Sys2Proof.Machine.execActivateHandoff m tid s
  | .activateScImage m tid => Sys2Proof.Machine.execActivateScImage m tid s
  | .handoffLoadDone bad f1 major minor body => Sys2Proof.Machine.execHandoffLoadDone bad f1 major minor body s
  | .bankSwitch => Sys2Proof.Machine.execBankSwitch s
  | .handoffConfirm => Sys2Proof.Machine.execHandoffConfirm s
  | .handoffRevert => Sys2Proof.Machine.execHandoffRevert s
  | .fwImage m k g => Sys2Proof.Machine.execFwImage m k g s
  | .fwErase m tid k => Sys2Proof.Machine.execFwErase m tid k s
  | .lifeCycleRequest m tid v e => Sys2Proof.Machine.execLifeCycleRequest m tid v e s
  | .ownerKeyProvision m w g e => Sys2Proof.Machine.execOwnerKeyProvision m w g e s
  | .wrapForSuccessor part secret => Sys2Proof.Machine.execWrapForSuccessor part secret s
  | .powerTargetP0 m tid => Sys2Proof.Machine.execPowerTargetP0 m tid s
  | .powerTargetP3 m tid => Sys2Proof.Machine.execPowerTargetP3 m tid s
  | .powerTargetP4 m tid => Sys2Proof.Machine.execPowerTargetP4 m tid s
  | .wake m tid => Sys2Proof.Machine.execWake m tid s
  | .wakeTimer => Sys2Proof.Machine.execWakeTimer s
  | .p2Entry p => Sys2Proof.Machine.execP2Entry p s
  | .p2Exit k => Sys2Proof.Machine.execP2Exit k s
  | .coreClockGate core => Sys2Proof.Machine.execCoreClockGate core s
  | .coreClockRelease core => Sys2Proof.Machine.execCoreClockRelease core s
  | .pllLock k => Sys2Proof.Machine.execPllLock k s
  | .pllLockLoss k => Sys2Proof.Machine.execPllLockLoss k s
  | .oscFault sleep => Sys2Proof.Machine.execOscFault sleep s
  | .thermalReduction d t => Sys2Proof.Machine.execThermalReduction d t s
  | .thermalReductionEnd d t => Sys2Proof.Machine.execThermalReductionEnd d t s
  | .thermalTrip d t => Sys2Proof.Machine.execThermalTrip d t s
  | .summaryWrite bad => Sys2Proof.Machine.execSummaryWrite bad s
  | .seatingPowerDrop k p => Sys2Proof.Machine.execSeatingPowerDrop k p s
  | .peerTrainingTimeout j => Sys2Proof.Machine.execPeerTrainingTimeout j s
  | .oneLaneLinkUp n => Sys2Proof.Machine.execOneLaneLinkUp n s
  | .identityRecordRepeat k => Sys2Proof.Machine.execIdentityRecordRepeat k s
  | .hubRailReturn => Sys2Proof.Machine.execHubRailReturn s
  | .patrolLate => Sys2Proof.Machine.execPatrolLate s
  | .receiverFault k => Sys2Proof.Machine.execReceiverFault k s
  | .discardedFrame lane why seq => Sys2Proof.Machine.execDiscardedFrame lane why seq s
  | .mgmtLinkUp up => Sys2Proof.Machine.execMgmtLinkUp up s
  | .cycleRequestHoldoffEnd => Sys2Proof.Machine.execCycleRequestHoldoffEnd s
  | .packetResend core se pos => Sys2Proof.Machine.execPacketResend core se pos s
  | .junctionTemperatureExcess d t => Sys2Proof.Machine.execJunctionTemperatureExcess d t s
  | .pmcRestartDone => Sys2Proof.Machine.execPmcRestartDone s

end Sys2Proof.Machine
end

