-- ==== Sys2Proof/Machine/Step.lean ====
section
/-! DEFINITION. A step of the device: the command at the front of the queue, or a tick of 1 ns on an empty queue. -/

namespace Sys2Proof.Machine

/-- One step: the oldest waiting command; with none waiting, 1 ns passes (log 3). -/
def step (s : State) : Host.Outcome State Fault Refusal :=
  match s.pending with
  | [] => .next s.tick
  | c :: rest => exec c { s with pending := rest }

/-- A command put at the front of the queue. -/
def State.withFront (s : State) (c : Instr) : State := { s with pending := c :: s.pending }

/-- The command that a word spells put at the front of the queue; unchanged where it spells none. -/
def State.withFetchWord (s : State) (nbits w : Nat) : State :=
  match Sys2Proof.decodeTableWord nbits w with
  | some c => s.withFront c
  | none => s

end Sys2Proof.Machine
end

