-- ==== Sys2Proof/Safety.lean ====
section
/-! DEFINITION. What a safe step and a well-kept state are, and the terms in which the statements speak of the effect of a
command: the bytes a command stores, what an engine command leaves in its engine, and the frames. -/

namespace Sys2Proof.Machine

/-- The step answers a next state. -/
def Runs (s : State) : Prop := ∃ t, step s = .next t

/-- The meaning of a command answers a next state. -/
def Completes (c : Instr) (s : State) : Prop := ∃ t, exec c s = .next t

/-! ### Memory -/

/-- Every byte of memory reads as before. -/
def SameBytes (s t : State) : Prop := ∀ a, t.byte a = s.byte a

/-- Every byte of memory outside `n` bytes from `a` on reads as before. -/
def SameBytesBut (s t : State) (a n : Nat) : Prop := ∀ b, b < a ∨ a + n ≤ b → t.byte b = s.byte b

/-- Memory after stores in order, each an address and its bytes. -/
def storeAll (m : List Host.Cell) (l : List (Nat × List Byte)) : List Host.Cell :=
  l.foldl (fun m p => Tbl.setList Memory.dflt m p.1 p.2) m

/-- The stores of a converted run at an offset of a view: its packed elements and, for a block format, its scale bytes
(R71, R75, R77). -/
def runStores (core : Nat) (v : View) (off : Nat) (r : List Out × List Nat) : List (Nat × List Byte) :=
  (v.addr core (v.base + off), packRow v.format (r.1.map (fun o => o.code))) ::
    (if r.2.isEmpty then []
     else [(v.addr core (v.sbase + off / v.format.blockBytes), r.2.map (fun n => BitVec.ofNat 8 n))])

/-- The stores of a row of lane results at an offset of Z; `i0` is the place of its first element in the command's logical
index range (R88, R183). -/
def rowStores (core : Nat) (f : Flight) (v : View) (off i0 : Nat) (l : List Num) : List (Nat × List Byte) :=
  runStores core v off (convertLane v.format f.cmd.veSatf (l.zipIdx.map (fun p => (p.1, f.rndAt (i0 + p.2)))))

/-- The stores of a vector command that writes one row of Z for each row, in ascending order (R181). -/
def zStores (core : Nat) (b : Bound) (f : Flight) (rowOf : Nat → List Num) : List (Nat × List Byte) :=
  (List.range b.cmd.rows).flatMap (fun r =>
    rowStores core f (b.v 2) (r * (b.v 2).stride) (r * b.cmd.len) (rowOf r))

/-! ### Objects -/

/-- The objects an entry of the log or the trace changes. -/
def logKey (k : Nat) : Bool := k == 0x800101 || k == 0x800102 || k == 0x900006 || k == 0x900007

/-- The objects that follow other state (R502, R506). -/
def healthKey (k : Nat) : Bool :=
  logKey k || k == 0x800001 || k == 0x800002 || k == 0x800005 || k == 0x801100 || k == 0x1F2007 || k == 0x1F1001 ||
    k == 0x1F1002 || k == 0x1F1003 || (k / 256 / 4 == 0x840 && k % 256 == 4) || (k / 256 / 4 == 0xC40 && k % 256 == 5) ||
    (decide (0x3040 ≤ k / 256) && decide (k / 256 < 0x3060) && k % 256 == 0xA)

/-- No object changes but those in the list and those that the log and the trace count in. -/
def ObjectsBut (s t : State) (l : List Nat) : Prop := ∀ k, k ∉ l → logKey k = false → t.o k = s.o k

/-- No object changes but those in the list and those that follow other state. -/
def SettledBut (s t : State) (l : List Nat) : Prop := ∀ k, k ∉ l → healthKey k = false → t.o k = s.o k

/-- `t` is `u` but for what follows other state: the log and the trace, the objects that show them, the attention owed to
the links, and the times since which partitions have been idle. -/
def SettledFrom (u t : State) : Prop :=
  t = { u with obs := t.obs, obj := t.obj, attn := t.attn
               power := { u.power with idleFrom := t.power.idleFrom } }

/-! ### Engine commands -/

/-- The engine `e` of a core goes on as before, but for the command at turn, which has become `g`; so do the other engines
of the core. -/
def Ended (s t : State) (core e opc : Nat) (g : Flight) : Prop :=
  t.engine core e = { s.engine core e with flights := updateFirst (Flight.awaits opc) g (s.engine core e).flights } ∧
    ∀ i, i ≠ e → t.engine core i = s.engine core i

/-- Nothing waits for what a row at the engines of a core does: no stop waits for its commands (R321), no save of a context runs
on it (R331), and no start or resumption waits (R332, R599). -/
def EnginesQuiet (s : State) (core : Nat) : Prop :=
  s.stoppingCtx = [] ∧ (s.core core).saving = none ∧ s.power.waiting = []

/-- Every core but one is as before. -/
def OtherCores (s t : State) (core : Nat) : Prop := ∀ d, d ≠ core → t.core d = s.core d

/-- Of a core, only its engines and the registers named by `f` have changed: `f` sets in the core of before what has. -/
def OnlyCore (s t : State) (core : Nat) (f : Core → Core → Core) : Prop :=
  t.core core = { f (t.core core) (s.core core) with engines := (t.core core).engines } ∧ OtherCores s t core

/-- Nothing but the cores, memory, the log, the trace and counters, objects, the error states of words and the counter of
free values has changed. -/
def EngineFrame (s t : State) : Prop :=
  t = { s with cores := t.cores, mem := t.mem, obs := t.obs, obj := t.obj, ecc := t.ecc, free := t.free }

/-- The operands of a vector command, as they are read: the state after the reads, the state the values are taken from,
and whether a word without valid data was met (R273). -/
def vectorReads (core : Nat) (s : State) (f : Flight) : State × State × Bool :=
  s.vectorReads core (f.bound (s.core core).width) (s.o (ok (0x5540 + f.cmd.ctx) 1))

/-- A vector command as it ends (R273). -/
def vectorEnd (core : Nat) (s : State) (f : Flight) : Flight := f.finishRead (vectorReads core s f).2.2

/-- A vector command has stored exactly these runs and stands ended as `g`: memory is what the stores leave, the registers of
its core are those of `x`, and nothing else has changed but what is logged and counted and the objects of `k`. -/
def VectorDone (s t : State) (core opc : Nat) (g : Flight) (l : List (Nat × List Byte)) (x : Core) (k : List Nat) : Prop :=
  t.mem = storeAll s.mem l ∧
    t.core core = x.setEngine 1 { s.engine core 1 with
      flights := updateFirst (Flight.awaits opc) g (s.engine core 1).flights } ∧
    OtherCores s t core ∧ EngineFrame s t ∧ ObjectsBut s t k

/-- The stores of SCATTER, row by row, with the rows of Z it has written: the row of X, added with ACC = 1 to what the row
of Z holds by then (R184, R205). -/
def scatterStores (core : Nat) (s src : State) (b : Bound) (f : Flight) : List (Nat × List Byte) × List Nat :=
  (List.range b.cmd.rows).foldl (fun a r =>
    match rowIndex core src b r with
    | none => a
    | some i =>
      let z := b.v 2
      let x := src.row core (b.v 0) (r * (b.v 0).stride) b.cmd.len
      let old := (if a.2.contains i then { s with mem := storeAll s.mem a.1 } else src).row core z (i * z.stride) b.cmd.len
      (a.1 ++ rowStores core f z (i * z.stride) (r * b.cmd.len)
        (if bit b.cmd.w5 16 then (x.zip old).map (fun p => add32 p.2 p.1) else x), i :: a.2)) ([], [])

/-- A row of QUANT or RESCALE as it is converted: its values with their channels, and the results (R230, R234, R235). -/
def quantRun (core : Nat) (x : Core) (quant : Bool) (src : State) (b : Bound) (f : Flight) (r : Nat) :
    List (Nat × Num × Rnd) × List Out × List Nat :=
  let l := (src.row core (b.v 0) (r * (b.v 0).stride) b.cmd.len).zipIdx.map (fun p =>
    (quantChannel b.cmd r p.2, p.1, f.rndAt (r * b.cmd.len + p.2)))
  (l, x.convertRun quant f.bank (b.v 2).format b.cmd.veSatf l)

/-- The stores of the drain of a tile with the accumulators `rows` (R104, R109, R208). -/
def tileStores (core : Nat) (x : Core) (b : Bound) (bank : Nat) (p : TileAt) (rows : List (List Num)) :
    List (Nat × List Byte) :=
  (b.drainRuns p rows).flatMap (fun run => runStores core (b.v 2) run.1
    (x.convertRun false bank (b.v 2).format b.cmd.meSatf (run.2.map (fun q => (q.1, q.2, .near)))))

/-- A matrix command has filled its buffers, computed its tiles in order, left each in its bank, drained them unless it holds,
and ended; nothing else has changed but the statistics of its channels, those that wait, and what is logged and counted. -/
def MatrixDone (s t : State) (core opc : Nat) (f : Flight) : Prop :=
  let b := f.bound (s.core core).width
  let g := s.gather core (b.extents 0).1
  let x0 := (s.core core).loadBuffers b g.2.1 core
  let rows (p : TileAt × Nat) : List (List Num) := b.sums g.2.1 core x0 ((f.accBank + p.2) % 2) p.1
  let x := b.tileList.zipIdx.foldl (fun x p => x.storeAcc b ((f.accBank + p.2) % 2) (rows p)) x0
  t.mem = storeAll s.mem (if b.cmd.hold then []
      else b.tileList.zipIdx.flatMap (fun p => tileStores core (s.core core) b f.bank p.1 (rows p))) ∧
    t.core core = { x.setEngine 0 { s.engine core 0 with
      flights := updateFirst (Flight.awaits opc) (f.finishRead g.2.2) (s.engine core 0).flights } with
        stats := (t.core core).stats, statNotes := (t.core core).statNotes } ∧
    OtherCores s t core ∧ EngineFrame s t ∧ ObjectsBut s t []

/-! ### Stream commands -/

/-- The line of a DRAM address returns data on a read: it is not poisoned, it has no ECC error, and its tag verifies (R409). -/
def LineSound (s : State) (a : Nat) : Prop :=
  nbit (s.lineOf a) 0 = false ∧ nbit (s.lineOf a) 4 = false ∧ nbit (s.lineOf a) 5 = false ∧ nbit (s.lineOf a) 6 = false

/-- No word of a range of SRAM holds an error. -/
def WordsSound (s : State) (a n : Nat) : Prop := s.dirtyWords a n = []

/-- The bytes of a far access hold no error, whatever memory they lie in. -/
def FarSound (s : State) (a n : Nat) : Prop :=
  match s.place a with
  | .dram x => LineSound s (x / 64 * 64)
  | _ => WordsSound s a n

/-- Every access of a far run is admitted by the address map and the protection tables (R37, R169, R412), and meets no
error. -/
def FarGranted (s : State) (r : Requester) (write : Bool) (a n : Nat) : Prop :=
  ∀ c ∈ accessRuns a n, s.farStatus r write c.1 c.2 = 0 ∧ FarSound s c.1 c.2

/-- Memory after a move of STREAM_IN: far address, local offset and length (R280, R283). -/
def moveInMem (core : Nat) (f : Fmt) (n : Nat) (m : List Host.Cell) (v : Nat × Nat × Nat) : List Host.Cell :=
  if f.bits < 8 then
    Tbl.setList Memory.dflt m (spadAddr core v.2.1) (padRow f n (Tbl.getList Memory.dflt m v.1 v.2.2))
  else (accessRuns v.1 v.2.2).foldl (fun m c =>
    Tbl.setList Memory.dflt m (spadAddr core (v.2.1 + (c.1 - v.1))) (Tbl.getList Memory.dflt m c.1 c.2)) m

/-- Memory after a move of STREAM_OUT. -/
def moveOutMem (core : Nat) (f : Fmt) (n : Nat) (m : List Host.Cell) (v : Nat × Nat × Nat) : List Host.Cell :=
  Tbl.setList Memory.dflt m v.1 (padRow f n (Tbl.getList Memory.dflt m (spadAddr core v.2.1) v.2.2))

/-- Memory after a tile row of STREAM_IN with FRT: each row of the channel, expanded from the tiles (R223, R225). -/
def tilesInMem (core : Nat) (b : Bound) (res : Nat) (m : List Host.Cell) (ct : Nat × Nat) : List Host.Cell :=
  let w := b.sdesc
  let f := (b.v 0).format
  let tb := frtTileBytes res
  let run := tileRun w tb ct
  let d := Tbl.getList Memory.dflt m run.1 run.2
  (List.range (min 8 (sdCount w 1 - 8 * ct.2))).foldl (fun m y =>
    Tbl.setList Memory.dflt m (spadAddr core (frtLocal (b.v 0) ct.1 (8 * ct.2 + y)))
      (packRow f ((List.range (sdCount w 0)).map (fun x =>
        frtExpand f (frtOfBytes res ((d.drop (x / 8 * tb)).take tb)) (8 * y + x % 8))))) m

/-- A stream command has run to its end: its flight is finished, its core otherwise as before, and outside memory, the DRAM
command protocol, the sideband of lines and the counters nothing has changed. -/
def StreamDone (s t : State) (core e opc : Nat) (f : Flight) : Prop :=
  Ended s t core e opc f.finish ∧ OnlyCore s t core (fun _ x => x) ∧
    t = { s with cores := t.cores, mem := t.mem, obs := t.obs, chans := t.chans, line := t.line }

/-- Every write of a hub unit under an owner to a range is admitted by the region table, and no line of it holds an error. -/
def HubGranted (s : State) (own a n : Nat) : Prop :=
  ∀ c ∈ accessRuns a n, match s.place c.1 with
    | .hubSram off => s.permits false (off / 0x1000) own none true = .granted
    | .dram x => s.permits true (x / 0x200000) own none true = .granted ∧ LineSound s (x / 64 * 64)
    | _ => False

/-! ### Frames on lanes -/

/-- A frame that comes on a lane is served as it is: the lane is UP, no injection acts on what it receives, and no frame is
held back (R448, R513). -/
def FrameArrives (s : State) (lane : Nat) : Prop :=
  s.laneUp lane = true ∧ s.injects lane 0 = 0 ∧ s.heldRx = none

/-! ### Dictionary requests (R487) -/

/-- A request passes every check that comes before its value: a unit serves the master, BUSY_RETRY, negotiation, index,
feature and sub-index, and the master's rights and the type. -/
def Reaches (s : State) (m op : Nat) (x : DictMsg) : Prop :=
  s.serves m = true ∧ (s.busyCheck m op x).2 = none ∧ s.objectCheck m (keyOf x) = 0 ∧
    ∀ r, objRowOf (keyOf x) = some r → s.rightsCheck m op r x = 0

/-- A master's write of a value to an object passes those checks, the value lies within the object's limits, and the object
may be written in the present state. -/
def WriteAdmitted (s : State) (m : Nat) (tid : BitVec 8) (k v : Nat) : Prop :=
  Reaches s m 2 (valueMessage tid k v) ∧ s.valueOk k v = true ∧ s.unlocked k v = true ∧
    ((objRowOf k).any (fun r => r.acc == .rws) = true → s.writable k = true)

/-- A master's segment of a DOMAIN object passes the checks before its contents, and no abort is to be reported on its
transfer. -/
def SegmentAdmitted (s : State) (m k : Nat) (g : Segment) : Prop :=
  Reaches s m 2 (segmentMessage k g) ∧ g.data.length ≤ maxData m ∧
    (g.offset ≠ 0 → Tbl.get 0 s.aborted (m * 256 + g.tid.toNat) = 0)

/-- A segment that is a whole transfer of an object. -/
def WholeAdmitted (s : State) (m k : Nat) (g : Segment) : Prop :=
  SegmentAdmitted s m k g ∧ g.offset = 0 ∧ g.last = true ∧ g.total.toNat = g.data.length ∧ g.data.length ≤ domainMax k

/-- The request has been answered with a status, and the response has carried the attention flag of its master. -/
def Answered (t : State) (m st : Nat) : Prop :=
  nfld (wordAt (Tbl.get [] t.responses m) 12) 0 8 = st ∧ t.attn.contains m = false

/-- The object counts up by `n`, to its maximum (R577). -/
def Counts (s t : State) (k n : Nat) : Prop := t.o k = satAdd (objMax k) (s.o k) n

/-! ### Contexts (R322) -/

/-- The checks of a start pass: the limits of the context's owner, its cores, its code object, a variant for each tuple the
start must map, its mapping and footprint, its channels, and for a real-time context the plan; `x` is the trial of the
tuple that comes to run and `y` its mapping, with the state in which its queues are configured. -/
def StartPasses (s0 : State) (n : Nat) (x : Trial) (y : Mapped × State) : Prop :=
  let s := s0.enterTable n false
  let own := s.o (ctxObj n 1)
  let img := s.imageOf (s.o (ctxObj n 4))
  let cores := s.configCores n
  countBelow 64 (fun i => i != n && s.ctxActive i && s.o (ctxObj i 1) == own) < s.o (ok (0x3100 + own) 1) ∧
    s.oBit (ok (0x3100 + own) 2) (s.o (ctxObj n 2)) = true ∧ s.badCore n = none ∧ s.objectOk n = true ∧
    ∃ a l, s.startTuples n img = some (a :: l) ∧
      let trial := s.tryConfig n (s.o (ctxObj n 4)) img cores (s.widthCodes cores)
      trial a = x ∧ x.mapped = some y ∧
        (∀ b ∈ a :: l, (trial b).exists_ = true ∧
          ∃ z, (trial b).mapped = some z ∧ s.check5 n img cores z.1 = none) ∧
        s.channelClash n cores = false ∧ (y.1.rt = true → y.2.admitted.2 = true)

/-- No change of power state or frequency waits for a pre-emption. -/
def PowerQuiet (s : State) : Prop :=
  s.power.entering = 0 ∧ s.power.marked = [] ∧ s.o 0x1F2001 = s.o 0x1F2002 ∧ ∀ p, p < 4 → s.slowDue p = false

/-! ### Hub registers -/

/-- The register CLAIM of a tile counter, which is read-only (R337). -/
def isClaim : HubReg → Bool
  | .tile _ _ w => w.val == 2
  | _ => false

/-- Half `w` of a 64-bit map of contexts. -/
def halfOf (x : W64) (w : Nat) : Nat := nfld x.toNat (32 * w) 32

/-- What a register of the hub table holds (R14). -/
def State.regRead (s : State) : HubReg → Nat
  | .view c n w => (Tbl.get 0 (s.core c).views (n.val * 4 + w.val)).toNat
  | .geo c n w => (Tbl.get 0 (s.core c).geos (n.val * 8 + w.val)).toNat
  | .sdesc c n w => (Tbl.get 0 (s.core c).sdescs (n.val * 10 + w.val)).toNat
  | .slot c e b n => (Tbl.get 0 (s.engine c (engCode e)).slots (b.val * 16 + n.val)).toNat
  | .framePeriod c => (s.core c).framePeriod
  | .ctxClass c w => halfOf (s.core c).ctxClass w
  | .ctxEn c w => halfOf (s.core c).ctxEn w
  | .ctxRst c w => halfOf (s.core c).ctxRst w
  | .rtHold c b n => (Tbl.get 0 (s.core c).rtHold (b.val * 8 + n.val)).toNat
  | .rngSeed c n w => (Tbl.get 0 (s.core c).seeds (2 * n.val + w.val)).toNat
  | .scale c b ch w => (Tbl.get 0 (s.core c).scales ((b.val * 2048 + ch.val) * 4 + w.val)).toNat
  | .ctxTab n => (Tbl.get 0 s.ctxTab n).toNat
  | .tile k t w => if w.val = 2 then 0 else (Tbl.get 0 (s.cluster k).tiles (t.val * 2 + w.val)).toNat
  | .scrubCfg => s.scrubCfg.toNat

end Sys2Proof.Machine
end

