-- ==== Sys2Proof/Certificates/Slice0/Obligations.lean ====
section
/-! DEFINITION. The statements for the provers, each a property of the model that a rule of the spec asks for. -/

open Sys2Proof Sys2Proof.Machine

/-! ### Sequencer, handle and matrix-engine register commands -/

/-- R150, R153, R154: a sequencer command at turn, four cycles after its issue, writes the predicate bank of its class and
nothing else; NOP writes nothing. R331, R172: MARK of a best-effort context records its cheap point with the core; in a
real-time context it leaves every record as it was. R188: HINIT, HMARK and HBUMP end after their four cycles, and their
pushes are made when they retire. A bit that SETP inverts is taken as it stood at the start of the cycle (R151). The model's
own choices in it: log 46, 47. -/
def Obligations.SequencerAndHandleCommandsEnd : Prop :=
  (∀ (core : Fin 24) (s : State) (f : Flight), f.issue + 4 ≤ s.coreCycle core →
    let c := f.cmd
    let b := (s.core core).pred f.rt
    let same (t : State) (opc : Nat) : Prop :=
      Ended s t core 4 opc f.finish ∧ OnlyCore s t core (fun y x => { x with preds := y.preds }) ∧
        t = { s with cores := t.cores } ∧ (t.core core).pred (!f.rt) = (s.core core).pred (!f.rt)
    (s.current core 4 0x00 = some f → ∃ t, exec (.nop core) s = .next t ∧ same t 0x00 ∧
      ((t.core core).pred f.rt).counters = b.counters ∧ ((t.core core).pred f.rt).comparators = b.comparators ∧
      ((t.core core).pred f.rt).p58 = b.p58) ∧
    (s.current core 4 0x01 = some f → ∃ t, exec (.setc core) s = .next t ∧ same t 0x01 ∧
      (∀ n, ((t.core core).pred f.rt).counter n = if n = fld c.w3 0 3 then c.w4 else b.counter n) ∧
      ((t.core core).pred f.rt).comparators = b.comparators ∧ ((t.core core).pred f.rt).p58 = b.p58) ∧
    (s.current core 4 0x02 = some f → ∃ t, exec (.addc core) s = .next t ∧ same t 0x02 ∧
      (∀ n, ((t.core core).pred f.rt).counter n = if n = fld c.w3 0 3 then b.counter n + c.w4 else b.counter n) ∧
      ((t.core core).pred f.rt).comparators = b.comparators ∧ ((t.core core).pred f.rt).p58 = b.p58) ∧
    (s.current core 4 0x03 = some f → ∃ t, exec (.cmp core) s = .next t ∧ same t 0x03 ∧
      (∀ n, ((t.core core).pred f.rt).comparator n =
        if n = fld c.w3 0 2 then ⟨fld c.w3 4 3, fld c.w3 8 3, c.w4⟩ else b.comparator n) ∧
      ((t.core core).pred f.rt).counters = b.counters ∧ ((t.core core).pred f.rt).p58 = b.p58) ∧
    (s.current core 4 0x04 = some f → ∃ t, exec (.setp core) s = .next t ∧ same t 0x04 ∧
      (∀ i, i < 4 → nbit ((t.core core).pred f.rt).p58 i =
        if bit c.w3 i then true else if bit c.w3 (4 + i) then false else if bit c.w3 (8 + i) then
          !nbit (b.atStart (s.coreCycle core)).p58 i
        else nbit b.p58 i) ∧
      ((t.core core).pred f.rt).counters = b.counters ∧ ((t.core core).pred f.rt).comparators = b.comparators)) ∧
  (∀ (core : Fin 24) (se : Fin 2) (s : State) (f : Flight), f.issue + 4 ≤ s.coreCycle core →
    (s.current core 4 0x05 = some f → ∃ t, exec (.mark core) s = .next t ∧ Ended s t core 4 0x05 f.finish ∧
      OnlyCore s t core (fun y x => { x with marks := y.marks }) ∧ t = { s with cores := t.cores } ∧
      (∀ n, Tbl.get MarkRec.reset (t.core core).marks n =
        if n = f.cmd.ctx ∧ f.rt = false then
          { id := fld f.cmd.w5 0 16, live := f.cmd.w3.toNat + f.cmd.w4.toNat * 2 ^ 32, mask := some (fld f.cmd.w5 16 4)
            engs := (Tbl.get MarkRec.reset (s.core core).marks n).engs }
        else Tbl.get MarkRec.reset (s.core core).marks n)) ∧
    (s.current core (seOf se) 0x60 = some f → ∃ t, exec (.hinit core se) s = .next t ∧
      Ended s t core (seOf se) 0x60 f.finish ∧ OnlyCore s t core (fun _ x => x) ∧ t = { s with cores := t.cores }) ∧
    (s.current core (seOf se) 0x61 = some f → ∃ t, exec (.hmark core se) s = .next t ∧
      Ended s t core (seOf se) 0x61 f.finish ∧ OnlyCore s t core (fun _ x => x) ∧ t = { s with cores := t.cores }) ∧
    (s.current core (seOf se) 0x62 = some f → ∃ t, exec (.hbump core se) s = .next t ∧
      Ended s t core (seOf se) 0x62 f.finish ∧ OnlyCore s t core (fun _ x => x) ∧ t = { s with cores := t.cores }))

/-! ### Matrix engine and scale file -/

/-- R94, R103 to R106, R109, R208: MMA, MMA_CHIVE and CONV_TAPS compute their tiles in order, leave each in the idle bank,
and drain them in order unless HOLD is set; memory is exactly what the drains store, and of the core only its accumulators,
the ME's buffers for bias and A, its statistics and the engine have changed. A command that continues a held bank (INIT = 2)
has one tile. The model's own choices in it: log 38, 47, 52. -/
def Obligations.MatrixCommandsRunTheirTiles : Prop :=
  ∀ (core : Fin 24) (s : State) (f : Flight),
    f.cmd.init ≠ 2 ∨ (f.bound (s.core core).width).tileList.length ≤ 1 →
    (s.current core 0 0x10 = some f → ∃ t, exec (.mma core) s = .next t ∧ MatrixDone s t core 0x10 f) ∧
    (s.current core 0 0x11 = some f → ∃ t, exec (.mmaChive core) s = .next t ∧ MatrixDone s t core 0x11 f) ∧
    (s.current core 0 0x12 = some f → ∃ t, exec (.convTaps core) s = .next t ∧ MatrixDone s t core 0x12 f)

/-- R177, R179: LOAD_SCALES writes the records of its view to channels CH0 upward of the inactive bank, channel CH0 + i in
cycle issue + 16 + i, unless a write of a later cycle stands there; no other entry changes, and memory does not. R178:
SCALE_SWAP, whose banks were exchanged as it issued (IssuedCommandsLatchTheirOperands), ends, and nothing else changes. The
model's own choices in it: log 43, 47, 52. -/
def Obligations.ScalesAreLoadedAndSwapped : Prop :=
  (∀ (core : Fin 24) (s : State) (f : Flight), s.current core 0 0x13 = some f →
    let x := s.core core
    let n := fld f.cmd.w4 16 11 + 1
    let ch0 := fld f.cmd.w4 0 11
    let v := f.views.getD 0 View.none_
    let g := s.gather core [v.raw (16 * n)]
    ∃ t, exec (.loadScales core) s = .next t ∧ t.mem = s.mem ∧ Ended s t core 0 0x13 (f.finishRead g.2.2) ∧
      OnlyCore s t core (fun y x => { x with scales := y.scales, scaleAt := y.scaleAt }) ∧ EngineFrame s t ∧
      ObjectsBut s t [] ∧
      (∀ i, i < n → Tbl.get 0 x.scaleAt ((1 - x.scaleBank) * 2048 + (ch0 + i)) ≤ 2 * (f.issue + 16 + i) + 2 →
        ∀ w, w < 4 → (t.core core).scaleWord (1 - x.scaleBank) (ch0 + i) w =
          (recordWords (g.2.1.bytes (v.addr core (v.base + 16 * i)) 16)).getD w 0) ∧
      (∀ a, a < (1 - x.scaleBank) * 8192 + ch0 * 4 ∨ (1 - x.scaleBank) * 8192 + (ch0 + n) * 4 ≤ a →
        Tbl.get 0 (t.core core).scales a = Tbl.get 0 x.scales a)) ∧
  (∀ (core : Fin 24) (s : State) (f : Flight), s.current core 0 0x14 = some f →
    ∃ t, exec (.scaleSwap core) s = .next t ∧ Ended s t core 0 0x14 f.finish ∧ OnlyCore s t core (fun _ x => x) ∧
      t = { s with cores := t.cores })

/-- R238, R239: SCALE_UPDATE writes the whole active entry of every channel of its range, with EXP and CLEAN as decided
for the channel or for the tied group, to the inactive bank, unless a write of the same or a later cycle stands there, and
clears AMAX, SATCNT, SEEN and QHI of every channel of the range; no other entry changes, and memory does not. Drain updates
of a channel that come before its cycle take part, and those that come later still wait (R184). The model's own choices in
it: log 47. -/
def Obligations.ScaleUpdateWritesTheRange : Prop :=
  ∀ (core : Fin 24) (s : State) (f : Flight), s.current core 1 0x38 = some f →
    let base := fld f.cmd.w5 0 11
    let n := fld f.cmd.w5 16 11 + 1
    let x := (s.core core).settleNotes (fun p =>
      decide (base ≤ p.ch) && decide (p.ch < base + n) && decide (p.cycle < f.issue + 16 + (p.ch - base) / 4))
    let chs := (List.range n).map (fun i => base + i)
    let tied := chs.filter (x.scTie x.scaleBank)
    let decide_ (l : List Nat) : Adapt := x.decideExp x.scaleBank l (bit f.cmd.w5 27) (fld f.cmd.w6 0 16) (fld f.cmd.w6 16 8)
    ∃ t, exec (.scaleUpdate core) s = .next t ∧ Ended s t core 1 0x38 f.finish ∧
      OnlyCore s t core (fun y z => { z with
        scales := y.scales, scaleAt := y.scaleAt, stats := y.stats, statNotes := x.statNotes }) ∧
      t = { s with cores := t.cores, obs := t.obs } ∧
      (∀ ch, base ≤ ch → ch < base + n →
        let d := if x.scTie x.scaleBank ch then decide_ tied else decide_ [ch]
        let cycle := if x.scTie x.scaleBank ch then f.issue + 16 + (tied.getLastD base - base) / 4
          else f.issue + 16 + (ch - base) / 4
        (t.core core).stat ch 0 = 0 ∧ (t.core core).stat ch 1 = 0 ∧
        (Tbl.get 0 x.scaleAt ((1 - x.scaleBank) * 2048 + ch) ≤ 2 * cycle + 1 →
          ∀ w, w < 4 → (t.core core).scaleWord (1 - x.scaleBank) ch w =
            if w = 3 then put32 (put32 (x.scaleWord x.scaleBank ch 3) 0 8 (trunc 8 d.exp)) 24 8 d.clean
            else x.scaleWord x.scaleBank ch w)) ∧
      (∀ a, a < (1 - x.scaleBank) * 8192 + base * 4 ∨ (1 - x.scaleBank) * 8192 + (base + n) * 4 ≤ a →
        Tbl.get 0 (t.core core).scales a = Tbl.get 0 x.scales a)

/-! ### Vector engine -/

/-- R181, R193 to R205, R217, R248, R252: ELEM, SOFTMAX, NORM, LUT, CAST, RNG_FILL, GATHER, DROPOUT and POOL store exactly
the rows of Z that the operands give, in order (DROPOUT its mask as well), and end; NORM and LUT keep the rows they read
once in the table buffer; nothing else changes but what is logged and counted. The model's own choices in it: log 10, 18,
39, 47, 48, 52, 61. -/
def Obligations.VectorCommandsStoreTheirRows : Prop :=
  ∀ (core : Fin 24) (s : State) (f : Flight),
    let x := s.core core
    let b := f.bound x.width
    let src := (vectorReads core s f).2.1
    let g := vectorEnd core s f
    let z (row : Nat → List Machine.Num) : List (Nat × List Byte) := zStores core b f row
    let xrow (r : Nat) : List Machine.Num := src.row core (b.v 0) (r * (b.v 0).stride) b.cmd.len
    (s.current core 1 0x30 = some f → ∃ t, exec (.elem core) s = .next t ∧
      VectorDone s t core 0x30 g (z (elemRow core src b f)) x []) ∧
    (s.current core 1 0x32 = some f → ∃ t, exec (.softmax core) s = .next t ∧
      VectorDone s t core 0x32 g (z (fun r => (softmaxOf (softmaxIn core src b r)).1)) x []) ∧
    (s.current core 1 0x33 = some f → ∃ t, exec (.norm core) s = .next t ∧
      VectorDone s t core 0x33 g (z (normRow core src b f))
        (if bit b.cmd.w5 1 then
          { x with tableBuf := src.bytes ((b.v 1).addr core (b.v 1).base) (4 * b.cmd.len) ++
                               src.bytes ((b.v 3).addr core (b.v 3).base) (4 * b.cmd.len) }
         else x) []) ∧
    (s.current core 1 0x34 = some f → ∃ t, exec (.lut core) s = .next t ∧
      VectorDone s t core 0x34 g
        (z (fun r => (xrow r).map (lutOf (src.row core (b.v 3) 0 256) (ofBits32 b.cmd.w6.toNat) (ofBits32 b.cmd.w7.toNat))))
        { x with tableBuf := src.bytes ((b.v 3).addr core (b.v 3).base) 1024 } []) ∧
    (s.current core 1 0x35 = some f → ∃ t, exec (.cast core) s = .next t ∧ VectorDone s t core 0x35 g (z xrow) x []) ∧
    (s.current core 1 0x39 = some f → ∃ t, exec (.rngFill core) s = .next t ∧
      VectorDone s t core 0x39 g (z (fun r => (List.range b.cmd.len).map (fun j => f.randomValue (r * b.cmd.len + j)))) x []) ∧
    (s.current core 1 0x3A = some f → ∃ t, exec (.dropout core) s = .next t ∧
      VectorDone s t core 0x3A g
        (z (dropoutRow core src b f) ++ (if bit b.cmd.w5 16 then
          (List.range b.cmd.rows).map (fun r => ((b.v 1).addr core ((b.v 1).base + r * (b.v 1).stride), maskRow b f r))
         else [])) x []) ∧
    (s.current core 1 0x3C = some f → ∃ t, exec (.pool core) s = .next t ∧
      VectorDone s t core 0x3C g ((List.range b.cmd.len).flatMap (fun ch =>
        rowStores core f (b.v 2) (ch * (b.v 2).stride) (ch * (b.g.oh * b.g.ow)) ((List.range (b.g.oh * b.g.ow)).map (fun m =>
          poolOf (fld b.cmd.w5 4 2) (bit b.cmd.w5 6)
            ((b.v 0).format.value (b.g.padv % 2 ^ (b.v 0).format.bits) 127) (poolTaps core src b ch m))))) x []) ∧
    (s.current core 1 0x3D = some f → ∃ t, exec (.gather core) s = .next t ∧
      VectorDone s t core 0x3D g (z (fun r => match rowIndex core src b r with
        | some i => src.row core (b.v 0) (i * (b.v 0).stride) b.cmd.len
        | none => List.replicate b.cmd.len .zero)) x [])

/-- R183, R184, R196, R198, R205, R230, R234, R235, R254, R257: REDUCE stores one element a row and keeps the predicate
bit it writes at retirement; SAMPLE stores its record and counts in SAMPLE_COUNT; SCATTER stores its rows in order, with
ACC = 1 upon what stands there; QUANT and RESCALE store their converted rows and enter them in the statistics. The model's
own choices in it: log 18, 19, 39, 47, 49, 52. -/
def Obligations.VectorCommandsReduceSampleScatterQuantise : Prop :=
  ∀ (core : Fin 24) (s : State) (f : Flight),
    let x := s.core core
    let b := f.bound x.width
    let src := (vectorReads core s f).2.1
    let g := vectorEnd core s f
    let count := ok (0x5540 + b.cmd.ctx) 2
    let quantised (quant : Bool) : List (Nat × List Byte) := (List.range b.cmd.rows).flatMap (fun r =>
      runStores core (b.v 2) (r * (b.v 2).stride) (quantRun core x quant src b f r).2)
    let noted (quant : Bool) : Core := (List.range b.cmd.rows).foldl (fun y r =>
      let q := quantRun core x quant src b f r
      y.noteStats (b.v 2).format ((q.1.map (fun p => p.1)).zip q.2.1)) x
    (s.current core 1 0x31 = some f → ∃ t, exec (.reduce core) s = .next t ∧
      let vals := reduceRows core (s.gather core (b.extents 0).1).2.1 b
      VectorDone s t core 0x31 { g with pbit := if fld f.cmd.w5 4 3 = 0 then none else some (reduceBit f.cmd vals) }
        ((reduceRows core src b).zipIdx.flatMap (fun p =>
          rowStores core f (b.v 2) (p.2 * (b.v 2).stride) (p.2 * b.cmd.len) [p.1.1])) x []) ∧
    (s.current core 1 0x3B = some f → ∃ t, exec (.sample core) s = .next t ∧
      let raw := src.row core (b.v 0) 0 b.cmd.len
      let mode := sampleMode b.cmd (s.o (ok (0x5540 + b.cmd.ctx) 1))
      let logits := raw.map (fun y => if y.isNan then .inf true else y)
      VectorDone s t core 0x3B g [((b.v 2).addr core (b.v 2).base,
        sampleRecord b.cmd mode logits (raw.any Num.isNan)
          (sampleDrawn b.cmd mode logits (rng f.seed.toNat b.cmd.sub b.cmd.w7.toNat)))] x [count] ∧
      t.o count = satAdd (objMax count) (s.o count) 1) ∧
    (s.current core 1 0x3E = some f → ∃ t, exec (.scatter core) s = .next t ∧
      VectorDone s t core 0x3E g (scatterStores core s src b f).1 x []) ∧
    (s.current core 1 0x36 = some f → ∃ t, exec (.quant core) s = .next t ∧
      VectorDone s t core 0x36 g (quantised true) (noted true) []) ∧
    (s.current core 1 0x37 = some f → ∃ t, exec (.rescale core) s = .next t ∧
      VectorDone s t core 0x37 g (quantised false) (noted false) [])

/-! ### Stream engines -/

/-- R185, R225, R278 to R283: a STREAM_IN whose accesses are all admitted and meet no error moves every run of its
descriptor from the far side into the scratchpad, and a STREAM_OUT the other way; with FRT, STREAM_IN expands its tiles
row by row. Nothing else of memory changes. The model's own choices in it: log 21, 53, 54. -/
def Obligations.StreamsMoveTheirRuns : Prop :=
  ∀ (core : Fin 24) (se : Fin 2) (s : State) (f : Flight),
    let b := f.bound (s.core core).width
    let r := f.requester s core
    let w := b.sdesc
    let fm := (b.v 0).format
    let res := (frtResidual (sdFrt w) fm).getD 0
    let sound (l : List (Nat × Nat × Nat)) (write : Bool) : Prop := ∀ v ∈ l,
      FarGranted s r write v.1 v.2.2 ∧ WordsSound s (spadAddr core v.2.1) v.2.2
    bit f.cmd.w3 12 = false → s.localRetry core b = false →
    (s.current core (seOf se) 0x50 = some f → sdFrt w = 0 → sound b.accesses false →
      ∃ t, exec (.streamIn core se) s = .next t ∧ StreamDone s t core (seOf se) 0x50 f ∧ t.line = s.line ∧
        t.mem = b.accesses.foldl (moveInMem core fm (sdN w 0)) s.mem) ∧
    (s.current core (seOf se) 0x51 = some f → sdFrt w = 0 → sound b.accesses true →
      ∃ t, exec (.streamOut core se) s = .next t ∧ StreamDone s t core (seOf se) 0x51 f ∧
        t.mem = b.accesses.foldl (moveOutMem core fm (sdN w 0)) s.mem) ∧
    (s.current core (seOf se) 0x50 = some f → sdFrt w ≠ 0 →
      (∀ ct ∈ tileRows w, FarGranted s r false (tileRun w (frtTileBytes res) ct).1 (tileRun w (frtTileBytes res) ct).2 ∧
        ∀ y, y < 8 → WordsSound s (spadAddr core (frtLocal (b.v 0) ct.1 (8 * ct.2 + y))) (fm.rowBytes (sdCount w 0))) →
      ∃ t, exec (.streamIn core se) s = .next t ∧ StreamDone s t core (seOf se) 0x50 f ∧ t.line = s.line ∧
        t.mem = (tileRows w).foldl (tilesInMem core b res) s.mem)

/-- R185: ACCUMULATOR_SPILL writes the image of the held bank to the far side and leaves the bank held;
ACCUMULATOR_RESTORE loads the image of its context into the idle bank and holds it, and one of another context ends with
ACC_STATE and holds nothing. R186, R262: FILL writes its pattern into every word of its range, and a COPY that meets no
error moves its granules in ascending order; each ends, and nothing else changes. The model's own choices in it: log 22,
59. -/
def Obligations.AccumulatorImagesFillsAndCopiesStore : Prop :=
  (∀ (core : Fin 24) (se : Fin 2) (s : State) (f : Flight),
    let b := f.bound (s.core core).width
    let r := f.requester s core
    let x := s.core core
    bit f.cmd.w3 12 = true →
    (∀ h, s.current core (seOf se) 0x51 = some f → x.held = some h →
      (∀ m ∈ b.imageRuns, m.2.1 + m.2.2 ≤ 8256 ∧ FarGranted s r true m.1 m.2.2) →
      ∃ t, exec (.accumulatorSpill core se) s = .next t ∧ StreamDone s t core (seOf se) 0x51 f ∧
        t.mem = b.imageRuns.foldl (fun m v =>
          Tbl.setList Memory.dflt m v.1 (((x.image h).drop v.2.1).take v.2.2)) s.mem) ∧
    (s.current core (seOf se) 0x50 = some f → (∀ m ∈ b.imageRuns, FarGranted s r false m.1 m.2.2) →
      let d := b.imageRuns.flatMap (fun m => s.bytes m.1 m.2.2)
      let h := holdOfHeader d (1 - x.lastBank)
      64 ≤ d.length →
      ∃ t, exec (.accumulatorRestore core se) s = .next t ∧ t.mem = s.mem ∧ OtherCores s t core ∧
        if h.ctx = f.cmd.ctx then
          Ended s t core (seOf se) 0x50 f.finish ∧
          t.core core = { x.loadImage (1 - x.lastBank) d with
            held := some h, lastBank := 1 - x.lastBank, engines := (t.core core).engines }
        else Ended s t core (seOf se) 0x50 { f with status := 0x07, bad := true } ∧ (t.core core).held = x.held)) ∧
  (∀ (core : Fin 24) (se : Fin 2) (s : State) (f : Flight),
    let b := f.bound (s.core core).width
    let a0 := (b.v 0).addr core (b.v 0).base
    s.localRetry core b = false →
    (s.current core (seOf se) 0x52 = some f →
      ∃ t, exec (.fill core se) s = .next t ∧ Ended s t core (seOf se) 0x52 f.finish ∧ OnlyCore s t core (fun _ x => x) ∧
        EngineFrame s t ∧ ObjectsBut s t [] ∧ t.free = s.free ∧
        t.mem = storeAll s.mem [(a0, (List.replicate (16 * f.cmd.granules) (leBytes 4 f.cmd.w5.toNat)).flatten)]) ∧
    (s.current core (seOf se) 0x53 = some f →
      (∀ i, i < f.cmd.granules → WordsSound s ((b.v 0).addr core ((b.v 0).base + 64 * i)) 64 ∧
        WordsSound s ((b.v 1).addr core ((b.v 1).base + 64 * i)) 64) →
      ∃ t, exec (.copy core se) s = .next t ∧ StreamDone s t core (seOf se) 0x53 f ∧ t.line = s.line ∧
        t.mem = (List.range f.cmd.granules).foldl (fun m i =>
          Tbl.setList Memory.dflt m ((b.v 1).addr core ((b.v 1).base + 64 * i))
            (Tbl.getList Memory.dflt m ((b.v 0).addr core ((b.v 0).base + 64 * i)) 64)) s.mem))

/-- R187, R269 to R271: a WIN_WRITE that meets no error into a window of this device which admits it stores its granules
there and counts them, and pushes its announcement only with NOTIFY; one that the window does not admit stores nothing and
ends with WINDOW; toward another device its packets are sent and the command goes on. REMOTE_WINDOW_WRITE stores the
granules of a packet from another device under the same admission, and none where it is refused or to be retried. The
model's own choices in it: log 23, 56, 101. -/
def Obligations.WindowWritesLandWhereAdmitted : Prop :=
  ∀ (core : Fin 24) (se : Fin 2) (s : State) (f : Flight),
    let b := f.bound (s.core core).width
    let n := fld f.cmd.w3 6 6
    let dev := fld f.cmd.w3 12 2
    let off := 64 * fld f.cmd.w5 0 20
    let a := (b.v 0).addr core (b.v 0).base
    let d := s.bytes a (64 * f.cmd.granules)
    let at_ := memBase (s.windowAt n off).1 + (s.windowAt n off).2
    (s.current core (seOf se) 0x54 = some f → s.localRetry core b = false → WordsSound s a (64 * f.cmd.granules) →
      (dev = s.devNum → s.windowAnswer n dev f.cmd.own off (64 * f.cmd.granules) = 0 →
        ∃ t, exec (.winWrite core se) s = .next t ∧ t.mem = Tbl.setList Memory.dflt s.mem at_ d ∧
          Ended s t core (seOf se) 0x54 f.finish ∧ OnlyCore s t core (fun _ x => x) ∧ (bit f.cmd.w3 14 = false → t.hqs = s.hqs) ∧
          t.o (ok (0x6200 + n) 3) = satAdd (objMax (ok (0x6200 + n) 3)) (s.o (ok (0x6200 + n) 3)) (d.length / 64) ∧
          t = { s with cores := t.cores, mem := t.mem, ecc := t.ecc, obs := t.obs, obj := t.obj, hqs := t.hqs,
                       forwards := t.forwards, rels := t.rels, inject := t.inject, wins := t.wins,
                       closingWins := t.closingWins }) ∧
      (dev = s.devNum → s.windowAnswer n dev f.cmd.own off (64 * f.cmd.granules) = 1 →
        ∃ t, exec (.winWrite core se) s = .next t ∧ OnlyCore s t core (fun _ x => x) ∧
          Ended s t core (seOf se) 0x54 { f with status := 0x0C, bad := true } ∧
          t.o (ok (0x6200 + n) 4) = satAdd (objMax (ok (0x6200 + n) 4)) (s.o (ok (0x6200 + n) 4)) 1 ∧
          t = { s with cores := t.cores, obs := t.obs, obj := t.obj, wins := t.wins, closingWins := t.closingWins }) ∧
      (dev ≠ s.devNum → (s.linkTo dev).isSome = true →
        ∃ t, exec (.winWrite core se) s = .next t ∧ OnlyCore s t core (fun _ x => x) ∧
          Ended s t core (seOf se) 0x54 { f with started := true } ∧
          t.writes = s.writes ++ [⟨core, f.cmd.eng, writeTag core f.cmd.eng f.pos, dev, if f.rt then 0 else 1, n,
            bit f.cmd.w3 14, f.cmd.own, packetsOf f.rt (fld f.cmd.w5 0 20) d, false⟩] ∧
          t = { s with cores := t.cores, writes := t.writes, rels := t.rels, obj := t.obj, inject := t.inject
                       wins := t.wins, closingWins := t.closingWins })) ∧
    (∀ (src own : Fin 4) (k : Fin 64) (woff first : Fin 0x100000) (notify last : Bool) (l : List Byte),
      l.length ≠ 0 → l.length % 64 = 0 → l.length ≤ 512 →
      let ans := if s.windowClosing k then 1 else s.windowAnswer k src own (64 * woff) l.length
      let p := s.windowAt k (64 * woff)
      ∃ t, exec (.remoteWindowWrite src own k woff first notify last l) s = .next t ∧
        t.reply = some (if ans = 0 then 0 else if ans = 1 then 0x12 else 0xF0, []) ∧
        (t.mem = if ans = 0 then Tbl.setList Memory.dflt s.mem (memBase p.1 + p.2) l else s.mem) ∧
        (¬(ans = 0 ∧ notify = true ∧ last = true) → t.hqs = s.hqs) ∧
        t = { s with mem := t.mem, ecc := t.ecc, obs := t.obs, obj := t.obj, hqs := t.hqs, forwards := t.forwards,
                     rels := t.rels, inject := t.inject, reply := t.reply
                     power := if ans = 0 ∨ ans = 1 then s.power else { s.power with wakes := t.power.wakes } })

/-! ### Command queues -/

/-- R29: an append to a full queue is refused: the command is not stored, the queue's overflow counter counts it, up to
255 where it stays, and nothing else of the queue changes, nor any other queue. -/
def Obligations.FullQueuesRefuseAppends : Prop :=
  ∀ (core : Fin 24) (eng : Eng) (c : Cmd) (s : State), 64 ≤ (s.engine core (engCode eng)).queue.length →
    (scaleWriter c && s.publishedCore core c.ctx) = false → s.stopped (core / 4) = false →
    ∃ t, exec (.queueAppend core eng c) s = .next t ∧
      t.engine core (engCode eng) = { s.engine core (engCode eng) with
        overflow := min ((s.engine core (engCode eng)).overflow + 1) 255 } ∧
      (∀ i, i ≠ engCode eng → t.engine core i = s.engine core i) ∧ (∀ d, d ≠ core.val → t.core d = s.core d) ∧
      SettledFrom { s with cores := t.cores } t

/-- R28, R29, R127, R128: a well-formed command whose turn has come stands at the tail of a queue that is not full, with the
next position, and releases a gated core clock; a full queue refuses it and counts an overflow, and a malformed command is
refused and counted. No other engine changes. R324, R325, R328, R330: a command whose turn has not come is not appended; a
best-effort command that is appended has its group open, and its SLOT_END closes the group unless a chain of held banks goes
on. While a publication is under way, a command of another context that changes scales is not appended (R368), and the
control core of a stopped cluster appends nothing (R25). An append that completes a segment of a best-effort context whose
engine with the largest sum of budgets exceeds SEGMENT_MAX_NS counts in SEGMENT_OVERRUNS. The model's own choices in it:
log 40, 66, 181. -/
def Obligations.QueueAppendsStandAtTheTail : Prop :=
  ∀ (core : Fin 24) (eng : Eng) (c : Cmd) (s : State),
    let e := engCode eng
    let y := s.engine core e
    let w := s.workingCopy c
    let held := (scaleWriter c && s.publishedCore core c.ctx) || s.stopped (core / 4)
    let admitted := y.queue.length < 64 ∧ s.appendOk core eng w = true
    (held = true → exec (.queueAppend core eng c) s = .next s) ∧
    (held = false →
      ∃ t, exec (.queueAppend core eng c) s = .next t ∧ (∀ d, d ≠ core.val → t.core d = s.core d) ∧
        (∀ i, i ≠ e → t.engine core i = s.engine core i) ∧
        SettledFrom { s with cores := t.cores } t ∧
        OnlyCore s t core (fun z x => { x with clockGated := z.clockGated, segs := z.segs, segOut := z.segOut }) ∧
        (64 ≤ y.queue.length → t.engine core e = { y with overflow := satAdd 255 y.overflow 1 }) ∧
        (y.queue.length < 64 → s.appendOk core eng w = false →
          t.engine core e = { y with malformed := satAdd 255 y.malformed 1 }) ∧
        (admitted → s.appendTurn core e w = none → t.engine core e = y) ∧
        (∀ z, admitted → s.appendTurn core e w = some z →
          let q := { z with queue := y.queue ++ [⟨y.appended % 64, w, s.coreCycle core⟩], appended := (y.appended + 1) % 64 }
          t.engine core e = if (s.core core).isRt w then q
            else { q.endGroup w with next := Tbl.set 0 y.next w.ctx (Tbl.get 0 y.next w.ctx + 1) }) ∧
        ((t.core core).clockGated = true ↔
          (s.core core).clockGated = true ∧ ¬(admitted ∧ (s.appendTurn core e w).isSome = true)) ∧
        (let r := (Tbl.get SegRec.reset (s.core core).segs w.ctx).add w;
          admitted → (s.appendTurn core e w).isSome = true → bit (s.core core).ctxClass w.ctx = false → r.whole = true →
            s.o (ctxObj w.ctx 7) * s.clusterMhz (core / 4) < r.cycles * 1000 → Counts s t (ctxObj w.ctx 0xF) 1))

/-- R130, R131, R138: when the oldest command of a class of an engine is considered, its time has come, its gate is
satisfied and its engine is free, it leaves its queue. If its checks pass, no handle taken carries INVALID or SKIP and its
predicate holds, it executes: one command more in the engine, with its operands latched; otherwise it passes and nothing
executes. R178: a SCALE_SWAP that executes exchanges the banks of the scale file in that cycle; no other command does. The
model's own choices in it: log 16, 17, 43. -/
def Obligations.IssuedCommandsLatchTheirOperands : Prop :=
  ∀ (core : Fin 24) (eng : Eng) (rt : Bool) (s : State) (q : QEntry) (r : List QEntry),
    let e := engCode eng
    let x := s.core core
    let now := s.coreCycle core
    let u := s.noteStart core e rt q.cmd (r.map (fun z => z.cmd))
    let g := u.issueTake core q rt
    let b := x.bind q.cmd (g.1 ++ g.2.1)
    let status := (Issue.mk g.2.2 core b g.1 g.2.1).status
    let runs := status = 0 ∧ g.1.any hInvalid = false ∧ g.1.any hSkip = false ∧ x.predicate q.cmd rt now = true
    x.ofClass e rt = q :: r → q.cmd.eng = e → (x.engine e).rstPending = none → EnginesQuiet s core →
    s.clockRuns core = true → x.outOfUse = 0 → x.mayIssue e q.cmd now = true → q.since < now → x.purges q.cmd = false →
    u.timeOk core e rt q.cmd (r.map (fun z => z.cmd)) = true → s.gateOk (core.val / 4) q.cmd = true →
    x.engineFree e q.cmd now = true → s.popTurn core q.cmd = true → (¬runs → s.pushTurn core q.cmd = true) →
    ∃ t, exec (.commandIssue core eng rt) s = .next t ∧ (∀ d, d ≠ core.val → t.core d = s.core d) ∧
      (∀ i, i ≠ e → t.engine core i = s.engine core i) ∧ (t.engine core e).queue = dropClass x rt (x.engine e).queue ∧
      (t.engine core e).lastIssue = some now ∧
      t = { s with cores := t.cores, hqs := t.hqs, obs := t.obs, obj := t.obj, forwards := t.forwards,
                   credits := t.credits, rels := t.rels, inject := t.inject, reqs := t.reqs } ∧
      t.reqs = (if status = 7 ∧ rt = false ∧ e = 0 ∧ bit x.lostHolds q.cmd.ctx = true then
        s.reqs ++ [⟨1, q.cmd.ctx, 0, none, true⟩] else s.reqs) ∧
      (t.core core).scaleBank = (if runs ∧ q.cmd.opc = 0x14 then 1 - x.scaleBank else x.scaleBank) ∧
      (¬runs → (t.engine core e).flights = (x.engine e).flights) ∧
      (runs → ∃ f, (t.engine core e).flights = (x.engine e).flights ++ [f] ∧ f.cmd = q.cmd ∧ f.pos = q.pos ∧ f.rt = rt ∧
        f.issue = now ∧ f.ins = g.1 ∧ f.frees = g.2.1 ∧ f.views = b.views ∧ f.geo = b.geo ∧ f.sdesc = b.sdesc ∧
        f.seed = x.seed q.cmd.ctx ∧ f.bank = x.scaleBank ∧ f.done = false ∧ f.status = 0)

/-- R136, R144, R170, R183: the oldest command of an engine retires once its effect is done and its duration over, and a
stream command that has met a fault ends at once: it leaves its engine, writes the predicate bit of its REDUCE unless a SETP
has written it in the same cycle (R152), and pushes handles to no queue but its own OUTQ, RETQ and, for HINIT, HQ. One that
is not due, is past its watchdog's limit, or whose pushes come out of their turn (R292) stays; so does a stream command that
met a fault while packets of it await their answers. R143, R148, R149: a command that has not retired by its issue + B + B /
8 is stopped: it leaves its engine with no handle pushed, the engine issues no command of its context from then on, unless
its CTXRST bit is set, and a context reset is requested. A real-time slot that ends with no SLOT_END issued is missed, and
an engine reset is requested. The model's own choices in it: log 160. -/
def Obligations.CommandsRetireStopOrMiss : Prop :=
  (∀ (core : Fin 24) (eng : Eng) (se : Fin 2) (s : State) (f : Flight) (r : List Flight), EnginesQuiet s core →
    let ends := (f.inTime (s.coreCycle core) && s.pushTurn core f.cmd) = true
    let left (t : State) (e : Nat) : Prop :=
      t.engine core e = { s.engine core e with flights := r } ∧ (∀ i, i ≠ e → t.engine core i = s.engine core i) ∧
        (∀ d, d ≠ core.val → t.core d = s.core d) ∧
        (t.core core).preds = (match f.pbit with
          | some v =>
            if ((s.core core).pred f.rt).setpWins (fld f.cmd.w5 4 3 - 5) (s.coreCycle core) then (s.core core).preds
            else ((s.core core).setPred f.rt
              ((((s.core core).pred f.rt).latch (s.coreCycle core)).setBit (fld f.cmd.w5 4 3 - 5) v)).preds
          | none => (s.core core).preds) ∧
        t = { s with cores := t.cores, hqs := t.hqs, obs := t.obs, obj := t.obj, forwards := t.forwards, rels := t.rels,
                     inject := t.inject } ∧
        ∀ u n : Nat, n < 32 → (u ≠ core.val / 4 ∨ (n ≠ f.cmd.outq ∧ n ≠ f.cmd.retq ∧ (f.cmd.opc = 0x60 → n ≠ fld f.cmd.w3 0 5))) →
          t.hq u n = s.hq u n
    ((s.engine core (engCode eng)).flights = f :: r →
      (f.due (s.coreCycle core) = true → ends →
        ∃ t, exec (.commandRetire core eng) s = .next t ∧ left t (engCode eng)) ∧
      (¬(f.due (s.coreCycle core) = true ∧ ends) → exec (.commandRetire core eng) s = .next s)) ∧
    ((s.engine core (seOf se)).flights = f :: r → f.status ≠ 0 →
      (ends → s.awaits core (seOf se) f = false → ∃ t, exec (.streamFaultEnd core se) s = .next t ∧ left t (seOf se)) ∧
      (¬(ends ∧ s.awaits core (seOf se) f = false) → exec (.streamFaultEnd core se) s = .next s))) ∧
  (∀ (core : Fin 24) (eng : Eng) (s : State),
    let e := engCode eng
    let y := s.engine core e
    let now := s.coreCycle core
    (∀ f r, takeFirst (fun g : Flight => decide (g.issue + watchOf g.cmd ≤ now) && !(g.due now && g.inTime now)) y.flights =
        some (f, r) → EnginesQuiet s core →
      ∃ t, exec (.watchdogExpiry core eng) s = .next t ∧
        t.engine core e = { y with
          flights := r, hung := if bit (s.core core).ctxRst f.cmd.ctx then y.hung else putBit64 y.hung f.cmd.ctx true } ∧
        OtherCores s t core ∧ t.reqs = s.reqs ++ [⟨1, f.cmd.ctx, 0x03, some (core.val * 8 + e), true⟩] ∧
        t = { s with cores := t.cores, obs := t.obs, obj := t.obj, reqs := t.reqs, wins := t.wins
                     closingWins := t.closingWins }) ∧
    (∀ tick a l, (s.core core).tickAt = some tick →
      (y.usedSlots (s.core core).frameActive)[y.slotIdx]? = some (a, l) → tick + a + l ≤ now → y.slotMiss = false →
      ∃ t, exec (.slotMiss core eng) s = .next t ∧ t.engine core e = { y with slotMiss := true } ∧ OtherCores s t core ∧
        t.reqs = s.reqs ++ [⟨2, core.val * 8 + e, 0x03, some (core.val * 8 + e), true⟩] ∧
        t = { s with cores := t.cores, obs := t.obs, obj := t.obj, reqs := t.reqs }))

/-- R555: an HINIT of a context in reset, submitted to a stream engine with no submission outstanding, is taken, and where
the engine is free, its clock runs and no slot or hold window stands in the way it issues at once if its checks pass;
anything else is refused and logged. No command queue and no memory changes. The model's own choices in it: log 63. -/
def Obligations.ResetCommandsAreTakenOrRefused : Prop :=
  ∀ (core : Fin 24) (se : Fin 2) (c : Cmd) (s : State),
    let e := seOf se
    let y := s.engine core e
    let busy := y.rstPending.isSome || y.flights.any (fun f => f.rstcmd)
    let fits := c.opc = 0x60 ∧ c.eng = e ∧ bit (s.core core).ctxRst c.ctx = true ∧ busy = false
    let v := s.rstSubmit core e c
    let v1 := v.setEngine core e { v.engine core e with rstPending := none }
    let now := s.coreCycle core
    let free := (s.cluster (core / 4)).pllLocked = true ∧ s.stopped (core / 4) = false ∧ y.flights.length < 4 ∧
      (s.core core).openSlot e now = none ∧ (s.core core).holdFits now 0 = true
    (∀ d, y.rstPending = some d → d.eng = e) →
    ∃ t, exec (.rstcmdSubmit core se c) s = .next t ∧ (t.engine core e).queue = y.queue ∧
      (∀ d, d ≠ core.val → t.core d = s.core d) ∧ (∀ i, i ≠ e → t.engine core i = s.engine core i) ∧
      t = { s with cores := t.cores, obs := t.obs, obj := t.obj } ∧
      (fits → (t.core core).clockGated = false ∧
        ((t.engine core e).rstPending = some c ∧ (t.engine core e).flights = y.flights ∨
         (t.engine core e).rstPending = none ∧ (t.engine core e).rstRefused = true ∧ (t.engine core e).flights = y.flights ∨
         (t.engine core e).rstPending = none ∧
           ∃ f, (t.engine core e).flights = y.flights ++ [f] ∧ f.cmd = c ∧ f.rstcmd = true)) ∧
      (fits → free → (Issue.mk v1 core ((v.core core).bind c []) [] []).status = 0 →
        (t.engine core e).rstPending = none ∧
          ∃ f, (t.engine core e).flights = y.flights ++ [f] ∧ f.cmd = c ∧ f.rstcmd = true ∧ f.issue = now) ∧
      (¬fits → (t.engine core e).rstRefused = true ∧ (y.rstPending = none → (t.engine core e).flights = y.flights ∧
        Tbl.get 0 t.obs.classCounts 0x26 = satAdd (2 ^ 32 - 1) (Tbl.get 0 s.obs.classCounts 0x26) 1))

/-! ### Handle queues -/

/-- R292 to R297: a handle forwarded within the device arrives at its target queue, which holds it, INVALID where its
generation is not the one expected, or refuses and counts it. R295: a credit that arrives frees one place of its source, for
pushes of later cycles (R292). R290, R296: a queue takes a configuration word that is legal and keeps its value otherwise.
The model's own choices in it: log 17, 55. -/
def Obligations.HandlesReachTheirTargets : Prop :=
  (∀ (u : Fin 8) (q : Fin 32) (s : State) (tr : Transit) (rest : List Transit),
    let x := s.hq tr.unit tr.q
    let cyc := s.unitCycle tr.unit
    let stale := bit x.w0 19 && hGen tr.h != fld x.w0 20 12
    takeFirst (fun t : Transit => t.srcUnit == u.val && t.srcQ == q.val && t.dev == s.devNum) s.forwards = some (tr, rest) →
    ¬(tr.unit < 6 ∧ s.stopped tr.unit = true) → x.isForward = false →
    ∃ t, exec (.handleForwardArrival u q) s = .next t ∧ t.forwards = rest ∧
      t = { s with hqs := t.hqs, forwards := t.forwards, obs := t.obs, obj := t.obj } ∧
      (∀ v r, v * 32 + r ≠ tr.unit * 32 + tr.q → t.hq v r = s.hq v r) ∧
      t.hq tr.unit tr.q =
        (if x.accepts (s.unitCycle tr.unit) tr.h (.forwarded s.devNum u q) then
          { x with items := x.items ++ [⟨if stale then withFlags tr.h (hLast tr.h) (hSkip tr.h) true else tr.h,
                     if tr.unit = hubUnit ∨ (s.cluster tr.unit).frac = 0 then cyc else cyc + 1, true⟩]
                   genbad := if stale then satAdd 255 x.genbad 1 else x.genbad
                   pushCycle := cyc, pushKey := if x.pushCycle = cyc then max x.pushKey 192 else 192 }
         else { x with viol := satAdd 255 x.viol 1 })) ∧
  (∀ (u : Fin 8) (q : Fin 32) (s : State) (tr : Transit) (rest : List Transit),
    takeFirst (fun t : Transit => t.unit == u.val && t.q == q.val && t.dev == s.devNum) s.credits = some (tr, rest) →
    ¬(u.val < 6 ∧ s.stopped u.val = true) →
    ∃ t, exec (.creditArrival u q) s = .next t ∧ t.credits = rest ∧
      t = { s with hqs := t.hqs, credits := t.credits } ∧ (∀ v r, v * 32 + r ≠ u.val * 32 + q.val → t.hq v r = s.hq v r) ∧
      t.hq u q = { s.hq u q with
        occ := (s.hq u q).occ - 1, popCycle := s.unitCycle u, popKey := 0
        popCount := (if (s.hq u q).popCycle = s.unitCycle u then (s.hq u q).popCount else 0) + min 1 (s.hq u q).occ }) ∧
  (∀ (u : Fin 8) (q : Fin 32) (w : Fin 2) (v : W32) (s : State),
    let x := s.hq u q
    let y := if w.val = 0 then { x with w0 := v } else { x with w1 := v }
    let legal := hqWordOk w v = true ∧ (q.val ≠ 31 ∨ u.val = hubUnit) ∧ (s.setHq u q y).endsFit u q = true
    (legal → ∃ t, exec (.handleQueueConfig u q w v) s = .next t ∧ t = { s with hqs := t.hqs } ∧ t.hq u q = y ∧
      ∀ a b, a * 32 + b ≠ u.val * 32 + q.val → t.hq a b = s.hq a b) ∧
    (¬legal → ∃ t, exec (.handleQueueConfig u q w v) s = .next t ∧ t = { s with obs := t.obs, obj := t.obj }))

/-! ### Core and hub registers -/

/-- R137, R299, R317, R326: a frame's tick reaches a core once, t_FTK = 20 ns or more after the frame start; it swaps the
banks where a swap is pending and starts every engine at slot 0; FRAME.SWAP makes a swap pending where the inactive banks
obey the rules. R118, R64: ME.CFG is written on a fenced core where it is legal, WIDTH read as 0, and the repair state
records it. Each refused write leaves its register. R14, R15: a register of the hub table that is written with a legal word
reads as that word, and every other register of the table reads as before; a word with a reserved bit set, or a value out of
range, changes no register. CLAIM is read-only. The model's own choices in it: log 63, 64. -/
def Obligations.RegistersSwapAndReadAsWritten : Prop :=
  (∀ (core : Fin 24) (v : W32) (s : State),
    let x := s.core core
    (∀ f, s.loop.start = some f → f + 20 ≤ s.now → x.tickFor ≠ f + 1 →
      ∃ t, exec (.coreFrameTick core) s = .next t ∧ t = { s with cores := t.cores } ∧ (t.core core).tickFor = f + 1 ∧
      (t.core core).tickAt = some (s.coreCycle core) ∧ (t.core core).swapPend = false ∧
      (t.core core).frameActive = (if x.swapPend then 1 - x.frameActive else x.frameActive) ∧
      (∀ i, i < 5 → t.engine core i = { s.engine core i with slotIdx := 0 }) ∧
      OnlyCore s t core (fun y z => { z with
        tickAt := y.tickAt, tickFor := y.tickFor, swapPend := y.swapPend, frameActive := y.frameActive })) ∧
    (s.tickDue core = none → exec (.coreFrameTick core) s = .next s) ∧
    (x.inactiveOk = true → ∃ t, exec (.frameSwapWrite core) s = .next t ∧ t = { s with cores := t.cores } ∧
      t.core core = { x with swapPend := true } ∧ OtherCores s t core) ∧
    (x.inactiveOk = false →
      ∃ t, exec (.frameSwapWrite core) s = .next t ∧ t = { s with obs := t.obs, obj := t.obj }) ∧
    ((x.fenced && meCfgOk x.meCfg v) = true → ∃ t, exec (.meCfgWrite core v) s = .next t ∧
      t = { s with cores := t.cores, obj := t.obj, flash := t.flash } ∧ OtherCores s t core ∧
      t.core core = { x with meCfg := put32 v 24 6 0 } ∧ Tbl.get 0 t.flash.cfg core = put32 v 24 6 0 ∧
      SettledBut s t [0x800003, ok (0x8200 + core) 1, ok (0x8200 + core) 2, ok (0x8200 + core) 3]) ∧
    ((x.fenced && meCfgOk x.meCfg v) = false →
      ∃ t, exec (.meCfgWrite core v) s = .next t ∧ t = { s with obs := t.obs, obj := t.obj })) ∧
  (∀ (r : HubReg) (v : W32) (s : State),
    (regWordOk r v = true → ∃ t, exec (.registerWrite r v) s = .next t ∧
      t = { s with cores := t.cores, clusters := t.clusters, ctxTab := t.ctxTab, scrubCfg := t.scrubCfg } ∧
      (isClaim r = false → t.regRead r = v.toNat) ∧ (∀ p, p ≠ r → t.regRead p = s.regRead p) ∧
      ∀ c e, (t.engine c e).queue = (s.engine c e).queue ∧ (t.engine c e).flights = (s.engine c e).flights) ∧
    (regWordOk r v = false →
      ∃ t, exec (.registerWrite r v) s = .next t ∧ t = { s with obs := t.obs, obj := t.obj }))

/-- R337: CLAIM answers NEXT and advances it while it stands below LIMIT of an enabled counter, and answers 0xFFFF_FFFF
otherwise. R264 to R266: a write of an owner-map word sets OWN and VALID, keeps HOLDER, and marks the region for a clear
where it becomes valid for another owner than its holder; no other word changes. R268: a write that takes a region from
an open window closes the window first, and waits for the writes admitted to it. At the end of the sweep every region
marked is zero and held by its owner, and the bytes of every other region are as before. The model's own choices in it:
log 58. -/
def Obligations.TilesAndOwnerMapsAreHandedOut : Prop :=
  (∀ (k : Fin 6) (n : Fin 4) (s : State),
    let next := fld (Tbl.get 0 (s.cluster k).tiles (n.val * 2)) 0 24
    let w1 := Tbl.get 0 (s.cluster k).tiles (n.val * 2 + 1)
    ∃ t, exec (.tileClaim k n) s = .next t ∧ t = { s with clusters := t.clusters, reply := t.reply } ∧
      (bit w1 31 = true → next < fld w1 0 24 → t.reply = some (0, leBytes 4 next) ∧
        fld (Tbl.get 0 (t.cluster k).tiles (n.val * 2)) 0 24 = next + 1 ∧
        (∀ i, i ≠ n.val * 2 → Tbl.get 0 (t.cluster k).tiles i = Tbl.get 0 (s.cluster k).tiles i)) ∧
      (¬(bit w1 31 = true ∧ next < fld w1 0 24) → t.reply = some (0, [0xFF, 0xFF, 0xFF, 0xFF]) ∧ t.clusters = s.clusters)) ∧
  ((∀ (m : Fin 30) (n : Fin 64) (v : W32) (s : State),
    let old := s.omapWord m n
    let lost := bit old 2 = true ∧ (bit v 2 = false ∨ fld v 0 2 ≠ fld old 0 2)
    let covers (k : Nat) : Prop := k < 64 ∧ (windowRegions (s.win k 0)).contains (m.val, n.val) = true
    (fld v 6 26 = 0 → lost → ∀ k, covers k → bit (s.win k 0) 31 = true → s.windowAdmitted k ≠ 0 →
      ∃ t, exec (.ownerMapWrite m n v) s = .next t ∧ t.windowClosing k = true ∧
        t = { s with wins := t.wins, closingWins := t.closingWins, obj := t.obj }) ∧
    (fld v 6 26 = 0 →
      (lost → ∀ k, covers k → s.windowClosing k = false ∧ (bit (s.win k 0) 31 = true → s.windowAdmitted k = 0)) →
      ∃ t, exec (.ownerMapWrite m n v) s = .next t ∧
      fld (t.omapWord m n) 0 2 = fld v 0 2 ∧ bit (t.omapWord m n) 2 = bit v 2 ∧
      fld (t.omapWord m n) 3 2 = fld old 3 2 ∧
      bit (t.omapWord m n) 5 = ((bit v 2 && fld v 0 2 != fld old 3 2) || bit old 5) ∧
      (∀ k, k ≠ m.val * 64 + n.val → Tbl.get 0 t.omap k = Tbl.get 0 s.omap k) ∧
      t = { s with omap := t.omap, wins := t.wins, closingWins := t.closingWins, obj := t.obj }) ∧
    (fld v 6 26 ≠ 0 → ∃ t, exec (.ownerMapWrite m n v) s = .next t ∧ t = { s with obs := t.obs, obj := t.obj })) ∧
  (∀ (m : Fin 30) (s : State), ∃ t, exec (.ownerMapClearDone m) s = .next t ∧
    t = { s with omap := t.omap, mem := t.mem, ecc := t.ecc, obs := t.obs } ∧
    ∀ n, n < 64 → let w := s.omapWord m n
      (bit w 5 = true → bit (t.omapWord m n) 5 = false ∧ fld (t.omapWord m n) 3 2 = fld w 0 2 ∧
        fld (t.omapWord m n) 0 3 = fld w 0 3 ∧ ∀ i, i < regionUnit m → t.byte (memBase m + n * regionUnit m + i) = 0) ∧
      (bit w 5 = false → t.omapWord m n = w ∧
        ∀ i, i < regionUnit m → t.byte (memBase m + n * regionUnit m + i) = s.byte (memBase m + n * regionUnit m + i))))

/-! ### Owner maps and the region table -/

/-- R31, R32, R411, R414: an entry of the region table that is written takes its new words at once where they remove no
right; where they do, it keeps its words and closes, and takes the new ones when the accesses admitted have drained, a
hub cycle or more later. A
write that breaks R411 leaves it. R413: a granule of an entry that is clearing becomes zero and held by the entry's owner.
The model's own choices in it: log 160. -/
def Obligations.RegionEntriesChangeInOrder : Prop :=
  (∀ (e : Fin 64) (w0 w1 : W32) (s : State),
    let only (t : State) : Prop := t = { s with rgns := t.rgns, rgnNext := t.rgnNext, obj := t.obj } ∧
      ∀ d k, d ≠ e.val → k < 2 → t.rgn d k = s.rgn d k
    (s.rgnOk e w0 w1 = true → rgnRemoves (s.rgn e 0) (s.rgn e 1) w0 w1 = false →
      ∃ t, exec (.regionEntryWrite e w0 w1) s = .next t ∧ only t ∧ t.rgn e 0 = w0 ∧
        (∀ i, i < 8 → bit (t.rgn e 1) i = bit w1 i) ∧ bit (t.rgn e 1) 8 = false ∧ Tbl.get none t.rgnNext e = none) ∧
    (s.rgnOk e w0 w1 = true → rgnRemoves (s.rgn e 0) (s.rgn e 1) w0 w1 = true →
      ∃ t, exec (.regionEntryWrite e w0 w1) s = .next t ∧ only t ∧ t.rgn e 0 = s.rgn e 0 ∧ bit (t.rgn e 1) 8 = true ∧
        Tbl.get none t.rgnNext e = some (w0, w1, s.clk.hub)) ∧
    (s.rgnOk e w0 w1 = false →
      ∃ t, exec (.regionEntryWrite e w0 w1) s = .next t ∧ t = { s with obs := t.obs, obj := t.obj }) ∧
    (Tbl.get none s.rgnNext e = none → exec (.regionCloseComplete e) s = .next s) ∧
    (∀ k, Tbl.get none s.rgnNext e = some (w0, w1, k) → s.clk.hub ≤ k → exec (.regionCloseComplete e) s = .next s) ∧
    (∀ k, Tbl.get none s.rgnNext e = some (w0, w1, k) → k < s.clk.hub →
      ∃ t, exec (.regionCloseComplete e) s = .next t ∧ only t ∧ t.rgn e 0 = w0 ∧
        (∀ i, i < 8 → bit (t.rgn e 1) i = bit w1 i) ∧ bit (t.rgn e 1) 8 = false ∧ Tbl.get none t.rgnNext e = none)) ∧
  (∀ (dram : Bool) (g : Fin 4096) (e : Nat) (s : State),
    let own := fld (s.rgn e 0) 25 2
    let n := if dram then 0x200000 else 0x1000
    let a := if dram then g.val * 0x200000 else hubAddr (g.val * 0x1000)
    s.coverOf dram g = some e → bit (s.rgn e 1) 9 = true → Tbl.get 0 s.holders (holderKey dram g) ≠ own + 1 →
    ∃ t, exec (.hubGranuleClear dram g) s = .next t ∧ (∀ i, i < n → t.byte (a + i) = 0) ∧ SameBytesBut s t a n ∧
      Tbl.get 0 t.holders (holderKey dram g) = own + 1 ∧
      t = { s with mem := t.mem, ecc := t.ecc, line := t.line, obs := t.obs, holders := t.holders, rgns := t.rgns,
                   obj := t.obj })

/-! ### Memory maintenance -/

/-- R273: the write-back of a corrected word clears its mark, and nothing else. R275: the scrubber reads the next granule
of a bank and goes on; no byte of memory changes. R276: a pass that has not finished within its period is late, and goes
on. R573: a poisoned word placed from a pinned image is rewritten from it with its granule, or a partition reset of
partition 0 is requested where a publication lies over it. The model's own choices in it: log 24, 75. -/
def Obligations.SramWordsAreScrubbedAndRewritten : Prop :=
  (∀ (m : Fin 31) (word : Fin 524288) (s : State), ∃ t, exec (.eccWriteBack m word) s = .next t ∧ t = { s with ecc := t.ecc } ∧
    ∀ k, Tbl.get 0 t.ecc k =
      if k = memBase m / 16 + word.val ∧ Tbl.get 0 s.ecc k = 4 then 0 else Tbl.get 0 s.ecc k) ∧
  (∀ (m : Fin 31) (bank : Fin 16) (s : State),
    let at_ := m.val * 16 + bank.val
    let pos := Tbl.get 0 s.scrubPos at_
    bank.val < bankCount m → bit s.scrubCfg 14 = true → pos < bankGranules m → Tbl.get 0 s.scrubStart m ≤ s.now →
    s.retained m = false →
    ∃ t, exec (.scrubAtom m bank) s = .next t ∧
      SettledFrom { s with ecc := t.ecc, scrubPos := t.scrubPos, scrubStart := t.scrubStart, scrubLate := t.scrubLate } t ∧
      ((∃ b, b < bankCount m ∧ b ≠ bank.val ∧ Tbl.get 0 s.scrubPos (m.val * 16 + b) ≠ bankGranules m) →
        Tbl.get 0 t.scrubPos at_ = pos + 1 ∧ t.scrubStart = s.scrubStart ∧ t.scrubLate = s.scrubLate) ∧
      ((∀ b, b < bankCount m → b ≠ bank.val → Tbl.get 0 s.scrubPos (m.val * 16 + b) = bankGranules m) →
        pos + 1 = bankGranules m →
        (∀ b, b < bankCount m → Tbl.get 0 t.scrubPos (m.val * 16 + b) = 0) ∧ t.scrubLate.contains m.val = false ∧
          Tbl.get 0 t.scrubStart m = max s.now (Tbl.get 0 s.scrubStart m + s.scrubPeriod))) ∧
  (∀ (m : Fin 31) (s : State), Tbl.get 0 s.scrubStart m + s.scrubPeriod ≤ s.now → s.retained m = false →
    s.scrubLate.contains m.val = false → bit s.scrubCfg 14 = true →
    ∃ t, exec (.scrubLate m) s = .next t ∧ t.scrubLate = m.val :: s.scrubLate ∧
      SettledFrom { s with scrubLate := t.scrubLate } t) ∧
  (∀ (m : Fin 30) (word : Fin 262144) (s : State) (n : Nat) (p : MapProg) (d : List Byte),
    let w := memBase m / 16 + word.val
    let a := w * 16 / 64 * 64
    Tbl.get 0 s.ecc w = 3 → word.val * 16 < memSize m → s.placedAt a = some (n, p, d) →
    ∃ t, exec (.placedWordRewrite m word) s = .next t ∧
      (s.inPublication n p a = true → t = { s with reqs := s.reqs ++ [⟨3, 0, 0, none, true⟩] }) ∧
      (s.inPublication n p a = false → t.mem = storeAll s.mem [(a, d)] ∧
        t = { s with mem := t.mem, ecc := t.ecc, obs := t.obs, obj := t.obj }))

/-- R31, R37, R409, R410, R412: an access of DRAM that the address map or the region table refuses is answered with a
refusal and changes no byte; a read of a sound line answers its 64 bytes, and one of a poisoned or uncorrectable line
answers no data and leaves it poisoned; a full write stores the line and frees it of its errors; a partial write of a
sound line stores its bytes. The model's own choices in it: log 20, 71, 72. -/
def Obligations.DramLinesAreReadAndWritten : Prop :=
  ∀ (own : Fin 4) (part : Option (Fin 4)) (line : Fin 0x8000000) (x : Fin 0x200000000) (frt : Fin 4) (d e : List Byte)
    (s : State),
    let a := line.val * 64
    let base := x.val / 64 * 64
    let p := part.map (fun i => i.val)
    let answered (t : State) (c : Nat) : Prop := t.reply = some (c, []) ∧
      t = { s with reply := t.reply, obs := t.obs, obj := t.obj }
    let refused (t : State) (k : Nat) (write : Bool) : Prop :=
      if s.channels.length * 2 ^ 30 ≤ k then answered t 0x09
      else match s.permits true (k / 0x200000) own p write with
        | .granted => False
        | .retry => answered t 0xF0
        | .refused => answered t 0x0A
    d.length = 64 → e.length ≠ 0 → e.length < 64 → x.val % 64 + e.length ≤ 64 →
    (∀ r, s.dramRefusal own p a false = some r → ∃ t, exec (.dramRead own part line) s = .next t ∧ refused t a false) ∧
    (∀ r, s.dramRefusal own p a true = some r → ∃ t, exec (.dramWrite own part line frt d) s = .next t ∧ refused t a true) ∧
    (∀ r, s.dramRefusal own p x true = some r →
      ∃ t, exec (.dramPartialWrite own part x e) s = .next t ∧ refused t x true) ∧
    (s.dramRefusal own p a false = none → LineSound s a → ∃ t, exec (.dramRead own part line) s = .next t ∧
      t.reply = some (0, s.bytes a 64) ∧ t = { s with reply := t.reply, chans := t.chans }) ∧
    (s.dramRefusal own p a false = none → (nbit (s.lineOf a) 0 || nbit (s.lineOf a) 4) = true →
      ∃ t, exec (.dramRead own part line) s = .next t ∧ t.reply = some (0x10, []) ∧ nbit (t.lineOf a) 0 = true ∧
        t = { s with reply := t.reply, chans := t.chans, line := t.line, ceRows := t.ceRows, obs := t.obs, obj := t.obj }) ∧
    (s.dramRefusal own p a true = none → ∃ t, exec (.dramWrite own part line frt d) s = .next t ∧
      t.reply = some (0, []) ∧ t.mem = Tbl.setList Memory.dflt s.mem a d ∧ t.lineOf a = frt.val * 2 ∧
      t = { s with reply := t.reply, chans := t.chans, line := t.line, mem := t.mem }) ∧
    (s.dramRefusal own p x true = none → LineSound s base → ∃ t, exec (.dramPartialWrite own part x e) s = .next t ∧
      t.reply = some (0, []) ∧ t.mem = Tbl.setList Memory.dflt s.mem x.val e ∧ LineSound t base ∧
      t = { s with reply := t.reply, chans := t.chans, line := t.line, mem := t.mem }) ∧
    (s.dramRefusal own p x true = none → (nbit (s.lineOf base) 0 || nbit (s.lineOf base) 4) = true →
      ∃ t, exec (.dramPartialWrite own part x e) s = .next t ∧ t.reply = some (0x11, []) ∧
        t = { s with reply := t.reply, chans := t.chans, line := t.line, ceRows := t.ceRows, obs := t.obs, obj := t.obj })

/-- R402 to R404: a refresh that falls due issues, is owed in a quiet interval while fewer than eight are, and is forced
otherwise; owed refreshes issue when the interval is over. R402, R421: temperatures are read every 4 ms and decide t_REFI;
calibration and pattern reads are sent when due. Other channels are as before. The model's own choices in it: log 160. -/
def Obligations.RefreshesAndCalibrationsKeepTheirTimes : Prop :=
  ∀ (ch : Fin 8) (s : State),
    let x := s.chan ch
    let others (t : State) : Prop := ∀ c, c ≠ ch.val → t.chan c = s.chan c
    x.seq < 32 → x.selfRefresh = false →
    (x.refDue ≤ s.now → s.channels.contains ch.val = true → ∃ t, exec (.refreshDue ch) s = .next t ∧ others t ∧
      (t.chan ch).refDue = x.refDue + s.tRefi ch ∧
      (t.chan ch).owed = (if s.quiet && decide (x.owed < 8) then x.owed + 1 else x.owed) ∧
      (t.chan ch).seq = (if s.quiet && decide (x.owed < 8) then x.seq else (x.seq + 2) % 32) ∧
      t = { s with chans := t.chans, obj := t.obj } ∧ SettledBut s t [ok (0x6010 + ch) 6]) ∧
    (s.quiet = false → ∃ t, exec (.refreshMakeup ch) s = .next t ∧ others t ∧ (t.chan ch).owed = 0 ∧
      (t.chan ch).seq = (x.seq + 2 * x.owed) % 32 ∧ t = { s with chans := t.chans }) ∧
    ((x.zqAt + 256000000 ≤ s.now ∨ 4 ≤ (Tbl.get 0 s.dieTemp (ch.val / 2) - x.zqTemp).natAbs) → s.atomTime = true →
      ∃ t, exec (.zqCalibration ch) s = .next t ∧ others t ∧ (t.chan ch).zqAt = s.now ∧
        (t.chan ch).zqTemp = Tbl.get 0 s.dieTemp (ch.val / 2) ∧ (t.chan ch).seq = (x.seq + 1) % 32 ∧
        t = { s with chans := t.chans }) ∧
    (x.lastRead + 1000000 ≤ s.now → ∃ t, exec (.patternRead ch) s = .next t ∧ others t ∧ (t.chan ch).lastRead = s.now ∧
      (t.chan ch).seq = (x.seq + 1) % 32 ∧ t = { s with chans := t.chans }) ∧
    (∀ (a b c d : BitVec 8), s.tempAt ≤ s.now →
      ∃ t, exec (.dramTempRead a b c d) s = .next t ∧ t.tempAt = s.now + 4000000 ∧
        (Tbl.get 0 t.dieTemp 0 = a.toInt ∧ Tbl.get 0 t.dieTemp 1 = b.toInt ∧ Tbl.get 0 t.dieTemp 2 = c.toInt ∧
          Tbl.get 0 t.dieTemp 3 = d.toInt) ∧
        (85 ≤ a.toInt → t.dieHot.contains 0 = true) ∧ (a.toInt < 82 → t.dieHot.contains 0 = false) ∧
        t = { s with tempAt := t.tempAt, dieTemp := t.dieTemp, dieHot := t.dieHot, chans := t.chans, obj := t.obj } ∧
        SettledBut s t [0x600004])

/-- R405, R406: an ALERT counts and is logged, and the third failure in a row retires its channel. R417 to R419: a row due
for it takes a spare of its bank, and one spare fewer is left; with none left, the row and its pages are retired; while
the free portion belongs to a laser swap or a model reload (R65), the row waits. R422:
the patrol reads the next line of its channel; R424: PATROL.LATE counts a pass that is late, once. The model's own choices
in it: log 160. -/
def Obligations.DramFailuresAreContained : Prop :=
  ∀ (ch : Fin 8) (s : State),
    let x := s.chan ch
    (∀ (e : Fin 32) (clean : Bool), s.channels.contains ch.val = true →
      let fails := if clean then 0 else x.failures + 1
      ∃ t, exec (.dramAlert ch e clean) s = .next t ∧ (t.chan ch).failures = fails ∧
        t = { s with holders := t.holders, obj := t.obj, obs := t.obs, chans := t.chans, attn := t.attn, fw := t.fw
                     power := t.power, flash := t.flash } ∧
        t.o (ok (0x6010 + ch) 5) = satAdd (objMax (ok (0x6010 + ch) 5)) (s.o (ok (0x6010 + ch) 5)) 1 ∧
        (fails ≠ 3 → t = { s with chans := t.chans, obs := t.obs, obj := t.obj }) ∧
        (fails = 3 → t.o (ok (0x6010 + ch) 1) = 2 ∧ t.oBit 0x600001 ch = false ∧ t.power.channelLost = true ∧
          ∀ g, g < 4096 → Tbl.get 0 t.holders g = 0)) ∧
    (∀ (bank : Fin 16) (row : Fin 32768) (r : CeRow),
      s.ceRows.find? (fun r => r.ch == ch.val && r.bank == bank.val && r.row == row.val) = some r → s.rowDue r = true →
      s.atomTime = true → s.channels.contains ch.val = true → s.yields 2 = false →
      (s.sparesLeft ch bank ≠ 0 → ∃ t, exec (.rowSparing ch bank row) s = .next t ∧
        t = { s with line := t.line, retiredPages := t.retiredPages, retiredRows := t.retiredRows, obj := t.obj
                     obs := t.obs, chans := t.chans, ceRows := t.ceRows, attn := t.attn, reloads := t.reloads
                     power := t.power, flash := t.flash } ∧
        (t.chan ch).remaps = x.remaps ++ [bank.val * 32768 + row.val] ∧
        t.sparesLeft ch bank = s.sparesLeft ch bank - 1 ∧ t.retiredRows = s.retiredRows) ∧
      (s.sparesLeft ch bank = 0 → ∃ t, exec (.rowSparing ch bank row) s = .next t ∧
        t = { s with line := t.line, retiredPages := t.retiredPages, retiredRows := t.retiredRows, obj := t.obj
                     obs := t.obs, chans := t.chans, ceRows := t.ceRows, attn := t.attn, reloads := t.reloads
                     power := t.power, flash := t.flash } ∧
        t.retiredRows = (ch.val * 2 ^ 19 + bank.val * 2 ^ 15 + row.val) :: s.retiredRows ∧
        ∀ q ∈ s.rowPages ch bank row, t.retiredPages.contains q = true)) ∧
    (∀ (bank : Fin 16) (row : Fin 32768), s.yields 2 = true → exec (.rowSparing ch bank row) s = .next s) ∧
    (s.o 0x608002 ≠ 0 → x.selfRefresh = false → s.channels.contains ch.val = true → x.patrolPos + 1 < 2 ^ 24 →
      ∃ t, exec (.patrolRead ch) s = .next t ∧
        t = { s with line := t.line, obj := t.obj, obs := t.obs, chans := t.chans, ceRows := t.ceRows
                     patrolLate := t.patrolLate, attn := t.attn, power := t.power } ∧
        (t.chan ch).patrolPos = x.patrolPos + 1) ∧
    (s.patrolLate = false → s.o 0x608002 ≠ 0 →
      (s.channels.any (fun c => decide ((s.chan c).patrolStart + s.o 0x608001 * 3600000000000 ≤ s.now))) = true →
      ∃ t, exec .patrolLate s = .next t ∧ t.patrolLate = true ∧
        t.o 0x608004 = satAdd (objMax 0x608004) (s.o 0x608004) 1 ∧
        SettledFrom { s with patrolLate := true } t)

/-! ### The frame timer, ingress and egress -/

/-- R301 to R303: a SYNC tick on the main host link locks a waiting loop to its frame number at its arrival, one of a loop
that lost SYNC only with a later number than the last that sent results; in the window of the current frame the right
number steers the loop, by at most t_SLEW, and a wrong one is ignored and counted. The model's own choices in it: log 80,
81. -/
def Obligations.TicksLockAndSteerTheLoop : Prop :=
  ∀ (lane : Fin 4) (seq : BitVec 16) (n : BitVec 32) (s : State),
    FrameArrives s lane → lane.val < 2 → lane.val = s.mainLink →
    ∃ t, exec (.syncFrame lane seq n) s = .next t ∧
      t = { s with free := t.free, clk := t.clk, cores := t.cores, hqs := t.hqs, forwards := t.forwards
                   obj := t.obj, obs := t.obs, loop := t.loop, boot := t.boot, rels := t.rels, sent := t.sent
                   attn := t.attn, reqs := t.reqs, inject := t.inject, stoppingCtx := t.stoppingCtx
                   power := t.power, cyclic := t.cyclic } ∧
      t.mem = s.mem ∧
      ((s.o 0x400006 = 1 ∧ s.loop.modelsReady = true ∧ s.loop.resumeFrom = none) ∨
          (s.o 0x400006 = 4 ∧ ∀ l, s.loop.lastSent = some l → n.toNat ≠ l ∧ serialGe 32 n.toNat l = true) →
        t.o 0x400006 = 2 ∧ t.frame = n.toNat ∧ t.loop.start = some s.now ∧ t.loop.accepted = true ∧
          t.loop.closed = false ∧ t.loop.sent = false) ∧
      (∀ t0, s.loopRuns = true → s.loop.start = some t0 → within tSyw s.now t0 = true → s.loop.firstFrame = false →
        (n.toNat = s.frame → s.loop.accepted = false → s.loop.settled = false → t.o 0x400006 = 2 ∧
          t.loop.accepted = true ∧ t.loop.missed = 0 ∧ t.loop.corr = clampSlew ((s.now : Int) - t0)) ∧
        (n.toNat ≠ s.frame → t.o 0x40000A = satAdd (objMax 0x40000A) (s.o 0x40000A) 1 ∧ t.loop = s.loop))

/-- R299, R301, R302, R308, R457: a frame starts at the prediction with the next number; a frame whose tick is missing when
its window closes is a flywheel frame, and one too many is SYNC_LOST, or the stop of a loop that is being stopped; a
stopping loop stops at a frame start and clears its hub queues; a failover changes the main host link at a frame start. The
model's own choices in it: log 81, 82, 108. -/
def Obligations.FramesStartAtThePrediction : Prop :=
  ∀ s : State,
    (∀ p, s.loopRuns = true → s.prediction = some p → p ≤ s.now → s.loop.settled = true →
      ∃ t, exec .frameStart s = .next t ∧
        (s.loop.stopping = false → SettledFrom { s with obj := t.obj, loop := t.loop } t ∧
          t.loop.start = some p ∧ t.frame = nextFrame s.frame ∧ t.loop.closed = false ∧ t.loop.sent = false ∧
          t.loop.settled = s.loop.early.isSome ∧
          t.loop.corr = (match s.loop.early with | some e => clampSlew e | none => 0) ∧
          t.o 0x400006 = (if s.loop.early.isSome then 2 else s.o 0x400006)) ∧
        (s.loop.stopping = true → t = { s with cores := t.cores, hqs := t.hqs, obj := t.obj, obs := t.obs
                                               loop := t.loop, attn := t.attn, power := t.power } ∧
          t.o 0x400006 = 0 ∧ t.loop.start = none ∧ t.loop.staged = [] ∧
          ∀ q, q < 32 → (t.hq hubUnit q).items = [] ∧ (t.hq hubUnit q).occ = 0)) ∧
    (∀ t0, s.loopRuns = true → s.loop.start = some t0 → s.loop.settled = false → t0 + tSyw ≤ s.now →
      ∃ t, exec .syncWindowClose s = .next t ∧ Counts s t 0x40000B 1 ∧
        (s.o 0x400005 ≤ s.loop.missed → s.loop.stopping = true → t.o 0x400006 = 0 ∧ t.loop.start = none ∧
          t = { s with cores := t.cores, hqs := t.hqs, obj := t.obj, obs := t.obs, loop := t.loop, attn := t.attn
                       power := t.power }) ∧
        (s.loop.missed < s.o 0x400005 ∨ s.loop.stopping = false →
          SettledFrom { s with obj := t.obj, loop := t.loop } t ∧ t.loop.missed = s.loop.missed + 1 ∧
          (s.o 0x400005 ≤ s.loop.missed → t.o 0x400006 = 4 ∧ t.loop.start = none) ∧
          (s.loop.missed < s.o 0x400005 → t.o 0x400006 = 3 ∧ t.loop.flywheel = true ∧ t.loop.start = some t0))) ∧
    (s.loop.switchNow = true → s.loop.switchDue = true →
      ∃ t, exec .failover s = .next t ∧ t = { s with obj := t.obj, loop := t.loop } ∧
        t.o 0x710002 = 1 - s.mainLink ∧ t.o 0x710005 = satAdd (objMax 0x710005) (s.o 0x710005) 1 ∧
        t.o 0x710006 = s.now ∧ t.loop.switchDue = false ∧ t.loop.start = s.loop.start)

/-- R305 to R307, R450: a sample record of the frame whose close comes next is staged, and one of another frame than that
and the next is late; at INGRESS_CLOSE_NS a group's buffer is written with its staged samples and its handle passed on, or
the group's frame is lost where no handle is there. The model's own choices in it: log 79. -/
def Obligations.SamplesAreStagedAndClosed : Prop :=
  (∀ (lane : Fin 4) (seq : BitVec 16) (d x : List Byte) (n f tag : Nat) (s : State),
    FrameArrives s lane → lane.val < 2 → 8 ≤ d.length → d.length ≤ 8192 → s.takesSamples lane = true →
    sampleRecords 1024 d = [(n, tag, x)] → s.o (streamObj n 1) = 1 → s.o (streamObj n 8) = 0 →
    x.length = s.o (streamObj n 6) → s.closeFrame = some f →
    ∃ t, exec (.samplesFrame lane seq d) s = .next t ∧
      t = { s with obj := t.obj, obs := t.obs, loop := t.loop, cyclic := t.cyclic } ∧
      (tag = f % 2 ^ 16 → s.isDue n f = true → s.loop.superseded.contains n = false → t.stagedOf n = some ⟨tag, x⟩) ∧
      (tag ≠ f % 2 ^ 16 → tag ≠ (f + 1) % 2 ^ 16 → t.loop = s.loop ∧
        t.o (streamObj n 0xA) = satAdd (objMax (streamObj n 0xA)) (s.o (streamObj n 0xA)) 1)) ∧
  (∀ (t0 g : Nat) (s : State), s.loopRuns = true → s.loop.start = some t0 → s.loop.closed = false →
    t0 + s.ingressClose ≤ s.now → s.groupsInUse.filter (fun g => s.o (groupObj g 9) != 0) = [g] →
    ∃ t, exec .ingressClose s = .next t ∧
      t = { s with free := t.free, hqs := t.hqs, forwards := t.forwards, credits := t.credits, mem := t.mem
                   ecc := t.ecc, obj := t.obj, obs := t.obs, loop := t.loop, rels := t.rels, inject := t.inject } ∧
      t.loop.closed = true ∧ t.loop.superseded = [] ∧
      (∀ n ∈ s.streamsOf g, Tbl.get none t.loop.members n = some ⟨s.memberState n s.frame, s.frame % 2 ^ 16⟩) ∧
      (s.ready hubUnit (4 * g + 1) = 0 → t.mem = s.mem ∧ (t.groupFrame g).lost = true ∧
        t.o (groupObj g 0xA) = satAdd (objMax (groupObj g 0xA)) (s.o (groupObj g 0xA)) 1) ∧
      (s.ready hubUnit (4 * g + 1) ≠ 0 →
        t.mem = storeAll s.mem [(hubAddr (s.o (groupObj g 1)), s.ingressImage g s.frame)]))

/-- R309 to R311, R451, R453: an egress handle of the current frame that arrives in time has its buffer copied to the
transmit store, any other is counted stale; at the deadline one result of each enabled stream is sent, once a frame. The
model's own choices in it: log 60. -/
def Obligations.ResultsLeaveAtTheDeadline : Prop :=
  (∀ (g : Fin 8) (h : W32) (s : State), ((s.hq hubUnit (4 * g.val + 2)).items.head?).map (fun i => i.h) = some h →
    ∃ t, exec (.egressHandleArrival g) s = .next t ∧
      t = { s with hqs := t.hqs, forwards := t.forwards, credits := t.credits, ecc := t.ecc, obj := t.obj
                   obs := t.obs, loop := t.loop, rels := t.rels, inject := t.inject } ∧
      (s.usesHandle g h = true → WordsSound s (hubAddr (s.o (groupObj g 3))) (32 * s.o (groupObj g 4)) →
        (t.groupFrame g).used = some h ∧
        (t.groupFrame g).store = s.bytes (hubAddr (s.o (groupObj g 3))) (32 * s.o (groupObj g 4))) ∧
      (s.usesHandle g h = false → t.loop = s.loop ∧
        t.o (groupObj g 0xB) = satAdd (objMax (groupObj g 0xB)) (s.o (groupObj g 0xB)) 1)) ∧
  (∀ (t0 : Nat) (s : State), s.loopRuns = true → s.loop.start = some t0 → s.loop.sent = false →
    t0 + s.deadline ≤ s.now → s.loop.settled = true →
    ∃ t, exec .egressInstant s = .next t ∧
      t = { s with obj := t.obj, obs := t.obs, loop := t.loop, sent := t.sent, cyclic := t.cyclic
                   inject := t.inject, heldTx := t.heldTx } ∧
      t.loop.sent = true ∧ t.loop.lastSent = some s.frame ∧
      (∀ n ∈ s.resultStreams, t.o (streamObj n 9) = satAdd (objMax (streamObj n 9)) (s.o (streamObj n 9)) 1) ∧
      (s.inject = none → s.heldTx = none → s.mainLink < 2 → s.laneUp s.mainLink = true → s.resultStreams ≠ [] →
        Tbl.get [] t.sent (s.mainLink * 256 + 3) = (s.resultStreams.map s.resultRecord).flatten)) ∧
  (∀ (n : Fin 32) (f sf : Nat) (s : State), s.alignFrame = some (f, sf) → sf + s.ingressClose - 400 ≤ s.now →
    s.loop.evaluated.contains n.val = false → s.o (streamObj n 1) ≠ 0 → s.o (streamObj n 8) ≠ 0 → s.isDue n f = true →
    let value (c : Nat) : Option Machine.Num := s.channelValue c sf (sf + s.ingressClose - 400)
    ∃ t, exec (.alignerEvaluation n) s = .next t ∧ t = { s with obj := t.obj, loop := t.loop } ∧
      t.loop.evaluated = n.val :: s.loop.evaluated ∧
      ((∀ c ∈ s.channelsOf n, (value c).isSome = true) → (t.stagedOf n).map (fun x => x.tag) = some (f % 2 ^ 16)) ∧
      ((∃ c ∈ s.channelsOf n, value c = none) → t.loop.staged = s.loop.staged) ∧
      (∀ c ∈ s.channelsOf n, value c = none →
        t.o (alignObj c 0xB) = satAdd (objMax (alignObj c 0xB)) (s.o (alignObj c 0xB)) 1))

/-- R374 to R377, R384, R461 to R463: a sample packet that no enabled source names is counted, one over the rate or with
the loop off is dropped, and a sample later than the last enters its source's history; a line packet that no stream names
is counted, and a line of a frame being received is taken, or ends the frame where it is not the one expected; TIME frames
leave a sensor lane at frame starts and count in its channel. The model's own choices in it: log 85, 86, 87, 144. -/
def Obligations.SensorPacketsReachTheirSources : Prop :=
  (∀ (sl : Fin 2) (seq : BitVec 16) (d : List Byte) (excess : Bool) (s : State),
    FrameArrives s (4 + sl.val) → 24 ≤ d.length → d.length ≤ 8192 →
    let bad := ok (0x7120 + sl) 8
    ∃ t, exec (.samplePkt sl seq d excess) s = .next t ∧
      t = { s with free := t.free, mem := t.mem, ecc := t.ecc, obj := t.obj, obs := t.obs, sources := t.sources
                   cyclic := t.cyclic } ∧
      (s.sourceFor sl (nfld (wordAt d 0) 0 8) = none → t.o bad = satAdd (objMax bad) (s.o bad) 1 ∧ t.sources = s.sources) ∧
      (∀ n, s.sourceFor sl (nfld (wordAt d 0) 0 8) = some n → nfld (wordAt d 0) 8 4 = s.o (srcObj n 4) →
        (excess = true ∨ s.o 0x400001 = 0 → t.sources = s.sources ∧
          t.o (srcObj n 0xB) = satAdd (objMax (srcObj n 0xB)) (s.o (srcObj n 0xB)) (nfld (wordAt d 0) 16 16)) ∧
        (∀ p, excess = false → s.o 0x400001 ≠ 0 → s.packetSamples n d = [p] → s.o (srcObj n 0xD) < p.1 →
          s.o (srcObj n 7) ≤ 1 →
          t.o (srcObj n 0xD) = p.1 % 2 ^ 64 ∧ (t.source n).hist.getLast? = some ⟨p.1, p.2, s.now⟩))) ∧
  (∀ (sl : Fin 2) (seq : BitVec 16) (d : List Byte) (full : Bool) (s : State),
    FrameArrives s (4 + sl.val) → 24 ≤ d.length → d.length ≤ 8192 →
    let h := lineHdr d
    let cam := (List.range 4).find? (fun k =>
      s.o (camObj k 1) == 1 && s.o (camObj k 2) == sl.val && s.o (camObj k 3) == h.cam)
    let bad := ok (0x7120 + sl) 8
    ∃ t, exec (.linePkt sl seq d full) s = .next t ∧
      t = { s with free := t.free, ecc := t.ecc, obj := t.obj, obs := t.obs, cameras := t.cameras, cyclic := t.cyclic } ∧
      (cam = none → t.o bad = satAdd (objMax bad) (s.o bad) 1 ∧ t.cameras = s.cameras) ∧
      (∀ k f, cam = some k → h.fs = false → (s.camera k).cur = some f → h.fe = false → full = false →
        (f.frame = h.frame → s.lineOk k h d f.lines.length = true →
          ((t.camera k).cur).map (fun g => (g.seq, g.frame, g.lines.length)) = some (f.seq, f.frame, f.lines.length + 1)) ∧
        (f.frame ≠ h.frame ∨ s.lineOk k h d f.lines.length = false → (t.camera k).cur = none ∧ t.o (camObj k 0x1F) = 1))) ∧
  (∀ (sl : Fin 2) (s : State), s.laneUp (4 + sl.val) = true →
    (s.loopRuns = true ∧ s.loop.timeOwed.contains (4 + sl.val) = true ∨
      s.loopRuns = false ∧ (s.lane (4 + sl.val)).timeAt ≤ s.now) →
    ∃ t, exec (.timeFrame sl) s = .next t ∧
      t = { s with obj := t.obj, loop := t.loop, lanes := t.lanes, sent := t.sent, cyclic := t.cyclic
                   inject := t.inject, heldTx := t.heldTx } ∧
      Tbl.get 0 t.cyclic (4 + sl.val) = (Tbl.get 0 s.cyclic (4 + sl.val) + 1) % 2 ^ 16 ∧
      t.loop.timeOwed.contains (4 + sl.val) = false ∧
      (s.inject = none → s.heldTx = none → Tbl.get [] t.sent ((4 + sl.val) * 256 + 0x30) = s.timePayload))

/-! ### Links and lanes -/

/-- R448, R454, R455, R473: a BULK frame next in sequence is taken and acknowledged, any other answered with the number
expected; an acknowledgement releases every frame before the number it names; a timeout sends the unacknowledged frames
again, and the sixteenth of one frame retrains the lane, whose channels start again; a frame in error is counted on its
link. The model's own choices in it: log 96, 98. -/
def Obligations.ReliableChannelsDeliverInOrder : Prop :=
  let acked (x : RelChan) (next : Nat) : RelChan := match x.unacked with
    | [] => x
    | f :: _ =>
      let n := (next + 2 ^ 16 - f.seq) % 2 ^ 16
      if n = 0 ∨ x.unacked.length < n then x else { x with unacked := x.unacked.drop n, tries := 0 }
  let resent (c : Instr) (lane ch wait count : Nat) (s : State) : Prop :=
    ∀ (f : Frame) (r : List Frame), s.laneUp lane = true → (s.rel lane ch).unacked = f :: r → f.sentAt + wait ≤ s.now →
      let x := s.rel lane ch
      ∃ t, exec c s = .next t ∧ t = { s with obj := t.obj, obs := t.obs, loop := t.loop, lanes := t.lanes
                                             rels := t.rels, peers := t.peers, attn := t.attn, inject := t.inject
                                             masters := t.masters, transfers := t.transfers, aborted := t.aborted
                                             power := t.power } ∧
        t.o count = satAdd (objMax count) (s.o count) x.unacked.length ∧
        (x.tries + 1 < 16 → t.laneState lane = 4 ∧ t.rel lane ch =
          { x with tries := x.tries + 1, unacked := x.unacked.map (fun g => { g with sentAt := s.now }) }) ∧
        (16 ≤ x.tries + 1 → t.laneState lane = 3 ∧ t.rel lane ch = RelChan.reset)
  (∀ (lane : Fin 4) (seq : BitVec 16) (d : List Byte) (s : State), FrameArrives s lane → lane.val < 2 → 8 ≤ d.length →
    d.length ≤ 8192 →
    let x := s.rel lane 1
    ∃ t, exec (.bulkFrame lane seq d) s = .next t ∧
      t = { s with obj := t.obj, obs := t.obs, rels := t.rels, sent := t.sent, inject := t.inject
                   heldTx := t.heldTx } ∧
      t.rel lane 1 = (if seq.toNat = x.rx then { x with rx := (x.rx + 1) % 2 ^ 16 } else x) ∧
      (s.inject = none → s.heldTx = none →
        Tbl.get [] t.sent (lane.val * 256 + 0x12) = leBytes 2 1 ++ leBytes 2 (t.rel lane 1).rx)) ∧
  (∀ (lane : Fin 4) (ch : Fin 2) (next : BitVec 16) (s : State), FrameArrives s lane → (s.rel lane ch).waiting = [] →
    ∃ t, exec (.ack lane ch next) s = .next t ∧ t = { s with rels := t.rels } ∧
      t.rel lane ch = acked (s.rel lane ch) next.toNat) ∧
  (∀ (j : Fin 6) (a b : BitVec 16) (s : State), FrameArrives s (6 + j.val) → (s.rel (6 + j.val) 0).waiting = [] →
    (s.rel (6 + j.val) 1).waiting = [] →
    ∃ t, exec (.peerAck j a b) s = .next t ∧ t = { s with rels := t.rels } ∧
      t.rel (6 + j.val) 0 = acked (s.rel (6 + j.val) 0) a.toNat ∧
      t.rel (6 + j.val) 1 = acked (s.rel (6 + j.val) 1) b.toNat) ∧
  (∀ (lane : Fin 4) (ch : Fin 2) (s : State), resent (.retransmitTimeout lane ch) lane ch 50000 (linkObj lane 4) s) ∧
  (∀ (j : Fin 6) (cls : Fin 2) (s : State),
    resent (.peerRetransmitTimeout j cls) (6 + j.val) cls 2000 (peerObj (j.val / 2) 6) s) ∧
  (∀ (lane : Fin 12) (why : BadFrame) (seq : Fin 65536) (s : State), s.laneUp lane = true → s.injects lane 0 = 0 →
    let count := match why with
      | .crc => if lane.val < 6 then linkObj lane 2 else peerObj ((lane.val - 6) / 2) 5
      | .header => if lane.val < 6 then linkObj lane 6 else peerObj ((lane.val - 6) / 2) 7
      | .codeword => if 6 ≤ lane.val then laneObj lane 0x12 else linkObj lane 2
    ∃ t, exec (.discardedFrame lane why seq) s = .next t ∧ t = { s with obs := t.obs, obj := t.obj } ∧
      t.o count = satAdd (objMax count) (s.o count) 1 ∧ ObjectsBut s t [count])

/-- R268 to R271, R295, R470, R475: frames of a peer taken in sequence: a HANDLE is pushed on the queue it names, a CREDIT
lowers the occupancy of its source, a WRITE packet lands where the window admits it and is answered, a WSTATUS ends or
repeats a packet, a FENCE empties the ends of the pairs with the clusters named; a FENCE unanswered and the loss of the
link have every partition reset that holds an end of a pair with the partner, and the loss ends the writes toward it. The
model's own choices in it: log 100, 101, 147. -/
def Obligations.PeerFramesReachTheirTargets : Prop :=
  ∀ (j : Fin 6) (cls : Fin 2) (seq : BitVec 16) (w2 w3 h : W32) (d : List Byte) (s : State),
    let lane := 6 + j.val
    let dev := s.facing lane
    let u := fld w3 5 3
    let q := fld w3 0 5
    let v := fld w3 13 3
    let r := fld w3 8 5
    let resets (l : List Nat) : List ResetReq := l.map (fun p => ⟨3, p, 0, none, true⟩)
    (FrameArrives s lane → s.fromObserver lane = false →
      (s.waitsFor 3 w3.toNat = false → ∃ t, exec (.peerHandle j seq h w3) s = .next t ∧
        t = { s with hqs := t.hqs, forwards := t.forwards, obj := t.obj, obs := t.obs, rels := t.rels
                     sent := t.sent, inject := t.inject, heldTx := t.heldTx } ∧
        (seq.toNat ≠ (s.rel lane 0).rx → t.hqs = s.hqs ∧ t.forwards = s.forwards) ∧
        (seq.toNat = (s.rel lane 0).rx → (s.hq u q).isForward = false →
          let took := (s.hq u q).accepts (s.unitCycle u) h (.forwarded dev v r)
          (t.hq u q).items.length = (s.hq u q).items.length + (if took then 1 else 0) ∧
          (took = false → (t.hq u q).viol = satAdd 255 (s.hq u q).viol 1) ∧
          ∀ n m, (n ≠ u ∨ m ≠ q) → m < 32 → t.hq n m = s.hq n m)) ∧
      (s.waitsFor 4 w3.toNat = false → seq.toNat = (s.rel lane 0).rx → ∃ t, exec (.peerCredit j seq w2 w3) s = .next t ∧
        t = { s with hqs := t.hqs, obj := t.obj, rels := t.rels, sent := t.sent, inject := t.inject
                     heldTx := t.heldTx } ∧
        (let x := s.hq v r
          let now := s.unitCycle v
          t.hq v r = if fld w2 0 5 = 0 then x else { x with
            occ := x.occ - fld w2 0 5, popCycle := now, popKey := 0
            popCount := (if x.popCycle = now then x.popCount else 0) + min (fld w2 0 5) x.occ }) ∧
        ∀ n m, (n ≠ v ∨ m ≠ r) → m < 32 → t.hq n m = s.hq n m) ∧
      (seq.toNat = (s.rel lane cls).rx → ∃ t, exec (.wstatus j cls seq w2 w3) s = .next t ∧
        t = { s with cores := t.cores, writes := t.writes, obj := t.obj, rels := t.rels, sent := t.sent
                     inject := t.inject, heldTx := t.heldTx } ∧
        (∀ x, s.writes.find? (fun x => x.tag == fld w2 0 16 && x.dev == dev) = some x →
          (fld w3 0 2 = 1 → x.ended = false →
            t.writes.filter (fun y => y.tag != x.tag) = s.writes.filter (fun y => y.tag != x.tag) ∧
            ∀ z ∈ t.writes, z.tag = x.tag → z.ended = true ∧ (∃ p ∈ z.packets, p.done = false) ∧
              ∀ p ∈ z.packets, p.retryAt ≠ 0 → p.done = true) ∧
          (fld w3 0 2 = 2 → x.ended = false → (∃ p ∈ x.packets, p.done = false) →
            let later := changePacket (fld w2 16 4) (fun p => { p with retryAt := s.now + 1001 }) x.packets
            t.writes = s.writes.map (fun y => if y.tag = x.tag then { x with packets := later } else y))) ∧
        (s.writes.find? (fun x => x.tag == fld w2 0 16 && x.dev == dev) = none →
          t.writes = s.writes ∧ t.cores = s.cores)) ∧
      (d.length % 64 = 0 → 64 ≤ d.length → d.length ≤ 512 → seq.toNat = (s.rel lane cls).rx →
        let n := fld w2 0 6
        let ans := s.packetAnswer n dev (fld w2 8 2) (64 * fld w2 12 20) d.length
        let p := s.windowAt n (64 * fld w2 12 20)
        ∃ t, exec (.peerWrite j cls seq w2 w3 d) s = .next t ∧
          t = { s with hqs := t.hqs, forwards := t.forwards, mem := t.mem, ecc := t.ecc, obj := t.obj, obs := t.obs
                       rels := t.rels, sent := t.sent, inWrites := t.inWrites, inject := t.inject
                       heldTx := t.heldTx } ∧
          t.mem = (if ans = 0 then Tbl.setList Memory.dflt s.mem (memBase p.1 + p.2) d else s.mem) ∧
          (t.rel lane cls).rx = ((s.rel lane cls).rx + 1) % 2 ^ 16 ∧
          ∃ f ∈ (t.rel lane cls).unacked ++ (t.rel lane cls).waiting,
            f.typ = 2 ∧ f.w2 = fld w3 0 16 + fld w3 16 4 * 2 ^ 16 ∧ f.w3 = ans) ∧
      (seq.toNat = (s.rel lane 0).rx → ∀ mask : BitVec 6,
        (∃ t, exec (.peerFence j seq mask true) s = .next t ∧
          t = { s with obj := t.obj, rels := t.rels, sent := t.sent, peers := t.peers, inject := t.inject
                       heldTx := t.heldTx } ∧
          (t.peer (linkOf lane)).fenceSent = none) ∧
        (∃ t, exec (.peerFence j seq mask false) s = .next t ∧
          t = { s with hqs := t.hqs, obj := t.obj, rels := t.rels, sent := t.sent, inject := t.inject
                       heldTx := t.heldTx } ∧
          ∀ n m, n < 6 → m < 31 →
            let x := s.hq n m
            t.hq n m = if x.depth ≠ 0 ∧ ((x.isForward = true ∧ fld x.w0 7 2 = s.o (peerObj (linkOf lane) 2) ∧
                nbit mask.toNat (fld x.w0 9 3) = true) ∨ (x.isForward = false ∧ x.sen = true ∧
                fld x.w1 0 2 = s.o (peerObj (linkOf lane) 2) ∧ nbit mask.toNat (fld x.w1 2 3) = true))
              then { x with items := [], occ := 0 } else x))) ∧
    (∀ (core : Fin 24) (se : Fin 2) (pos : Fin 64) (x : PWrite),
      s.writes.find? (fun x => x.tag == writeTag core (2 + se.val) pos) = some x → (∃ p ∈ x.packets, p.done = false) →
      let sent := x.packets.map (fun p =>
        if p.retryAt != 0 && decide (p.retryAt ≤ s.now + 1) then { p with retryAt := 0 } else p)
      ∃ t, exec (.packetResend core se pos) s = .next t ∧
        t = { s with writes := t.writes, obj := t.obj, rels := t.rels, inject := t.inject } ∧
        t.writes = s.writes.map (fun y => if y.tag = x.tag then { x with packets := sent } else y)) ∧
    (∀ n : Fin 3, (s.peer n).fenceSent.isSome = true → (s.peer n).fenceAt + 10000000 ≤ s.now →
      ∃ t, exec (.peerFenceTimeout n) s = .next t ∧ (t.peer n).fenceSent = none ∧
        t = { s with peers := t.peers, reqs := s.reqs ++ resets (s.pairPartitions (s.o (peerObj n 2))) }) ∧
    (∀ n : Fin 3, s.o (peerObj n 1) ≠ 0 → s.laneUp (6 + 2 * n.val) = false → s.laneUp (7 + 2 * n.val) = false →
      ∃ t, exec (.peerLinkDown n) s = .next t ∧
        t = { s with cores := t.cores, obj := t.obj, obs := t.obs, rels := t.rels, peers := t.peers
                     writes := t.writes, inWrites := t.inWrites, attn := t.attn, reqs := t.reqs, power := t.power } ∧
        t.o (peerObj n 1) = 0 ∧ t.o (peerObj n 2) = 0xFF ∧
        t.o (peerObj n 9) = satAdd (objMax (peerObj n 9)) (s.o (peerObj n 9)) 1 ∧
        (∀ x ∈ t.writes, x.dev ≠ s.o (peerObj n 2)) ∧
        (∀ c, c < 2 → (t.rel (6 + 2 * n.val) c).unacked = [] ∧ (t.rel (7 + 2 * n.val) c).unacked = []) ∧
        t.reqs = s.reqs ++ resets (s.pairPartitions (s.o (peerObj n 2))))

/-- R429 to R431, R440: light, its loss and its return, seating, an unplugged fibre, training and faults move a lane
through its states; an entry into TRAINING starts its channels and its identity phase again; no other lane changes its
state. The model's own choices in it: log 91. -/
def Obligations.LanesMoveThroughTheirStates : Prop :=
  ∀ (i : Fin 12) (p : BitVec 16) (s : State),
    let st := s.laneState i
    let since := (s.lane i).since
    let bump (t : State) (b : Nat) : Prop := t.o (laneObj i b) = satAdd (objMax (laneObj i b)) (s.o (laneObj i b)) 1
    let goes (c : Instr) (n : Nat) (more : State → Prop) : Prop := ∃ t, exec c s = .next t ∧
      t = { s with obj := t.obj, obs := t.obs, loop := t.loop, lanes := t.lanes, rels := t.rels, peers := t.peers
                   attn := t.attn, inject := t.inject, masters := t.masters, transfers := t.transfers
                   aborted := t.aborted, power := t.power } ∧
      t.laneState i = n ∧ (t.lane i).since = s.now ∧ (∀ k, k < 12 → k ≠ i.val → t.laneState k = s.laneState k) ∧
      (n = 3 → t.rel i 0 = RelChan.reset ∧ t.rel i 1 = RelChan.reset ∧ (t.lane i).idDone = false) ∧ more t
    (pSeat ≤ p.toInt → st = 1 →
      goes (.lightAboveSeat i p) 2 (fun t => t.o (laneObj i 2) = trunc 16 p.toInt)) ∧
    (p.toInt < pSeat → st = 2 →
      goes (.seatingPowerDrop i p) 1 (fun t => t.o (laneObj i 2) = trunc 16 p.toInt)) ∧
    (st = 2 → since + 20000000 ≤ s.now → goes (.laneSeated i) 3 (fun _ => True)) ∧
    (p.toInt < pLos → st = 3 ∨ st = 4 ∨ st = 6 → (s.lane i).gapUntil ≤ s.now →
      goes (.lossOfLight i p) 5 (fun t => bump t 0xD)) ∧
    (pSeat ≤ p.toInt → st = 5 → s.now < since + 50000000 → goes (.lightReturn i p) 3 (fun _ => True)) ∧
    (st = 5 → since + 50000000 ≤ s.now → goes (.unplugEvent i) 1 (fun t => bump t 0xE ∧ (t.lane i).cause = 0)) ∧
    (∀ k : Fin 6, k.val = i.val → st = 3 → (s.lane i).idDone = true → goes (.trainingComplete k) 4 (fun _ => True)) ∧
    (s.lit i = true → goes (.receiverFault i) 7 (fun _ => True)) ∧
    (∀ b : BitVec 32, s.lit i = true → s.hasSpare i = false →
      ∃ t, exec (.laserFailure i b) s = .next t ∧ t.laneState i = 7 ∧ (t.lane i).since = s.now ∧
        t.o (laneObj i 5) = 0xFF ∧ (∀ k, k < 12 → k ≠ i.val → t.laneState k = s.laneState k) ∧
        t = { s with obj := t.obj, obs := t.obs, loop := t.loop, lanes := t.lanes, rels := t.rels, peers := t.peers
                     attn := t.attn, inject := t.inject, masters := t.masters, transfers := t.transfers
                     aborted := t.aborted, power := t.power, flash := t.flash }) ∧
    (∃ t, exec (.swapNotice i) s = .next t ∧ t = { s with lanes := t.lanes } ∧
      (s.laneUp i = true → (t.lane i).gapUntil = s.now + 4000) ∧ (s.laneUp i = false → t = s))

/-- R432 to R434, R468, R615: in the identity phase a valid record is kept and refuses the lane, with the first cause that
applies, or passes the phase on the second in a row; identity records are sent every 100 us, and every 100 ms while
REFUSED; the sixteenth ECHO reply gives the fibre delay and brings a peer lane UP; a lane that is not UP in time backs off
for 1 to 8 ms. The model's own choices in it: log 11, 90, 92. -/
def Obligations.IdentityPhasesPassOrRefuse : Prop :=
  ∀ (i : Fin 12) (r : List Byte) (j : Fin 6) (turn rtt : BitVec 32) (s : State),
    let x := s.lane i
    let l := 6 + j.val
    let y := s.lane l
    (r.length = 32 → s.laneState i = 3 → x.idDone = false → x.backoff = 0 →
      let c := if idRefuse r ≠ 0 then 8 else (s.setD (laneObj i 0x10) r).refusal i r
      ∃ t, exec (.ident i r) s = .next t ∧
        t = { s with dom := t.dom, obj := t.obj, obs := t.obs, loop := t.loop, lanes := t.lanes, rels := t.rels
                     sent := t.sent, peers := t.peers, attn := t.attn, inject := t.inject, heldTx := t.heldTx
                     masters := t.masters, transfers := t.transfers, aborted := t.aborted, power := t.power } ∧
        (identValid r = false → (t.lane i).good = 0 ∧ t.laneState i = 3 ∧ t.dom = s.dom) ∧
        (identValid r = true → t.partner i = r) ∧
        (identValid r = true → c ≠ 0 → t.laneState i = 6 ∧ t.o (laneObj i 0x11) = c) ∧
        (identValid r = true → c = 0 → t.laneState i = 3 ∧ (t.lane i).good = (if x.good = 0 then 1 else 2) ∧
          ((t.lane i).idDone = true ↔ x.good ≠ 0))) ∧
    ((s.laneState i = 3 ∧ x.idDone = false ∧ x.backoff = 0 ∨ s.laneState i = 6) → x.identAt ≤ s.now →
      ∃ t, exec (.identityRecordRepeat i) s = .next t ∧
        t = { s with lanes := t.lanes, sent := t.sent } ∧
        Tbl.get [] t.sent (i.val * 256 + 0x20) = s.laneIdentity i ∧
        (t.lane i).identAt = s.now + (if s.laneState i = 6 then 100000000 else 100000)) ∧
    (s.laneState l = 3 → y.idDone = true → s.injects l 0 = 0 → s.heldRx = none →
      ∃ t, exec (.echo j true turn rtt) s = .next t ∧
        t = { s with obj := t.obj, obs := t.obs, loop := t.loop, lanes := t.lanes, rels := t.rels, peers := t.peers
                     attn := t.attn, inject := t.inject, masters := t.masters, transfers := t.transfers
                     aborted := t.aborted, power := t.power } ∧
        (y.echoes.length + 1 < 16 → t.laneState l = 3 ∧ (t.lane l).echoes = (rtt.toNat - turn.toNat) :: y.echoes) ∧
        (16 ≤ y.echoes.length + 1 → t.laneState l = 4 ∧ t.o (peerObj (j.val / 2) 3) =
          min 0xFFFF (((rtt.toNat - turn.toNat) :: y.echoes).foldl min (rtt.toNat - turn.toNat) / 2))) ∧
    (s.laneState l = 3 → y.idDone = true → y.since + 120000000 ≤ s.now →
      ∃ t, exec (.peerTrainingTimeout j) s = .next t ∧
        t = { s with free := t.free, obj := t.obj, lanes := t.lanes } ∧
        (t.lane l).idDone = false ∧ (t.lane l).good = 0 ∧ s.now + 1000000 ≤ (t.lane l).backoff ∧
        (t.lane l).backoff ≤ s.now + 8000000 ∧
        t.o (peerObj (j.val / 2) 6) = satAdd (objMax (peerObj (j.val / 2) 6)) (s.o (peerObj (j.val / 2) 6)) 1) ∧
    (s.laneState l = 3 → y.backoff ≠ 0 → y.backoff ≤ s.now →
      ∃ t, exec (.peerBackoffExpiry j) s = .next t ∧ t = { s with lanes := t.lanes } ∧
        t.lane l = { y with backoff := 0, since := s.now, identAt := s.now })

/-- R436 to R441, R443, R60: a margin probe shows its margins; a bias measurement of one second is kept among 60, whose
mean is shown, and once it is 1.25 times BIAS_INIT makes a swap due or, with no spare, sets WEAR; a warmed spare is taken
in a link-quiet window of the free portion, or after 60 s in the free portion and counted, unless a poisoned line awaits
its reload; a failed laser is replaced at once and its lane
retrains. The model's own choices in it: log 93, 94, 95, 97. -/
def Obligations.LasersAreWatchedAndSwapped : Prop :=
  ∀ (i : Fin 12) (h v : BitVec 16) (ua bias : BitVec 32) (s : State),
    let x := s.lane i
    let last := s.o (laneObj i 0xB)
    let taken (t : State) : Prop := t.o (laneObj i 5) = 1 - s.o (laneObj i 5) % 2 ∧ t.oBit 0x700007 i = false ∧
      t.o (laneObj i 8) = 3 ∧ t.o (laneObj i 6) = bias.toNat ∧ (t.lane i).biases = []
    (s.laneUp i = true → s.o (laneObj i 8) ≠ 2 → (last = 0 ∨ last + s.o 0x700001 * 1000000000 ≤ s.now) →
      ∃ t, exec (.marginProbe i h v) s = .next t ∧ SettledFrom { s with obj := t.obj, lanes := t.lanes } t ∧
        t.o (laneObj i 9) = h.toNat ∧ t.o (laneObj i 0xA) = v.toNat ∧ t.o (laneObj i 0xB) = s.now ∧
        t.lane i = { x with marginLow := decide (h.toNat < s.o 0x700003) || decide (v.toNat < s.o 0x700004) }) ∧
    (s.lit i = true →
      let l := (ua.toNat :: x.biases).take 60
      let init := if s.o (laneObj i 6) = 0 ∧ 3 ≤ s.o 0xB00001 then ua.toNat else s.o (laneObj i 6)
      let high := init ≠ 0 ∧ 5 * init * 60 ≤ 4 * l.sum
      ∃ t, exec (.biasMeasurement i ua) s = .next t ∧
        t = { s with obj := t.obj, obs := t.obs, lanes := t.lanes, attn := t.attn, power := t.power } ∧
        (t.lane i).biases = l ∧ t.o (laneObj i 6) = init ∧
        (l.length < 60 → t = { s with obj := t.obj, lanes := t.lanes } ∧ t.o (laneObj i 7) = s.o (laneObj i 7)) ∧
        (l.length = 60 → t.o (laneObj i 7) = l.sum / 60 ∧
          (s.hasSpare i = false → ((t.lane i).wear = true ↔ high)) ∧
          (s.hasSpare i = true → high → s.o 0x700002 = 1 → s.o (laneObj i 8) = 0 →
            t.o (laneObj i 8) = 2 ∧ (t.lane i).warmAt = s.now + 1))) ∧
    (s.o (laneObj i 8) = 2 → x.warmAt ≠ 0 → x.warmAt + 100000000 ≤ s.now + 1 →
      ∃ t, exec (.sparePrewarmDone i) s = .next t ∧ t = { s with lanes := t.lanes } ∧
        t.lane i = { x with warmed := true }) ∧
    (s.o (laneObj i 8) = 2 → x.warmed = true → s.linkQuiet i = true → s.swapWaits i = false → s.freePortion = true →
      s.yields 1 = false →
      ∃ t, exec (.laserSwap i bias) s = .next t ∧
        t = { s with obj := t.obj, obs := t.obs, lanes := t.lanes, sent := t.sent, attn := t.attn, power := t.power
                     flash := t.flash } ∧
        taken t ∧
        t.laneState i = s.laneState i ∧ (t.lane i).swapAt = s.now + 1) ∧
    (s.o (laneObj i 8) = 2 → x.warmed = true → x.dueAt + 60000000000 ≤ s.now + 1 → s.swapWaits i = false →
      s.freePortion = true → s.yields 1 = false →
      ∃ t, exec (.laserSwapFallback i bias) s = .next t ∧
        t = { s with obj := t.obj, obs := t.obs, lanes := t.lanes, sent := t.sent, attn := t.attn, power := t.power
                     flash := t.flash } ∧
        taken t ∧
        t.laneState i = s.laneState i ∧
        t.o (laneObj i 0xC) = satAdd (objMax (laneObj i 0xC)) (s.o (laneObj i 0xC)) 1) ∧
    (s.lit i = true → s.hasSpare i = true →
      ∃ t, exec (.laserFailure i bias) s = .next t ∧
        t = { s with obj := t.obj, obs := t.obs, loop := t.loop, lanes := t.lanes, rels := t.rels, peers := t.peers
                     attn := t.attn, inject := t.inject, masters := t.masters, transfers := t.transfers
                     aborted := t.aborted, power := t.power, flash := t.flash } ∧ taken t ∧
        t.laneState i = (if s.laneState i = 4 ∨ s.laneState i = 6 then 3 else s.laneState i))

/-- R442, R456, R466, R468, R472, R619: a peer link with one lane UP for 1 s comes up on it; a two-lane link that loses a
lane, or whose lane exceeds the FEC limit, goes on with the other lane and its frames; the lane returns after 1 s in a
free portion; the partner's LANE_MODE is followed. A drive link owed NOT_READY is sent one at most every 100 us; trace
records leave the ring oldest first; the management port's link is shown. The model's own choices in it: log 99, 102. -/
def Obligations.LinksRunOnTheLanesTheyHave : Prop :=
  ∀ (n : Fin 3) (j : Fin 6) (s : State),
    let a := 6 + 2 * n.val
    let k := j.val / 2
    let lane := 6 + j.val
    let keep := if j.val % 2 = 0 then lane + 1 else lane - 1
    let mode := s.o (peerObj n 1)
    (mode = 0 → s.laneUp a ≠ s.laneUp (a + 1) → (s.peer n).soloSince + 1000000000 ≤ s.now →
      ∃ t, exec (.oneLaneLinkUp n) s = .next t ∧ SettledFrom { s with obj := t.obj } t ∧
        t.o (peerObj n 1) = (if s.laneUp a then 2 else 3) ∧ t.o (peerObj n 2) = s.partnerCode n) ∧
    (∀ (bad total : BitVec 32), s.o (peerObj k 1) = 1 → s.laneUp keep = true →
      (s.laneUp lane = false ∨ total.toNat < bad.toNat * 1000000) →
      ∃ t, exec (.laneDegrade j bad total) s = .next t ∧
        t = { s with obj := t.obj, obs := t.obs, lanes := t.lanes, rels := t.rels, sent := t.sent, attn := t.attn
                     inject := t.inject, heldTx := t.heldTx, power := t.power, flash := t.flash } ∧
        t.o (peerObj k 1) = (if j.val % 2 = 0 then 3 else 2) ∧
        t.o (peerObj k 8) = satAdd (objMax (peerObj k 8)) (s.o (peerObj k 8)) 1 ∧
        ∀ c, c < 2 → (t.rel lane c).unacked = [] ∧ (t.rel lane c).waiting = []) ∧
    ((mode = 2 ∨ mode = 3) → s.laneUp a = true → s.laneUp (a + 1) = true →
      (s.lane (if mode = 2 then a + 1 else a)).goodSince + 1000000000 ≤ s.now → s.freePortion = true →
      ∃ t, exec (.laneRestore n) s = .next t ∧
        t = { s with obj := t.obj, obs := t.obs, sent := t.sent, attn := t.attn, inject := t.inject
                     heldTx := t.heldTx, power := t.power, flash := t.flash } ∧
        t.o (peerObj n 1) = 1) ∧
    (∀ m : Fin 4, FrameArrives s lane → s.fromObserver lane = false →
      ∃ t, exec (.laneMode j m) s = .next t ∧
        t = { s with obj := t.obj, obs := t.obs, rels := t.rels, attn := t.attn, power := t.power, flash := t.flash } ∧
        (m.val = 3 → t = s) ∧
        (s.o (peerObj k 1) = 1 → m.val = 1 → t.o (peerObj k 1) = 2) ∧
        (s.o (peerObj k 1) = 1 → m.val = 2 → t.o (peerObj k 1) = 3) ∧
        (s.o (peerObj k 1) = 2 ∨ s.o (peerObj k 1) = 3 → m.val = 0 → s.laneUp (6 + 2 * k) = true →
          s.laneUp (6 + 2 * k + 1) = true → t.o (peerObj k 1) = 1)) ∧
    (∀ l : Fin 2, s.loop.notReadyOwed.contains l.val = true → s.laneUp l = true →
      (Tbl.get 0 s.notReadyAt l = 0 ∨ Tbl.get 0 s.notReadyAt l + 100000 ≤ s.now + 1) →
      ∃ t, exec (.notReady l) s = .next t ∧
        t = { s with free := t.free, obj := t.obj, loop := t.loop, sent := t.sent, notReadyAt := t.notReadyAt
                     inject := t.inject, heldTx := t.heldTx } ∧
        t.loop.notReadyOwed.contains l.val = false ∧ Tbl.get 0 t.notReadyAt l = s.now + 1 ∧
        t.o (ok (0x7110 + l) 7) = satAdd (objMax (ok (0x7110 + l) 7)) (s.o (ok (0x7110 + l) 7)) 1) ∧
    (s.obs.ring ≠ [] →
      (s.o 0x900003 = 1 → s.o 0x730002 = 1 → s.mgmtHeld = [] → ∃ t, exec .traceDrain s = .next t ∧
        t = { s with obs := t.obs, sent := t.sent } ∧
        t.obs = { s.obs with ring := s.obs.ring.drop 93 }) ∧
      (s.o 0x900003 = 2 → ∀ m, s.linkTo 4 = some m → (s.rel (s.peerLane m (2 ^ 23) false) 1).waiting = [] →
        ∃ t, exec .traceDrain s = .next t ∧
          t = { s with obj := t.obj, obs := t.obs, rels := t.rels, inject := t.inject } ∧
          t.obs = { s.obs with ring := s.obs.ring.drop 32 })) ∧
    (∀ up : Bool, ∃ t, exec (.mgmtLinkUp up) s = .next t ∧ t = { s with obj := t.obj, masters := t.masters } ∧
      t.o 0x730002 = b01 up ∧ ((t.master 1).lostAt = 0 ↔ up = true))

/-! ### Dictionary requests -/

/-- R481, R482, R485, R487 to R489, R490: a request of a master in service is answered with the status of the first check
that fails, and changes nothing then; a READ answers the object's value; a WRITE of a fixed-size object does to the object
what its table gives it; an ABORT ends the transfer of its number, as does a second without a segment. The model's own
choices in it: log 109, 117, 118, 119, 120. -/
def Obligations.RequestsAreCheckedAndAnswered : Prop :=
  ∀ (m : Fin 4) (x : DictMsg) (e : Env) (tid : BitVec 8) (s : State),
    let k := keyOf x
    let said (op : Nat) (t : State) (a : Answer) : Prop :=
      Tbl.get [] t.responses m = responseBytes op x (s.attn.contains m.val) a ∧ t.attn = s.attn.filter (fun j => j != m.val)
    (s.serves m = true → (s.busyCheck m 1 x).2 = none → ∃ t, exec (.dictRead m x) s = .next t ∧
      t = { s with free := t.free, obj := t.obj, dom := t.dom, rels := t.rels, attn := t.attn, inject := t.inject
                   masters := t.masters, transfers := t.transfers, aborted := t.aborted, responses := t.responses } ∧
      (s.objectCheck m k ≠ 0 → said 1 t ⟨s.objectCheck m k, 0, s.sizeOf m k, []⟩) ∧
      ∀ r, s.objectCheck m k = 0 → objRowOf k = some r →
        (s.rightsCheck m 1 r x ≠ 0 → said 1 t ⟨s.rightsCheck m 1 r x, 0, s.sizeOf m k, []⟩) ∧
        (s.rightsCheck m 1 r x = 0 → x.offset = 0 → headerOk m 1 r x = true → r.ty ≠ .domain →
          k ≠ ok (0xB010 + m) 2 → k ≠ 0x200007 →
          let d := if r.ty = .string then s.domainOf m k else leBytes r.ty.size (s.valueOf m k)
          said 1 t ⟨0, 0, d.length, d⟩)) ∧
    (s.serves m = true → (s.busyCheck m 2 x).2 = none →
      (s.objectCheck m k ≠ 0 → ∃ t, exec (.dictWrite m x e) s = .next t ∧
        t = { s with obj := t.obj, rels := t.rels, attn := t.attn, inject := t.inject, responses := t.responses } ∧
        said 2 t ⟨s.objectCheck m k, 0, s.sizeOf m k, []⟩) ∧
      ∀ r, s.objectCheck m k = 0 → objRowOf k = some r →
        (s.rightsCheck m 2 r x ≠ 0 → ∃ t, exec (.dictWrite m x e) s = .next t ∧
          t = { s with obj := t.obj, rels := t.rels, attn := t.attn, inject := t.inject, responses := t.responses } ∧
          said 2 t ⟨s.rightsCheck m 2 r x, 0, s.sizeOf m k, []⟩) ∧
        (s.rightsCheck m 2 r x = 0 → x.offset = 0 → headerOk m 2 r x = true → r.ty ≠ .domain →
          (r.ty = .bool → leNat x.data ≤ 1) →
          let q := s.putFixed m k (leNat x.data) e
          q.2 ≠ 0x07 → ∃ t, exec (.dictWrite m x e) s = .next t ∧ Answered t m (q.2 % 256) ∧
            t = { q.1 with obj := t.obj, attn := t.attn, responses := t.responses, rels := t.rels, inject := t.inject } ∧
            ∀ j, j ≠ 0xC00006 → t.o j = q.1.o j)) ∧
    (s.serves m = true → (s.busyCheck m 3 x).2 = none → s.objectCheck m k = 0 → x.data = [] →
      ∃ t, exec (.dictAbort m x) s = .next t ∧
        t = { s with obj := t.obj, rels := t.rels, attn := t.attn, inject := t.inject, transfers := t.transfers
                     aborted := t.aborted, responses := t.responses } ∧ Answered t m 0 ∧
        t.transfer m x.tid.toNat = none ∧ Tbl.get 0 t.aborted (m.val * 256 + x.tid.toNat) = 0) ∧
    (∀ y, s.transfer m tid.toNat = some y → y.last + 1000000000 ≤ s.now →
      ∃ t, exec (.segmentTimeout m tid) s = .next t ∧
        t = { s with obj := t.obj, transfers := t.transfers } ∧ t.transfer m tid.toNat = none)

/-- R454, R477 to R479, R485, R494: an ACYC frame next in sequence is taken, and its request has its effect and is answered,
a READ that passes every check with the object's value; one out of sequence is only acknowledged. A management frame is
counted as bad, discarded, held while the PMC does not serve, or served: its request has its effect, and the response leaves
and is kept in the store of its source, from which a repeated one is answered. A DISCOVERY frame is answered with the
identity record; a read of a master's NONCE gives it a fresh challenge. The model's own choices in it: log 100, 103, 104,
114. -/
def Obligations.FramesCarryRequests : Prop :=
  ∀ (s : State),
    (∀ (lane : Fin 4) (seq : BitVec 16) (d : List Byte) (e : Env), FrameArrives s lane → 16 ≤ d.length → d.length ≤ 256 →
      s.serves (masterOf lane) = true →
      (seq.toNat ≠ (s.rel lane 0).rx → ∃ t, exec (.acycFrame lane seq d e) s = .next t ∧
        t = { s with obj := t.obj, rels := t.rels, sent := t.sent, inject := t.inject, heldTx := t.heldTx } ∧
        t.rel lane 0 = s.rel lane 0) ∧
      (seq.toNat = (s.rel lane 0).rx →
        let m := masterOf lane
        let x := messageOf d
        let u := (s.relReceive lane 0 seq.toNat).1
        let r := u.request m (messageOp d) x e
        let answer := responseBytes (messageOp d) x (r.1.attn.contains m) r.2
        u = { s with obj := u.obj, rels := u.rels, sent := u.sent, inject := u.inject, heldTx := u.heldTx } ∧
        u.rel lane 0 = { s.rel lane 0 with rx := ((s.rel lane 0).rx + 1) % 2 ^ 16 } ∧
        ∃ t, exec (.acycFrame lane seq d e) s = .next t ∧
          t = { r.1 with obj := t.obj, rels := t.rels, inject := t.inject, attn := t.attn, responses := t.responses } ∧
          Tbl.get [] t.responses m = answer ∧ t.attn = r.1.attn.filter (fun j => j != m) ∧
          (r.1.laneUp lane = true →
            ∃ y ∈ (t.rel lane 0).unacked ++ (t.rel lane 0).waiting, y.typ = 0x10 ∧ y.data = answer) ∧
          (messageOp d = 1 → (u.busyCheck m 1 x).2 = none → u.objectCheck m (keyOf x) = 0 →
            ∀ w, objRowOf (keyOf x) = some w → u.rightsCheck m 1 w x = 0 → x.offset = 0 → headerOk m 1 w x = true →
            w.ty ≠ .domain → keyOf x ≠ ok (0xB010 + m) 2 → keyOf x ≠ 0x200007 →
            r.2.status = 0 ∧
              r.2.data = if w.ty = .string then u.domainOf m (keyOf x) else leBytes w.ty.size (u.valueOf m (keyOf x))))) ∧
    (∀ (f : MgmtFrame) (e : Env), s.o 0x730002 ≠ 0 → s.power.stage ≠ 0 →
      (f.fcsOk = false → ∃ t, exec (.mgmtFrame f e) s = .next t ∧ t = { s with obj := t.obj } ∧ Counts s t 0x730004 1) ∧
      (f.fcsOk = true → mgmtAccepts f = false →
        ∃ t, exec (.mgmtFrame f e) s = .next t ∧ t = { s with obj := t.obj } ∧ Counts s t 0x730005 1) ∧
      (f.fcsOk = true → mgmtAccepts f = true → s.serves 1 = false → s.mgmtHeld.length < 16 →
        ∃ t, exec (.mgmtFrame f e) s = .next t ∧ Counts s t 0x730003 1 ∧
          t = { s with obj := t.obj, mgmtHeld := s.mgmtHeld ++ [(f, e)] }) ∧
      (f.fcsOk = true → mgmtAccepts f = true → s.serves 1 = true → ∀ r,
        (s.mgmtStore f.src.toNat).1.resps.find? (fun r => r.1 == mgmtKind f * 2 ^ 16 + mgmtSeq f) = some r →
        ∃ t, exec (.mgmtFrame f e) s = .next t ∧
          t = { s with obj := t.obj, sent := t.sent, mgmtSources := t.mgmtSources } ∧
          Counts s t 0x730003 1 ∧ Counts s t 0x730006 1 ∧
          Tbl.get [] t.sent (12 * 256 + (if mgmtKind f = 2 then 2 else 1)) =
            mgmtFrame f.src.toNat (if mgmtKind f = 2 then 2 else 1) (mgmtSeq f) r.2) ∧
      (f.fcsOk = true → mgmtAccepts f = true → s.serves 1 = true → mgmtKind f = 0 → 16 ≤ mgmtLen f →
        (s.mgmtStore f.src.toNat).1.resps.find? (fun r => r.1 == mgmtSeq f) = none →
        let d := f.body.take (mgmtLen f)
        let r := (s.incO 0x730003 1).request 1 (messageOp d) (messageOf d) e
        let answer := responseBytes (messageOp d) (messageOf d) (r.1.attn.contains 1) r.2
        ∃ t, exec (.mgmtFrame f e) s = .next t ∧
          t = { r.1 with attn := t.attn, responses := t.responses, sent := t.sent, mgmtSources := t.mgmtSources } ∧
          Tbl.get [] t.responses 1 = answer ∧ t.attn = r.1.attn.filter (fun j => j != 1) ∧
          Tbl.get [] t.sent (12 * 256 + 1) = mgmtFrame f.src.toNat 1 (mgmtSeq f) answer ∧
          (t.mgmtStore f.src.toNat).1.resps.getLast? = some (mgmtSeq f, answer))) ∧
    (∀ (src : BitVec 48) (b : Bool) (seq : BitVec 16), s.o 0x730002 ≠ 0 → s.power.stage ≠ 0 → s.serves 1 = true →
      (s.mgmtStore src.toNat).1.resps.find? (fun r => r.1 == 2 * 2 ^ 16 + seq.toNat) = none →
      ∃ t, exec (.discovery src b seq) s = .next t ∧
        t = { s with obj := t.obj, sent := t.sent, mgmtSources := t.mgmtSources } ∧ Counts s t 0x730003 1 ∧
        Tbl.get [] t.sent (12 * 256 + 2) = mgmtFrame src.toNat 2 seq.toNat (s.identity 2 0xF 0 0) ∧
        (t.mgmtStore src.toNat).1.resps.getLast? = some (2 * 2 ^ 16 + seq.toNat, s.identity 2 0xF 0 0)) ∧
    (∀ (m : Fin 4) (tid : BitVec 8),
      Reaches s m 1 (messageFor tid (ok (0xB010 + m) 2) 0xC false 0 0 []) →
      ∃ t, exec (.nonce m tid) s = .next t ∧
        t = { s with free := t.free, obj := t.obj, dom := t.dom, rels := t.rels, attn := t.attn, inject := t.inject
                     masters := t.masters, transfers := t.transfers, aborted := t.aborted, responses := t.responses } ∧
        Answered t m 0 ∧ (t.master m).nonceLive = true ∧ t.d (ok (0xB010 + m) 2) = leBytes 16 s.fresh.1 ∧
        (Tbl.get [] t.responses m).drop 16 = leBytes 16 s.fresh.1)

/-- R491 to R496: the token goes to a master while it is free, back on release, and to the management port when seized; an
OPEN with the proof for its owner opens a session, a CLOSE and a lost port end it, and a failed OPEN counts; a write of
HOST_MAJOR completes the negotiation with ACTIVE the features requested and offered. The model's own choices in it: log
113, 114, 116. -/
def Obligations.TokensAndSessionsChangeHands : Prop :=
  ∀ (m : Fin 4) (tid : BitVec 8) (g : Segment) (v : BitVec 16) (s : State),
    let holder := s.o 0x1F0001
    (WriteAdmitted s m tid 0x1F0002 1 → ∃ t, exec (.tokenAcquire m tid) s = .next t ∧
      t = { s with obj := t.obj, rels := t.rels, attn := t.attn, inject := t.inject, responses := t.responses } ∧
      (m.val < 2 → holder = 0 ∨ holder = m.val + 1 → Answered t m 0 ∧ t.o 0x1F0001 = m.val + 1 ∧
        (holder = 0 → t.o 0x1F0005 = s.now)) ∧
      (¬(m.val < 2 ∧ (holder = 0 ∨ holder = m.val + 1)) → Answered t m 0x09 ∧ t.o 0x1F0001 = holder)) ∧
    (WriteAdmitted s m tid 0x1F0002 0 → ∃ t, exec (.tokenRelease m tid) s = .next t ∧
      t = { s with obj := t.obj, rels := t.rels, attn := t.attn, inject := t.inject, responses := t.responses } ∧
      Answered t m 0 ∧
      t.o 0x1F0001 = (if holder = m.val + 1 then 0 else holder)) ∧
    (WriteAdmitted s m tid 0x1F0003 1 → holder ≠ 2 → ∃ t, exec (.seize m tid) s = .next t ∧
      t = { s with obj := t.obj, rels := t.rels, attn := t.attn, inject := t.inject, transfers := t.transfers
                   aborted := t.aborted, responses := t.responses } ∧
      Answered t m 0 ∧ t.o 0x1F0001 = 2 ∧ t.o 0x1F0005 = s.now ∧ Counts s t 0x1F0004 1) ∧
    ((s.master m).lostAt ≠ 0 → (s.master m).lostAt + 1000000000 ≤ s.now + 1 →
      ∃ t, exec (.portLoss m) s = .next t ∧
        t = { s with obj := t.obj, dom := t.dom, inject := t.inject, transfers := t.transfers, aborted := t.aborted } ∧
        t.session m = 0xFF ∧
        t.o 0x1F0001 = (if holder = m.val + 1 then 0 else holder) ∧ t.o (homeOf m 0x108304) = 0) ∧
    (WholeAdmitted s m (ok (0xB010 + m) 3) g → g.data.length = 17 →
      let w := natAt g.data 0 1
      ∃ t, exec (.sessionOpen m g) s = .next t ∧
        t = { s with obj := t.obj, rels := t.rels, attn := t.attn, inject := t.inject, masters := t.masters
                     transfers := t.transfers, aborted := t.aborted, responses := t.responses } ∧
        (t.master m).nonceLive = false ∧
        (∀ key, (s.master m).nonceLive = true → w < 4 → s.fuses.key w = some key →
          g.data.drop 1 = s.sessionProof m w key → Answered t m 0 ∧ t.session m = w) ∧
        ((s.master m).nonceLive = false → Answered t m 0x05 ∧ t.session m = s.session m ∧
          Counts s t (ok (0xB010 + m) 5) 1)) ∧
    (WriteAdmitted s m tid (ok (0xB010 + m) 4) 1 → ∃ t, exec (.sessionClose m tid) s = .next t ∧
      t = { s with obj := t.obj, rels := t.rels, attn := t.attn, inject := t.inject, transfers := t.transfers
                   aborted := t.aborted, responses := t.responses } ∧ Answered t m 0 ∧ t.session m = 0xFF) ∧
    (WriteAdmitted s m tid 0x108303 v.toNat → ∃ t, exec (.hostMajor m tid v) s = .next t ∧
      t = { s with obj := t.obj, dom := t.dom, rels := t.rels, attn := t.attn, inject := t.inject
                   responses := t.responses } ∧ Answered t m 0 ∧
      t.o (homeOf m 0x108303) = v.toNat ∧ t.o (homeOf m 0x108304) = (if v.toNat = s.o 0x108301 then 1 else 2) ∧
      t.d (homeOf m 0x108201) =
        List.zipWith (fun a b => a &&& b) (s.d (homeOf m 0x108101)) (s.d 0x108001))

/-- R55, R457, R504, R507, R513, R514, R563, R568, R617, R618, R620: the kept store is cleared but for the device number,
the log and the trace ring are emptied, counters start at 0 with their new selection, an injection is armed and stopped,
the supervisor declares itself, the summary is written before a power cycle is acknowledged, and a failover is requested.
The model's own choices in it: log 110, 129, 130. -/
def Obligations.ServiceWritesTakeEffect : Prop :=
  ∀ (m : Fin 4) (tid : BitVec 8) (g : Segment) (s : State),
    (WriteAdmitted s m tid 0x1F3002 1 → s.o 0x400001 ≠ 1 → ∃ t, exec (.restoreDefaults m tid) s = .next t ∧
      t = { s with obj := t.obj, rels := t.rels, attn := t.attn, inject := t.inject, flash := t.flash
                   responses := t.responses } ∧
      Answered t m 0 ∧ t.flash.kept = s.flash.kept.filter (fun e => e.1 == 0x700008) ∧ t.flash.keptDom = []) ∧
    (WriteAdmitted s m tid 0x800104 1 → ∃ t, exec (.errorLogClear m tid) s = .next t ∧
      t = { s with obj := t.obj, obs := t.obs, rels := t.rels, attn := t.attn, inject := t.inject
                   responses := t.responses } ∧
      Answered t m 0 ∧ t.obs.log = [] ∧ t.obs.sticky = [] ∧ t.o 0x800101 = 0) ∧
    (∀ y, SegmentAdmitted s m 0x901001 g → g.offset ≠ 0 → s.transfer m g.tid.toNat = some y → y.write = true →
      y.key = 0x901001 → g.offset.toNat = y.data.length → y.total = 2048 → g.total.toNat = 2048 → g.last = true →
      y.data.length + g.data.length = 2048 →
      let v (n : Nat) : Nat := wordAt (y.data ++ g.data) (4 * n)
      (∀ n, n < 512 → counterEntryOk (v n) = true) →
      ∃ t, exec (.counterSelect m g) s = .next t ∧
        t = { s with obj := t.obj, obs := t.obs, rels := t.rels, attn := t.attn, inject := t.inject
                     transfers := t.transfers, responses := t.responses } ∧ Answered t m 0 ∧
        ∀ n, n < 512 → t.selection n = v n ∧ (s.selection n ≠ v n → Tbl.get 0 t.obs.counts n = 0) ∧
          (s.selection n = v n → Tbl.get 0 t.obs.counts n = Tbl.get 0 s.obs.counts n)) ∧
    (WriteAdmitted s m tid 0x900001 1 → ∃ t, exec (.traceEnable m tid) s = .next t ∧
      t = { s with obj := t.obj, obs := t.obs, rels := t.rels, attn := t.attn, inject := t.inject
                   responses := t.responses } ∧
      Answered t m 0 ∧ t.o 0x900001 = 1 ∧ t.obs.ring.length ≤ 1 ∧ (s.o 0x900001 = 1 → t.obs.ring = [])) ∧
    (WriteAdmitted s m tid 0xC00005 1 → ∃ t, exec (.faultInjectArm m tid) s = .next t ∧
      t = { s with obj := t.obj, obs := t.obs, rels := t.rels, attn := t.attn, inject := t.inject, power := t.power
                   responses := t.responses } ∧
      (m.val = 1 → t.inject = some ⟨s.o 0xC00001, s.o 0xC00002, s.o 0xC00003, s.o 0xC00004, m⟩ ∧ t.o 0xC00006 = 0)) ∧
    (WriteAdmitted s m tid 0xC00005 0 → ∃ t, exec (.faultInjectStop m tid) s = .next t ∧
      t = { s with obj := t.obj, rels := t.rels, attn := t.attn, inject := t.inject, responses := t.responses } ∧
      Answered t m 0 ∧ t.inject = none) ∧
    (WriteAdmitted s m tid 0x801101 1 → ∃ t, exec (.supervisorPresent m tid) s = .next t ∧
      t = { s with obj := t.obj, obs := t.obs, rels := t.rels, attn := t.attn, inject := t.inject, power := t.power
                   responses := t.responses } ∧
      t.oBit 0x801100 3 = true) ∧
    (WriteAdmitted s m tid 0x80000B 1 → s.o 0x80000A ≠ 0 → ∃ t, exec (.cycleAck m tid) s = .next t ∧
      t = { s with obj := t.obj, obs := t.obs, rels := t.rels, attn := t.attn, inject := t.inject, power := t.power
                   flash := t.flash, responses := t.responses } ∧
      t.flash.recnum = (s.flash.recnum + 1) % 2 ^ 32 ∧ t.flash.sumAt = s.now ∧
      t.flash.sumDue = false ∧ t.o 0x800202 = s.now ∧ Counts s t 0x800203 1) ∧
    (WriteAdmitted s m tid 0x710004 1 → s.o 0x710001 ≠ 0 → s.laneUp (1 - s.mainLink) = true →
      ∃ t, exec (.switch m tid) s = .next t ∧
        t = { s with obj := t.obj, loop := t.loop, rels := t.rels, attn := t.attn, inject := t.inject
                     responses := t.responses } ∧ Answered t m 0 ∧ t.loop = { s.loop with switchDue := true })

/-- R304, R308, R431, R434, R500: a stopped loop that is admitted waits for SYNC, and one that runs stops at the next
frame start; RETRAIN brings a lane into TRAINING; ENABLE lights or darkens a lane; a new device number is kept and lets
refused peer lanes train again. The model's own choices in it: log 68, 88, 89. -/
def Obligations.LoopAndLanesAreSwitched : Prop :=
  ∀ (m : Fin 4) (tid : BitVec 8) (lane : Fin 12) (v : BitVec 8) (e : Env) (s : State),
    (WriteAdmitted s m tid 0x400001 1 → s.o 0x400001 = 0 → s.o 0x1F2002 ≠ 3 → s.o 0x1F2002 ≠ 4 → s.power.entering = 0 →
      ∃ t, exec (.loopEnable m tid) s = .next t ∧
        t = { s with free := t.free, cores := t.cores, hqs := t.hqs, rgns := t.rgns, rgnNext := t.rgnNext
                     loopRgns := t.loopRgns, obj := t.obj, obs := t.obs, loop := t.loop, rels := t.rels
                     attn := t.attn, inject := t.inject, power := t.power, responses := t.responses } ∧
        (s.o 0x400006 ≠ 0 → Answered t m 0 ∧ t.o 0x400001 = 1 ∧ t.loop.stopping = false ∧ t.o 0x400006 = s.o 0x400006) ∧
        (∀ u, s.o 0x400006 = 0 → s.loopConfigOk = true → s.openBuffers = some u →
          let w := u.groupsInUse.foldl State.groupQueuesSet u
          w.groupPairsOk = true → (w.setO 0x400001 1).admitted.2 = true →
            t.o 0x400001 = 1 ∧ t.o 0x400006 = 1 ∧ t.loop.start = none) ∧
        (s.o 0x400006 = 0 → s.loopConfigOk = false → Answered t m 0x05 ∧ t.o 0x400001 = 0 ∧ t.o 0x400006 = 0)) ∧
    (WriteAdmitted s m tid 0x400001 0 → s.o 0x400001 = 1 →
      ∃ t, exec (.loopDisable m tid) s = .next t ∧
        t = { s with cores := t.cores, hqs := t.hqs, obj := t.obj, obs := t.obs, loop := t.loop, rels := t.rels
                     attn := t.attn, inject := t.inject, power := t.power, responses := t.responses } ∧ t.o 0x400001 = 0 ∧
        (s.loopRuns = true → t.loop.stopping = true ∧ t.loop.start = s.loop.start ∧ t.o 0x400006 = s.o 0x400006) ∧
        (s.loopRuns = false → t.o 0x400006 = 0 ∧ t.loop.start = none)) ∧
    (WriteAdmitted s m tid (laneObj lane 4) 1 → s.laneState lane = 4 ∨ s.laneState lane = 6 →
      ∃ t, exec (.retrain m tid lane) s = .next t ∧
        t = { s with obj := t.obj, obs := t.obs, loop := t.loop, lanes := t.lanes, rels := t.rels, peers := t.peers
                     attn := t.attn, inject := t.inject, masters := t.masters, transfers := t.transfers
                     aborted := t.aborted, power := t.power, responses := t.responses } ∧
        t.laneState lane = 3 ∧ (t.lane lane).idDone = false) ∧
    (e.flashFails = false → WriteAdmitted s m tid (laneObj lane 3) 0 →
      ∃ t, exec (.laneEnableWrite m tid lane false e) s = .next t ∧
        t = { s with obj := t.obj, obs := t.obs, loop := t.loop, lanes := t.lanes, rels := t.rels, peers := t.peers
                     attn := t.attn, inject := t.inject, masters := t.masters, transfers := t.transfers
                     aborted := t.aborted, power := t.power, flash := t.flash, responses := t.responses } ∧
        t.laneState lane = 0 ∧ t.o (laneObj lane 3) = 0) ∧
    (e.flashFails = false → WriteAdmitted s m tid (laneObj lane 3) 1 →
      ∃ t, exec (.laneEnableWrite m tid lane true e) s = .next t ∧
        t = { s with obj := t.obj, obs := t.obs, loop := t.loop, lanes := t.lanes, rels := t.rels, peers := t.peers
                     attn := t.attn, inject := t.inject, masters := t.masters, transfers := t.transfers
                     aborted := t.aborted, power := t.power, flash := t.flash, responses := t.responses } ∧
        t.o (laneObj lane 3) = 1 ∧
        t.laneState lane = (if s.laneState lane = 0 ∧ s.oBit 0x202001 10 = true then 1 else s.laneState lane)) ∧
    (e.flashFails = false → WriteAdmitted s m tid 0x700008 v.toNat →
      ∃ t, exec (.devNumLocalWrite m tid v e) s = .next t ∧
        t = { s with obj := t.obj, obs := t.obs, loop := t.loop, lanes := t.lanes, rels := t.rels, peers := t.peers
                     attn := t.attn, inject := t.inject, masters := t.masters, transfers := t.transfers
                     aborted := t.aborted, power := t.power, flash := t.flash, responses := t.responses } ∧
        t.o 0x700008 = v.toNat ∧
        (s.o 0x1F3003 ≠ 0 → Tbl.get none t.flash.kept 0x700008 = some v.toNat) ∧
        (s.o 0x700008 ≠ v.toNat → ∀ j, j < 6 →
          t.laneState (6 + j) = (if s.laneState (6 + j) = 6 then 3 else s.laneState (6 + j))))

/-! ### Contexts and code objects -/

/-- R246, R247, R257, R321 to R323, R330, R336, R599: a START whose checks pass brings the context to RUNNING under its
variant, with its entry in the context table, its queues enabled, its seed and SAMPLE_COUNT at 0; the first check that fails
is named and the context is REFUSED, its entry VALID without the lease; in another power state than P0, or while a cluster of
it is in P2, it waits in STARTING. STOP ends a context once no command of it is left; PREEMPT stops its appends and waits for
its cheap points. The model's own choices in it: log 29, 30, 136, 137, 138. -/
def Obligations.ContextsStartStopAndYield : Prop :=
  ∀ (m : Fin 4) (tid : BitVec 8) (n : Fin 64) (s : State),
    let state (t : State) : Nat := t.o (ctxObj n 0xB)
    let off (t : State) : Prop := ∀ c ∈ s.ctxCores n, bit (t.core c).ctxEn n = false
    let own := s.o (ctxObj n 1)
    let part := s.o (ctxObj n 2)
    let entry (lease : Nat) : W32 := BitVec.ofNat 32 (own + part * 4 + 16 + lease * 32)
    (WriteAdmitted s m tid (ctxObj n 0xA) 1 → state s = 0 ∨ state s = 6 → ∃ t, exec (.contextStart m tid n) s = .next t ∧
        t = { s with free := t.free, cores := t.cores, hqs := t.hqs, mem := t.mem, ecc := t.ecc, omap := t.omap
                     wins := t.wins, closingWins := t.closingWins, rgns := t.rgns, rgnNext := t.rgnNext
                     ctxTab := t.ctxTab, obj := t.obj, obs := t.obs, rels := t.rels, attn := t.attn
                     inject := t.inject, maps := t.maps, power := t.power, adapts := t.adapts
                     submissions := t.submissions, responses := t.responses } ∧
        Answered t m 0 ∧
        (s.startClusters n ≠ [] ∨ s.o 0x1F2002 ≠ 0 ∨ s.power.entering ≠ 0 →
          state t = 1 ∧ Tbl.get 0 t.ctxTab n = entry 0 ∧ t.power.waiting = s.power.waiting ++ [(n.val, false)]) ∧
        (s.startClusters n = [] → s.o 0x1F2002 = 0 → s.power.entering = 0 →
          let refused (reason core : Nat) : Prop :=
            state t = 6 ∧ t.o (ctxObj n 0xC) = reason + core * 2 ^ 8 ∧ Tbl.get 0 t.ctxTab n = entry 0
          (∀ x y, StartPasses s n x y → state t = 2 ∧ t.o (ctxObj n 0xC) = s.o (ctxObj n 0xC) ∧ t.o (ctxObj n 0x12) = x.key ∧
            Counts s t (ctxObj n 0xD) 1 ∧ (∀ c ∈ s.ctxCores n, bit (t.core c).ctxEn n = true) ∧
            Tbl.get 0 t.ctxTab n = entry (b01 (!y.1.rt && imgPred (s.imageOf (s.o (ctxObj n 4))))) ∧ t.o (sampleCount n) = 0 ∧
            (s.o (ok (0x5500 + n) 2) ≠ 1 → t.o (ok (0x5500 + n) 3) = s.o (ok (0x5500 + n) 1))) ∧
          (s.o (ok (0x3100 + own) 1) ≤ countBelow 64 (fun i => i != n && s.ctxActive i && s.o (ctxObj i 1) == own) ∨
            s.oBit (ok (0x3100 + own) 2) part = false → refused 1 0) ∧
          (countBelow 64 (fun i => i != n && s.ctxActive i && s.o (ctxObj i 1) == own) < s.o (ok (0x3100 + own) 1) →
            s.oBit (ok (0x3100 + own) 2) part = true →
            (∀ c, s.badCore n = some c → refused 2 c) ∧
            (s.badCore n = none → s.objectOk n = false → refused 3 0) ∧
            (s.badCore n = none → s.objectOk n = true → s.startTuples n (s.imageOf (s.o (ctxObj n 4))) = none →
              refused 4 0)))) ∧
    (WriteAdmitted s m tid (ctxObj n 0xA) 2 →
      (∀ k, k < 64 → s.pubState k = 1 ∨ s.pubState k = 2 → (s.adapt k).target ≠ n) →
      s.power.waiting = [] → s.anyPreempting = false ∨ PowerQuiet s →
      ∃ t, exec (.contextStop m tid n) s = .next t ∧
        t = { s with cores := t.cores, hqs := t.hqs, ctxTab := t.ctxTab, obj := t.obj, obs := t.obs, rels := t.rels
                     attn := t.attn, inject := t.inject, maps := t.maps, invocations := t.invocations
                     saved := t.saved, stoppingCtx := t.stoppingCtx, power := t.power, adapts := t.adapts
                     responses := t.responses } ∧
        (state s = 0 → Answered t m 0x06) ∧
        (state s ≠ 0 → Answered t m 0 ∧ off t) ∧
        (state s = 4 ∨ state s = 6 ∨ (state s ≠ 0 ∧ state s ≠ 5 ∧ s.busyCtx n = false) →
          state t = 0 ∧ Tbl.get 0 t.ctxTab n = 0 ∧ t.mapOf n = none ∧ t.o (ctxObj n 0x12) = 0) ∧
        (state s = 2 → s.busyCtx n = true → state t = 2 ∧ t.stoppingCtx.contains n.val = true)) ∧
    (WriteAdmitted s m tid (ctxObj n 0xA) 3 → ∃ t, exec (.contextPreempt m tid n) s = .next t ∧
      t = { s with cores := t.cores, obj := t.obj, obs := t.obs, rels := t.rels, attn := t.attn, inject := t.inject
                   saved := t.saved, power := t.power, responses := t.responses } ∧
      (state s = 2 → part ≠ 0 → Answered t m 0 ∧ state t = 3 ∧ Tbl.get 0 t.saved n = 0 ∧ off t) ∧
      (state s ≠ 2 ∨ part = 0 → Answered t m 0x06 ∧ state t = state s))

/-- R331 to R334: at its cheap point a core writes its header to its record, and appends to SE0 a STREAM_OUT of its first live
region with view 63 and stream descriptor 63; as the command of a region retires, that of the next is appended; with the last
region of the last core the context is PREEMPTED and gives up its lease. RESUME brings the regions, the highest first, and the
predicates of best-effort commands back, with the lease, and the context runs. The model's own choices in it: log 67. -/
def Obligations.ContextsAreSavedAndResumed : Prop :=
  ∀ (m : Fin 4) (tid : BitVec 8) (n : Fin 64) (core : Fin 24) (s : State),
    let a := (s.saveRecord n core).1
    let q := (s.saveRecord n core).2
    let y := s.engine core 2
    let live := (Tbl.get MarkRec.reset (s.core core).marks n).live
    let entry (lease : Nat) : W32 :=
      BitVec.ofNat 32 (s.o (ctxObj n 1) + s.o (ctxObj n 2) * 4 + 16 + lease * 32)
    let whole (t : State) : Prop :=
      let saved := nput (Tbl.get 0 s.saved n) core 1 1
      (t.core core).saving = none ∧ Tbl.get 0 t.saved n = saved ∧
        Tbl.get 0 t.saved (64 + 32 * n.val + core.val) = (s.core core).width + 1 ∧
        ((s.configCores n).all (nbit saved) = true →
          t.o (ctxObj n 0xB) = 4 ∧ Tbl.get 0 t.ctxTab n = entry 0 ∧ Counts s t (ctxObj n 0xE) 1) ∧
        ((s.configCores n).all (nbit saved) = false → t.o (ctxObj n 0xB) = 3)
    let appended (t : State) (r : Nat) (rest : List Nat) : Prop :=
      let k := 128 + (liveRegions live).findIdx (fun i => i == r) * 0x8000
      (t.core core).saving = some (n.val, r :: rest) ∧ t.o (ctxObj n 0xB) = 3 ∧ t.saved = s.saved ∧
        (t.engine core 2).queue = y.queue ++ [⟨y.appended % 64, saveCmd n (s.o (ctxObj n 1)) rest.isEmpty, s.coreCycle core⟩] ∧
        (t.engine core 2).group = some n.val ∧
        (∀ i, Tbl.get 0 (t.core core).views i = Tbl.get 0 ((s.pointSave n core r (a + k)).core core).views i) ∧
        ∀ i, Tbl.get 0 (t.core core).sdescs i = Tbl.get 0 ((s.pointSave n core r (a + k)).core core).sdescs i
    let room := y.queue.length < 64 ∧ (y.group = none ∨ y.group = some n.val)
    s.power.waiting = [] → PowerQuiet s → s.stoppingCtx = [] →
    ((s.publishing = true → s.publishedCore core 64 = false) → s.o (ctxObj n 0xB) = 3 →
      (s.configCores n).contains core.val = true → nbit (Tbl.get 0 s.saved n) core = false →
      s.atCheapPoint n core = true → (s.core core).saving = none → FarGranted s q true a 128 → a + 128 ≤ 0x200000000 →
      ∃ t, exec (.cheapPointReached n core) s = .next t ∧
        t = { s with cores := t.cores, mem := t.mem, ecc := t.ecc, line := t.line, obj := t.obj, obs := t.obs
                     chans := t.chans, ceRows := t.ceRows, attn := t.attn, saved := t.saved, ctxTab := t.ctxTab
                     power := t.power } ∧
        t.mem = storeAll s.mem [(a, s.saveHeader n core)] ∧ (liveRegions live = [] → whole t) ∧
        (∀ r rest, liveRegions live = r :: rest → room → appended t r rest)) ∧
    (∀ (f : Flight) (r0 : Nat) (rest : List Nat), (s.core core).saving = some (n.val, r0 :: rest) → s.o (ctxObj n 0xB) = 3 →
      y.flights = [f] → f.cmd.ctx = n.val → (s.setEngine core 2 { y with flights := [] }).holdsCmds n core = false →
      f.due (s.coreCycle core) = true → f.inTime (s.coreCycle core) = true → s.pushTurn core f.cmd = true → f.pbit = none →
      ∃ t, exec (.commandRetire core .se0) s = .next t ∧ (t.engine core 2).flights = [] ∧ t.mem = s.mem ∧
        (rest = [] → whole t) ∧ (∀ r l, rest = r :: l → room → appended t r l)) ∧
    (WriteAdmitted s m tid (ctxObj n 0xA) 4 → s.o 0x1F2002 = 0 → s.o (ctxObj n 0xB) = 4 →
      s.startClusters n = [] → s.leaseWaits n = false → s.configCores n = [core.val] →
      Tbl.get 0 s.saved (64 + 32 * n.val + core.val) = (s.core core).width + 1 →
      let h := s.bytes a 128
      let regions := liveRegions (wordAt h 4 + wordAt h 8 * 2 ^ 32)
      a % 4096 = 0 → a + 0x201000 ≤ 0x200000000 → FarGranted s q false a (128 + regions.length * 0x8000) →
      (∀ i ∈ regions, s.omapPermits core (i * 0x8000) 0x8000 q.own = .granted) →
      ∃ t, exec (.contextResume m tid n) s = .next t ∧
        t = { s with cores := t.cores, mem := t.mem, ecc := t.ecc, line := t.line, obj := t.obj, obs := t.obs
                     chans := t.chans, ceRows := t.ceRows, rels := t.rels, attn := t.attn, reqs := t.reqs
                     inject := t.inject, stoppingCtx := t.stoppingCtx, ctxTab := t.ctxTab, power := t.power
                     responses := t.responses } ∧
        Answered t m 0 ∧
        t.o (ctxObj n 0xB) = 2 ∧ bit (t.core core).ctxEn n = true ∧ Tbl.get 0 t.ctxTab n = entry (b01 (s.declares n)) ∧
        t.mem = storeAll s.mem (regions.zipIdx.reverse.map (fun r =>
          (spadAddr core (r.1 * 0x8000), s.bytes (a + 128 + r.2 * 0x8000) 0x8000))) ∧
        Tbl.get PredBank.reset (t.core core).preds 1 =
          (if nbit (wordAt h 0) 29 then bankOfWords (fun i => wordAt h (4 * (5 + i)))
           else Tbl.get PredBank.reset (s.core core).preds 1))

/-- R352, R363: an invocation whose SEQ is new is refused with the dimension that has no bucket, or begins with its bucket
indexes in the record and its variant in use; when every command has retired DONE_SEQ becomes its SEQ. The model's own
choices in it: log 134. -/
def Obligations.InvocationsRunTheirVariant : Prop :=
  ∀ (n : Fin 64) (s : State),
    let a := hubAddr (s.o (ctxObj n 0x14))
    let r := s.bytes a 64
    let seq := wordAt r 0
    (∀ x, s.mapOf n = some x → s.o (ctxObj n 0xB) = 2 → x.rt = false → s.pubState n ≠ 1 →
      Tbl.get 0 s.invocations n = 0 → seq ≠ wordAt r 4 → WordsSound s a 64 →
      let img := s.imageOf x.slot
      let b := bucketsOf img ((List.range 8).map (fun (i : Nat) => wordAt r (16 + 4 * i)))
      let cores := x.progs.map (fun p => p.core)
      let y := s.tryConfig n x.slot img cores (s.widthCodes cores) (tupleOf img b.1)
      imgNdim img ≠ 0 → ∃ t, exec (.invocationStart n) s = .next t ∧
        t = { s with free := t.free, cores := t.cores, hqs := t.hqs, mem := t.mem, ecc := t.ecc, omap := t.omap
                     wins := t.wins, closingWins := t.closingWins, obj := t.obj, obs := t.obs, maps := t.maps
                     invocations := t.invocations, adapts := t.adapts } ∧
        (∀ d, b.2 = some d → t.mem = storeAll s.mem [(a + 4, leBytes 4 seq), (a + 8, leBytes 4 (1 + d * 16))] ∧
          t.mapOf n = some x ∧ Tbl.get 0 t.invocations n = 0) ∧
        (∀ z, b.2 = none → y.mapped = some z → Tbl.get 0 t.invocations n = seq + 1 ∧
          (y.key = x.key → t.mapOf n = some x ∧ t.mem = storeAll s.mem [(a + 8, leBytes 4 0),
            (a + 12, leBytes 4 ((b.1.zipIdx.map (fun p => p.1 * 16 ^ p.2)).sum))]) ∧
          (y.key ≠ x.key → t.mapOf n = some z.1 ∧ t.o (ctxObj n 0x12) = y.key))) ∧
    (∀ v, Tbl.get 0 s.invocations n = v + 1 → s.busyCtx n = false →
      ∃ t, exec (.invocationDone n) s = .next t ∧
        t = { s with cores := t.cores, mem := t.mem, ecc := t.ecc, obj := t.obj, obs := t.obs
                     invocations := t.invocations, adapts := t.adapts } ∧
        t.mem = storeAll s.mem [(a + 4, leBytes 4 v)] ∧ Tbl.get 0 t.invocations n = 0 ∧
        t.o (adaptObj n 3) = (if s.adapts? n then satAdd (objMax (adaptObj n 3)) (s.o (adaptObj n 3)) 1
          else s.o (adaptObj n 3)))

/-- R353 to R355: an image comes segment by segment into its slot; a slot in CHECKING whose image passes every check holds
it locked in cleared pages of DRAM with its measurement, and one that fails names the check; a pinned image is copied to
flash; UNLOAD empties the slot. The model's own choices in it: log 127, 139. -/
def Obligations.CodeObjectsAreLoadedAndPinned : Prop :=
  ∀ (m : Fin 4) (i : Fin 32) (g : Segment) (tid : BitVec 8) (v failed : Bool) (e : Env) (s : State),
    let k := i.val + 1
    let slot (t : State) (b : Nat) : Nat := t.o (slotObj k b)
    let total := g.total.toNat
    let held := if g.offset = 0 then [] else Tbl.get [] s.loading k
    (SegmentAdmitted s m (slotObj k 2) g → s.writable (slotObj k 2) = true → slot s 8 = 0 → slot s 3 ≠ 4 →
      g.offset.toNat + g.data.length ≤ total → (g.last = true → g.offset.toNat + g.data.length = total) →
      (g.offset = 0 → s.transfer m g.tid.toNat = none) →
      (g.offset ≠ 0 → ∃ y, s.transfer m g.tid.toNat = some y ∧ y.write = true ∧ y.key = slotObj k 2 ∧ y.total = total ∧
        y.data.length = g.offset.toNat) →
      ∃ t, exec (.codeObjectImage m i g) s = .next t ∧
        t = { s with rgns := t.rgns, rgnNext := t.rgnNext, obj := t.obj, dom := t.dom, rels := t.rels
                     attn := t.attn, inject := t.inject, transfers := t.transfers, aborted := t.aborted
                     loading := t.loading, responses := t.responses } ∧ Answered t m 0 ∧
        Tbl.get [] t.loading k = held ++ g.data ∧ slot t 3 = (if g.last then 2 else 1) ∧
        (g.offset = 0 → slot t 4 = 0 ∧ slot t 5 = 0)) ∧
    (slot s 3 = 2 → ∃ t, exec (.loadCheck i) s = .next t ∧
      t = { s with mem := t.mem, line := t.line, rgns := t.rgns, rgnNext := t.rgnNext, holders := t.holders
                   obj := t.obj, dom := t.dom, obs := t.obs, attn := t.attn, loading := t.loading, power := t.power } ∧
      let img := Tbl.get [] s.loading k
      let n := imagePages img.length
      Tbl.get [] t.loading k = [] ∧
      (∀ p f, s.loadError k img = 0 → s.roomFor n = some (p, f) →
        slot t 3 = (if slot s 7 = 1 ∧ slot s 8 = 0 then 4 else 3) ∧ slot t 5 = img.length ∧ slot t 0xB = imgVersion img ∧
          slot t 0xC = p * 0x200000 ∧ t.bytes (p * 0x200000) img.length = img ∧ t.d (slotObj k 6) = sha256 img ∧
          t.rgn f 0 = BitVec.ofNat 32 (p + (n - 1) * 2 ^ 12 + slot s 1 * 2 ^ 25 + 2 ^ 27 + 2 ^ 30 + 2 ^ 31) ∧
          ∀ a, p * 0x200000 + img.length ≤ a → a < (p + n) * 0x200000 → t.byte a = 0) ∧
      (s.loadError k img ≠ 0 → slot t 3 = 5 ∧ slot t 4 = s.loadError k img ∧ slot t 5 = 0 ∧ t.mem = s.mem)) ∧
    (e.flashFails = false → WriteAdmitted s m tid (slotObj k 7) (b01 v) → ∃ t, exec (.pin m tid i v e) s = .next t ∧
      t = { s with obj := t.obj, obs := t.obs, rels := t.rels, attn := t.attn, inject := t.inject, pins := t.pins
                   reloads := t.reloads, power := t.power, flash := t.flash, responses := t.responses } ∧
      (v = true → slot s 8 = 0 → 40 * 2 ^ 20 < s.pinnedBytes + slot s 5 → Answered t m 0x05 ∧
        slot t 3 = slot s 3 ∧ slot t 7 = slot s 7) ∧
      (v = true → slot s 8 ≠ 0 ∨ s.pinnedBytes + slot s 5 ≤ 40 * 2 ^ 20 → Answered t m 0 ∧ slot t 7 = 1 ∧
        slot t 3 = (if slot s 3 = 3 ∧ slot s 8 = 0 then 4 else slot s 3)) ∧
      (v = false → Answered t m 0 ∧ slot t 7 = 0 ∧ slot t 8 = 0 ∧ Tbl.get none t.pins k = none ∧
        slot t 3 = (if slot s 3 = 4 then 3 else slot s 3))) ∧
    (slot s 3 = 4 → ∃ t, exec (.pinCopyDone i failed) s = .next t ∧
      t = { s with obj := t.obj, obs := t.obs, attn := t.attn, pins := t.pins, power := t.power } ∧ slot t 3 = 3 ∧
      (failed = true → slot t 4 = 0x0C ∧ t.pins = s.pins) ∧
      (failed = false → slot t 8 = 1 ∧ Tbl.get none t.pins k = some (s.imageOf k))) ∧
    (WriteAdmitted s m tid (slotObj k 9) 1 → s.writable (slotObj k 9) = true →
      ∃ t, exec (.unload m tid i) s = .next t ∧
        t = { s with rgns := t.rgns, rgnNext := t.rgnNext, obj := t.obj, dom := t.dom, obs := t.obs, rels := t.rels
                     attn := t.attn, inject := t.inject, loading := t.loading, pins := t.pins, reloads := t.reloads
                     power := t.power, responses := t.responses } ∧
        (slot s 3 = 4 → Answered t m 0x06 ∧ slot t 3 = 4) ∧
        (slot s 3 ≠ 4 → Answered t m 0 ∧ slot t 3 = 0 ∧ slot t 5 = 0 ∧ slot t 7 = 0 ∧ Tbl.get none t.pins k = none ∧
          ∀ f, s.imageEntry k = some f → t.rgn f 0 = s.rgn f 0 ∧ bit (t.rgn f 1) 8 = true ∧
            Tbl.get none t.rgnNext f = some (0, 0, s.clk.hub)))

/-- R32, R356, R572: a pinned image is read back into DRAM and stays READY where it measures as before, else it fails with
error 0x000B; an entry that still covers its old place closes first. A poisoned line of a pinned image is written from its
flash copy, or its row is retired where the copy is bad. The model's own choices in it: log 73. -/
def Obligations.PinnedImagesComeBackFromFlash : Prop :=
  ∀ (i : Fin 32) (line : Fin 0x8000000) (bad : Bool) (s : State),
    let k := i.val + 1
    let slot (t : State) (b : Nat) : Nat := t.o (slotObj k b)
    (∀ img, s.reloads.contains k = true → s.boot.up = true → s.power.channelLost = false → s.power.restart = [] →
      s.steps = [] → s.boot.loopHeld = false → Tbl.get none s.pins k = some img →
      ∃ t, exec (.pinnedReload i bad) s = .next t ∧
        t = { s with mem := t.mem, line := t.line, rgns := t.rgns, rgnNext := t.rgnNext, holders := t.holders
                     obj := t.obj, dom := t.dom, obs := t.obs, loop := t.loop, attn := t.attn, reloads := t.reloads
                     power := t.power } ∧
        let good := bad = false ∧ (s.roomFor (imagePages img.length)).isSome = true ∧ sha256 img = s.d (slotObj k 6)
        (∀ f, s.imageEntry k = some f → t = { s with rgns := t.rgns, rgnNext := t.rgnNext, obj := t.obj, loop := t.loop } ∧
          (Tbl.get none s.rgnNext f = none → t.rgn f 0 = s.rgn f 0 ∧ bit (t.rgn f 1) 8 = true ∧
            Tbl.get none t.rgnNext f = some (0, 0, s.clk.hub)) ∧
          (Tbl.get none s.rgnNext f ≠ none → t.rgns = s.rgns ∧ t.rgnNext = s.rgnNext)) ∧
        (s.imageEntry k = none → t.reloads.contains k = false) ∧
        (s.imageEntry k = none → good → slot t 3 = 3 ∧ t.imageOf k = img ∧ t.d (slotObj k 6) = s.d (slotObj k 6)) ∧
        (s.imageEntry k = none → ¬good → slot t 3 = 5 ∧ slot t 4 = 0x0B ∧ slot t 8 = 0)) ∧
    (∀ f j img, s.coverOf true (line.val * 64 / 0x200000) = some f → s.slotOfEntry f = some j →
      Tbl.get none s.pins j = some img → nbit (s.lineOf (line.val * 64)) 0 = true →
      let a := line.val * 64
      let d := (img.drop (a - s.o (slotObj j 0xC))).take 64
      let c := s.dramMap a
      ∃ t, exec (.modelReload line bad) s = .next t ∧
        t = { s with mem := t.mem, line := t.line, retiredPages := t.retiredPages, retiredRows := t.retiredRows
                     obj := t.obj, obs := t.obs, chans := t.chans, reloads := t.reloads, flash := t.flash } ∧
        (bad = false → t.mem = storeAll s.mem [(a, d ++ List.replicate (64 - d.length) 0)] ∧ nbit (t.lineOf a) 0 = false ∧
          t.retiredRows = s.retiredRows) ∧
        (bad = true → t.mem = s.mem ∧ nbit (t.lineOf a) 0 = true ∧
          t.retiredRows = (c.1 * 2 ^ 19 + bankOf c.2 * 2 ^ 15 + rowOf c.2) :: s.retiredRows))

/-! ### Adaptation, cameras and the tokenizer -/

/-- R360 to R363, R382: a submission is refused by form, by state or by a half that is not free, or takes the next row of
the batch being filled, which its bytes reach later; a batch that is full or closed has its other rows zero, its count in
DIM0 and its number in SEQ. The model's own choices in it: log 140, 141. -/
def Obligations.SubmissionsFillBatches : Prop :=
  ∀ (m : Fin 4) (n : Fin 64) (g : Segment) (tid : BitVec 8) (s : State),
    let x := s.adapt n
    let max_ := s.o (adaptObj n 6)
    let rolled (y : AdaptSt) : AdaptSt := { y with
      batch := y.batch + 1, rows := 0, closing := y.closing ++ [(y.batch, y.rows)]
      lastSeq := Tbl.set 0 y.lastSeq (y.batch % 2) (y.batch + 1) }
    let closed (b k : Nat) : List (Nat × List Byte) :=
      let r := hubAddr (s.o (ctxObj n 0x14))
      [(hubAddr (s.rowOffset n b k), List.replicate ((max_ - k) * s.o (adaptObj n 5)) 0), (r + 16, leBytes 4 k),
        (r, leBytes 4 (b + 1))]
    (WholeAdmitted s m (adaptObj n 7) g → ∃ t, exec (.submit m n g) s = .next t ∧
      t = { s with free := t.free, obj := t.obj, rels := t.rels, attn := t.attn, inject := t.inject
                   transfers := t.transfers, aborted := t.aborted, adapts := t.adapts, submissions := t.submissions
                   responses := t.responses } ∧
      let ok_ := subOk g.data (s.o (adaptObj n 5)) = true
      let runs := (s.o (ctxObj n 0xB) = 2 ∨ s.o (ctxObj n 0xB) = 4) ∧ s.adapts? n = true
      (¬ok_ → Answered t m 0x05 ∧ t.submissions = s.submissions) ∧
      (ok_ → ¬runs → Answered t m 0x06 ∧ t.submissions = s.submissions) ∧
      (ok_ → runs → s.halfFree n x.batch = false → Answered t m 0x07 ∧ t.submissions = s.submissions ∧
        Counts s t (adaptObj n 0xA) 1) ∧
      (ok_ → runs → s.halfFree n x.batch = true → Answered t m 0 ∧ Counts s t (adaptObj n 9) 1 ∧
        t.submissions = s.submissions ++ [⟨n, x.batch, x.rows, s.o (adaptObj n 9) % 2 ^ 32, g.data⟩] ∧
        t.adapt n = (if max_ ≤ x.rows + 1 then rolled { x with rows := x.rows + 1 } else { x with rows := x.rows + 1 }))) ∧
    (∀ y rest, s.submissions = y :: rest → ∃ t, exec .submissionRowWritten s = .next t ∧
      t = { s with free := t.free, mem := t.mem, ecc := t.ecc, obj := t.obj, obs := t.obs
                   submissions := t.submissions } ∧ t.submissions = rest ∧
      t.mem = storeAll s.mem [(hubAddr (s.rowOffset y.ctx y.batch y.row), s.batchRow y ((subFmt y.data).getD .fp32))]) ∧
    (∀ b k rest, x.closing = (b, k) :: rest → s.submissions.any (fun y => y.ctx == n.val && y.batch == b) = false →
      ∃ t, exec (.batchClose n none tid) s = .next t ∧
        t = { s with mem := t.mem, ecc := t.ecc, obj := t.obj, obs := t.obs, adapts := t.adapts } ∧
        t.mem = storeAll s.mem (closed b k) ∧ t.adapt n = { x with closing := rest }) ∧
    (WriteAdmitted s m tid (adaptObj n 8) 1 → x.closing = [] →
      s.submissions.any (fun y => y.ctx == n.val && y.batch == x.batch) = false →
      ∃ t, exec (.batchClose n (some m) tid) s = .next t ∧
        t = { s with mem := t.mem, ecc := t.ecc, obj := t.obj, obs := t.obs, rels := t.rels, attn := t.attn
                     inject := t.inject, adapts := t.adapts, responses := t.responses } ∧ Answered t m 0 ∧
        (x.rows = 0 → t.mem = s.mem ∧ t.adapt n = x) ∧
        (x.rows ≠ 0 → t.mem = storeAll s.mem (closed x.batch x.rows) ∧ t.adapt n = { rolled x with closing := [] }))

/-- R365 to R368: PUBLISH is refused where the target has not named the context or a state is wrong, else the publication
is PENDING and composed when no invocation runs, REFUSED where it is not admitted; its plan is requested for one frame, a
second one follows for scale records, the plan in force returns, and the last retirement makes it DONE; a change of
PUBLISH_FROM aborts it. The model's own choices in it: log 142, 143. -/
def Obligations.PublicationsTakeOneFrame : Prop :=
  ∀ (m : Fin 4) (n : Fin 64) (tid : BitVec 8) (v : BitVec 8) (e : Env) (s : State),
    let a := s.adapt n
    let tgt := s.o (adaptObj n 0xB)
    let st := s.pubState n
    let second := (mapEntries (s.d (adaptObj n 0xC))).any (fun y => y.kind == 1) && (s.composed n true).isSome
    (WriteAdmitted s m tid (adaptObj n 0xD) 1 → ∃ t, exec (.publish m tid n) s = .next t ∧
      t = { s with cores := t.cores, obj := t.obj, obs := t.obs, rels := t.rels, attn := t.attn, inject := t.inject
                   adapts := t.adapts, responses := t.responses } ∧
      let named := tgt < 64 ∧ s.o (ctxObj tgt 0x15) = n.val
      let good := (st = 0 ∨ st = 3 ∨ st = 4 ∨ st = 5) ∧ s.adapts? n = true ∧ s.o (ctxObj tgt 0xB) = 2 ∧
        s.o (ctxObj tgt 2) = 0
      let u := (s.setO (adaptObj n 0xE) 1).setAdapt n { a with phase := 0, target := tgt, frame := 0 }
      (tgt < 64 → ¬named → Answered t m 0x0A ∧ t.pubState n = st) ∧
      (64 ≤ tgt ∨ (named ∧ ¬good) → Answered t m 0x06 ∧ t.pubState n = st) ∧
      (named → good → Answered t m 0 ∧ (t.adapt n).target = tgt ∧
        (Tbl.get 0 s.invocations n ≠ 0 → t.pubState n = 1 ∧ (t.adapt n).phase = 0) ∧
        (Tbl.get 0 s.invocations n = 0 →
          (u.composed n false = none → t.pubState n = 4 ∧ t.o 0x400008 = 3) ∧
          ∀ pub loads, u.composed n false = some (pub, loads) →
            let code := u.admitCode (u.rtMaps ++ [pub]) u.admitGroups loads
            let cores := pub.progs.map (fun p => p.core)
            (code ≠ 1 → t.pubState n = 4 ∧ t.o 0x400008 = code) ∧
            (code = 1 → (u.loadPublication pub cores).gapsBroken cores = false →
              t.pubState n = 1 ∧ (t.adapt n).phase = 1 ∧ t.o 0x400008 = 1)))) ∧
    (e.flashFails = false → WriteAdmitted s m tid (ctxObj n 0x15) v.toNat → ∃ t, exec (.publishFrom m tid n v e) s = .next t ∧
      t = { s with cores := t.cores, obj := t.obj, obs := t.obs, rels := t.rels, attn := t.attn, inject := t.inject
                   flash := t.flash, adapts := t.adapts, responses := t.responses } ∧
      Answered t m 0 ∧ t.o (ctxObj n 0x15) = v.toNat ∧
      (s.o 0x1F3003 ≠ 0 → Tbl.get none t.flash.kept (ctxObj n 0x15) = some v.toNat) ∧
      ∀ k, k < 64 → s.pubState k = 1 ∨ s.pubState k = 2 → (s.adapt k).target = n.val →
        t.pubState k = (if v.toNat = s.o (ctxObj n 0x15) then s.pubState k else 5)) ∧
    (∀ pub loads, a.phase = 1 → st = 1 → ((s.compose n).adapt n).phase = 1 →
      (s.compose n).composed n false = some (pub, loads) →
      let cores := pub.progs.map (fun p => p.core)
      (∀ c ∈ cores, ∀ q ∈ (s.engine c 0).queue, scaleWriter q.cmd = true → q.cmd.ctx = a.target) →
      (∀ k, k < 64 → s.o (ctxObj k 0xB) = 3 → ∀ c ∈ cores, (s.configCores k).contains c = false) →
      ∃ t, exec (.publicationFrame n) s = .next t ∧
        t = { s with cores := t.cores, obj := t.obj, obs := t.obs, adapts := t.adapts } ∧ t.pubState n = 2 ∧
        (t.adapt n).phase = 2 ∧ (t.adapt n).frame = (s.frame + 1) % 2 ^ 32) ∧
    ((a.phase = 2 ∧ s.frame = a.frame) ∨ (a.phase = 3 ∧ s.frame = (a.frame + 1) % 2 ^ 32) →
      ∃ t, exec (.publicationFrame n) s = .next t ∧
        t = { s with cores := t.cores, obj := t.obj, obs := t.obs, adapts := t.adapts } ∧
        (t.adapt n).phase = (if a.phase = 2 ∧ second = true then 3 else 4) ∧ t.pubState n = st) ∧
    (a.phase = 4 → st = 2 → s.publicationRuns n = false → ∃ t, exec (.publicationDone n) s = .next t ∧
      t = { s with obj := t.obj, adapts := t.adapts } ∧ t.pubState n = 3 ∧ t.o (adaptObj n 0xF) = (a.frame + 1) % 2 ^ 32 ∧
      Counts s t (adaptObj n 0x10) 1 ∧ (t.adapt n).phase = 5)

/-- R386, R390 to R392: a camera stream is enabled where its configuration passes, and cleared when disabled; a frame that
is ready is delivered whole: its planes and header, then the control block, then the dimension record of the context named,
each write where the region table grants it to the stream's owner (R31). R393 to R396: a vocabulary is taken while the
tokenizer is off; a text is taken while none is being processed and the ring has room; the tokens of the bytes that are
decided go to the ring, then WRITE_SEQ and the dimension record. The model's own choices in it: log 144, 145, 146. -/
def Obligations.CamerasAndTextsDeliver : Prop :=
  (∀ (m : Fin 4) (tid : BitVec 8) (k : Fin 4) (v : Bool) (s : State),
    let cam (b : Nat) : Nat := s.o (camObj k b)
    let x := s.camera k
    let lost := (if x.cur.isSome then 1 else 0) + x.ready.length
    (WriteAdmitted s m tid (camObj k 1) (b01 v) → ∃ t, exec (.cameraEnable m tid k v) s = .next t ∧
      t = { s with mem := t.mem, ecc := t.ecc, obj := t.obj, obs := t.obs, rels := t.rels, attn := t.attn
                   inject := t.inject, cameras := t.cameras, responses := t.responses } ∧
      (cam 1 = b01 v → Answered t m 0 ∧ t.cameras = s.cameras ∧ t.mem = s.mem) ∧
      (v = true → cam 1 ≠ 1 → s.cameraOk k = false → Answered t m 0x05 ∧ t.o (camObj k 1) = cam 1 ∧ t.mem = s.mem) ∧
      (v = true → cam 1 ≠ 1 → s.cameraOk k = true → Answered t m 0 ∧ t.o (camObj k 1) = 1 ∧ t.camera k = Camera.reset ∧
        (HubGranted s (cam 0x16) (hubAddr (cam 0x1A)) 64 →
          t.mem = storeAll s.mem [(hubAddr (cam 0x1A), List.replicate 64 0)]) ∧
        (s.permits false (cam 0x1A / 0x1000) (cam 0x16) none true = .refused → cam 0x1A % 64 = 0 → t.mem = s.mem)) ∧
      (v = false → cam 1 ≠ 0 → Answered t m 0 ∧ t.o (camObj k 1) = 0 ∧ t.camera k = { x with cur := none, ready := [] } ∧
        (lost ≠ 0 → Counts s t (camObj k 0x1E) lost ∧ t.o (camObj k 0x1F) = 5) ∧
        (lost = 0 → t.o (camObj k 0x1E) = cam 0x1E))) ∧
    (∀ f rest, x.ready = f :: rest →
      let buf := f.seq % cam 0x18
      let base := cam 0x17 + buf * cam 0x19
      let p := s.planes k f.lines
      let next := (f.seq + 1) % 2 ^ 32
      let block := hubAddr (cam 0x1A)
      let dim := hubAddr (s.o (ctxObj (cam 0x1B) 0x14))
      (∀ g ∈ p.1.zipIdx, HubGranted s (cam 0x16) (base + 64 + g.2 * s.pstride k) (s.planeBytes k g.1).length) →
      HubGranted s (cam 0x16) base 64 → HubGranted s (cam 0x16) block 16 →
      (cam 0x1B < 64 → HubGranted s (cam 0x16) dim 24) → s.power.channelLost = false →
      ∃ t, exec (.imageDelivery k) s = .next t ∧
        t = { s with mem := t.mem, ecc := t.ecc, line := t.line, obj := t.obj, obs := t.obs, chans := t.chans
                     ceRows := t.ceRows, cameras := t.cameras } ∧
        t.camera k = { x with ready := rest, writeSeq := next } ∧ Counts s t (camObj k 0x1C) 1 ∧
        t.mem = storeAll s.mem (p.1.zipIdx.map (fun g => (base + 64 + g.2 * s.pstride k, s.planeBytes k g.1)) ++
          [(base, s.imageHeader k f p.2), (block + 8, leBytes 4 buf), (block + 12, leBytes 4 f.frame),
            (block, leBytes 4 next)] ++
          (if cam 0x1B < 64 then [(dim + 16, leBytes 4 buf), (dim + 20, leBytes 4 f.seq), (dim, leBytes 4 next)] else [])))) ∧
  (∀ (m : Fin 4) (tid : BitVec 8) (g : Segment) (e : Env) (s : State),
    let tok (t : State) (b : Nat) : Nat := t.o (tokObj b)
    let n := g.data.length
    (e.flashFails = false → WholeAdmitted s m (tokObj 2) g → ∃ t, exec (.vocab m g e) s = .next t ∧
      t = { s with obj := t.obj, dom := t.dom, rels := t.rels, attn := t.attn, inject := t.inject
                   transfers := t.transfers, aborted := t.aborted, flash := t.flash, responses := t.responses } ∧
      (vocabOk g.data = false ∨ e.trieFits = false → Answered t m 0x05 ∧ t.vocab = s.vocab) ∧
      (vocabOk g.data = true → e.trieFits = true → tok s 1 = 1 → Answered t m 0x06 ∧ t.vocab = s.vocab) ∧
      (vocabOk g.data = true → e.trieFits = true → tok s 1 ≠ 1 → Answered t m 0 ∧ t.d (tokObj 2) = g.data ∧
        tok t 0xB = 256 + t.vocab.length ∧
        (s.o 0x1F3003 ≠ 0 → Tbl.get none t.flash.keptDom (tokObj 2) = some g.data))) ∧
    (WholeAdmitted s m (tokObj 8) g → ∃ t, exec (.text m g) s = .next t ∧
      t = { s with free := t.free, ecc := t.ecc, obj := t.obj, obs := t.obs, rels := t.rels, attn := t.attn
                   inject := t.inject, transfers := t.transfers, aborted := t.aborted, tokenizer := t.tokenizer
                   responses := t.responses } ∧
      let free := s.tokenizer.jobs = [] ∧ s.unreleased + n + 32 ≤ tok s 5
      let seen := if s.tokenizer.jobs = [] then { s.tokenizer with released := s.tokRelease } else s.tokenizer
      (n = 0 → Answered t m 0x05 ∧ t.tokenizer = s.tokenizer) ∧
      (n ≠ 0 → tok s 1 = 0 → Answered t m 0x06 ∧ t.tokenizer = s.tokenizer) ∧
      (n ≠ 0 → tok s 1 ≠ 0 → ¬free → Answered t m 0x07 ∧ t.tokenizer = seen ∧ Counts s t (tokObj 0xE) 1) ∧
      (n ≠ 0 → tok s 1 ≠ 0 → free → Answered t m 0 ∧ Counts s t (tokObj 0xC) n ∧
        t.tokenizer = { seen with jobs := [(g.data, false)] })) ∧
    (WriteAdmitted s m tid (tokObj 9) 1 → ∃ t, exec (.flush m tid) s = .next t ∧
      t = { s with obj := t.obj, rels := t.rels, attn := t.attn, inject := t.inject, tokenizer := t.tokenizer
                   responses := t.responses } ∧
      (tok s 1 = 0 → Answered t m 0x06 ∧ t.tokenizer = s.tokenizer) ∧
      (tok s 1 ≠ 0 → Answered t m 0 ∧
        t.tokenizer = { s.tokenizer with jobs := s.tokenizer.jobs ++ [([], true)] })) ∧
    (∀ j rest, s.tokenizer.jobs = j :: rest →
      let x := s.tokenizer.feed (tok s 3) j.1
      let y := if j.2 then x.close else x
      let r := tokenize s.vocab j.2 y.held.length y.held
      let out := tok s 0xD
      let ring := hubAddr (tok s 4)
      let at_ (i : Nat) : Nat := ring + 2 * ((out + i) % tok s 5)
      let seq := (s.tokenizer.writeSeq + r.1.length) % 2 ^ 32
      let dim := hubAddr (s.o (ctxObj (tok s 7) 0x14))
      let own := tok s 0xA
      out + r.1.length ≤ objMax (tokObj 0xD) → (∀ i, i < r.1.length → HubGranted s own (at_ i) 2) →
      HubGranted s own (s.tokAddr 0) 4 → (tok s 7 < 64 → HubGranted s own dim 24) →
      (tok s 7 < 64 → s.permits false (tok s 6 / 0x1000) own none false = .granted ∧ WordsSound s (s.tokAddr 1) 4) →
      tok s 6 % 64 = 0 → tok s 4 % 2 = 0 → tok s 4 + 2 * tok s 5 ≤ 0x800000 →
      ∃ t, exec .tokenizeComplete s = .next t ∧
        t = { s with mem := t.mem, ecc := t.ecc, line := t.line, obj := t.obj, obs := t.obs, chans := t.chans
                     ceRows := t.ceRows, tokenizer := t.tokenizer } ∧
        tok t 0xD = out + r.1.length ∧
        let mem := storeAll s.mem (r.1.zipIdx.map (fun p => (at_ p.2, leBytes 2 p.1)) ++ [(s.tokAddr 0, leBytes 4 seq)])
        let release := leNat (Tbl.getList Memory.dflt mem (s.tokAddr 1) 4)
        t.tokenizer = { y with held := r.2, jobs := rest, writeSeq := seq
                               released := if 64 ≤ tok s 7 then y.released else release } ∧
        t.mem = storeAll mem (if 64 ≤ tok s 7 then [] else
          [(dim + 16, leBytes 4 ((seq + 2 ^ 32 - release) % 2 ^ 32)), (dim + 20, leBytes 4 release),
            (dim, leBytes 4 seq)])))

/-- R32, R52, R53, R268, R411, R413: windows and region entries open with their configuration where the checks allow it
and close in the steps of R32; after the loss of a channel the partitions are fenced and the DRAM is rebuilt empty. The
model's own choices in it: log 74, 77, 78. -/
def Obligations.WindowsAndRegionsOpenAndClose : Prop :=
  ∀ (m : Fin 4) (tid : BitVec 8) (n : Fin 64) (s : State),
    let own := s.session m
    let win (b : Nat) : Nat := ok (0x6200 + n) b
    let rgn (b : Nat) : Nat := ok (0x6100 + n) b
    (WriteAdmitted s m tid (win 2) 1 → bit (s.win n 0) 31 = false → s.windowClosing n = false →
      let c := configWords (s.o (win 1))
      let st := s.windowOpenStatus n (put32 c.1 31 1 0) c.2
      ∃ t, exec (.windowOpen m tid n) s = .next t ∧
        t = { s with free := t.free, wins := t.wins, closingWins := t.closingWins, obj := t.obj, rels := t.rels
                     attn := t.attn, inject := t.inject, responses := t.responses } ∧ Answered t m (st % 256) ∧
        (st ≠ 0 → t.wins = s.wins) ∧
        (st = 0 → t.win n 0 = put32 c.1 31 1 1 ∧ t.win n 1 = c.2 ∧ t.o (win 2) = 1 ∧ t.o (win 3) = 0)) ∧
    (WriteAdmitted s m tid (win 2) 0 → ∃ t, exec (.windowClose m tid n) s = .next t ∧
      t = { s with wins := t.wins, closingWins := t.closingWins, obj := t.obj, rels := t.rels, attn := t.attn
                   inject := t.inject, responses := t.responses } ∧
      Answered t m 0 ∧ t.o (win 2) = 0 ∧
      (bit (s.win n 0) 31 = true → s.windowAdmitted n = 0 → bit (t.win n 0) 31 = false) ∧
      (bit (s.win n 0) 31 = true → s.windowAdmitted n ≠ 0 → t.win n 0 = s.win n 0 ∧ t.windowClosing n = true)) ∧
    (WriteAdmitted s m tid (rgn 2) 1 →
      let c := configWords (s.o (rgn 1))
      let w0 := put32 (put32 c.1 31 1 1) 30 1 0
      let w1 := put32 c.2 8 2 0
      let mine := if bit (s.rgn n 0) 31 && rgnDram (s.rgn n 0) && fld (s.rgn n 0) 25 2 == own then
        2 * (fld (s.rgn n 0) 12 12 + 1) else 0
      let fits := s.coveredMib own - mine + (if rgnDram w0 then 2 * (fld w0 12 12 + 1) else 0) ≤ s.o (ok (0x3100 + own) 4)
      let fw := s.o (rgn 4) = 1
      ∃ t, exec (.regionOpen m tid n) s = .next t ∧
        t = { s with rgns := t.rgns, rgnNext := t.rgnNext, obj := t.obj, rels := t.rels, attn := t.attn
                     inject := t.inject, responses := t.responses } ∧
        (fw → Answered t m 0x03 ∧ t.rgns = s.rgns) ∧
        (¬fw → fld w0 25 2 = own → ¬(s.rgnOk n w0 w1 = true ∧ fits) → Answered t m 0x05 ∧ t.rgns = s.rgns) ∧
        (¬fw → fld w0 25 2 = own → s.rgnOk n w0 w1 = true → fits → Answered t m 0 ∧ t.o (rgn 2) = 1 ∧
          (if rgnRemoves (s.rgn n 0) (s.rgn n 1) w0 w1 then
            t.rgn n 0 = s.rgn n 0 ∧ bit (t.rgn n 1) 8 = true ∧ Tbl.get none t.rgnNext n = some (w0, w1, s.clk.hub)
           else t.rgn n 0 = w0 ∧ Tbl.get none t.rgnNext n = none))) ∧
    (WriteAdmitted s m tid (rgn 2) 0 → s.o (rgn 4) ≠ 1 →
      ∃ t, exec (.regionClose m tid n) s = .next t ∧
        t = { s with rgns := t.rgns, rgnNext := t.rgnNext, obj := t.obj, rels := t.rels, attn := t.attn
                     inject := t.inject, responses := t.responses } ∧ Answered t m 0 ∧ t.o (rgn 2) = 0 ∧
        (bit (s.rgn n 0) 31 = false → t.rgns = s.rgns) ∧
        (bit (s.rgn n 0) 31 = true → t.rgn n 0 = s.rgn n 0 ∧ bit (t.rgn n 1) 8 = true ∧ t.o (rgn 3) = 3 ∧
          Tbl.get none t.rgnNext n = some (put32 (s.rgn n 0) 31 1 0, s.rgn n 1, s.clk.hub))) ∧
    (s.power.channelLost = true → s.power.rebuilding = false →
      ∃ t, exec .channelRebuild s = .next t ∧
        t = { s with reqs := t.reqs, reloads := t.reloads, power := t.power } ∧
        t.power = { s.power with rebuilding := true } ∧
        t.reqs = s.reqs ++ s.lossParts.map (fun p => ⟨3, p, 0x06, none, true⟩)) ∧
    (s.power.channelLost = true → s.power.rebuilding = true → s.rebuildWaits = false →
      ∃ t, exec .channelRebuild s = .next t ∧
        t = { s with cores := t.cores, hqs := t.hqs, mem := t.mem, line := t.line, rgns := t.rgns
                     rgnNext := t.rgnNext, holders := t.holders, ctxTab := t.ctxTab, obj := t.obj, dom := t.dom
                     obs := t.obs, attn := t.attn, maps := t.maps, invocations := t.invocations, saved := t.saved
                     stoppingCtx := t.stoppingCtx, loading := t.loading, power := t.power, cameras := t.cameras } ∧
        t.power.channelLost = false ∧ t.power.rebuilding = false ∧ t.line = [] ∧
        (∀ a, t.byte a = if a < 0x200000000 then 0 else s.byte a) ∧
        (∀ k, k < 64 → s.o (ok (0x6100 + k) 4) = 0 → bit (s.rgn k 0) 31 = true →
          t.rgn k 0 = s.rgn k 0 ∧ bit (t.rgn k 1) 8 = true ∧ Tbl.get none t.rgnNext k = some (0, 0, s.clk.hub)) ∧
        ∀ k, 1 ≤ k → k ≤ 32 → s.o (slotObj k 3) ≠ 0 → s.o (slotObj k 3) ≠ 5 → s.pinnedSlotsNow.contains k = false →
          t.o (slotObj k 3) = 5 ∧ t.o (slotObj k 4) = 0x0D)

/-! ### Repairs, fences, resets and watchdogs -/

/-- R56, R57, R63, R119, R155, R156, R350: a self-test run, of a core under reset or fenced, keeps its result and leaves its
core empty with what it found bypassed or the core retired, and the last one lets boot go on; an atom runs for 2 µs, and one
that fails twice on a column makes a repair due, which takes effect at a frame boundary. The model's own choices in it: log
33, 69, 182. -/
def Obligations.SelfTestsFindDefectsForRepair : Prop :=
  ∀ (core : Fin 24) (col : Fin 32) (cols : BitVec 32) (failed : Bool) (p : Fin 4) (s : State),
    let c := core.val
    let x := s.core c
    (s.runMay c = true → s.power.waiting = [] → s.repairs.any (fun r => r.core == c) = false → s.power.restart = [] →
      s.steps = [] → s.boot.loopHeld = false → s.power.entering = 0 → s.o 0x1F2001 = s.o 0x1F2002 →
      ∃ t, exec (.selftestRun core cols failed) s = .next t ∧
        t = { s with free := t.free, cores := t.cores, clusters := t.clusters, hqs := t.hqs, forwards := t.forwards
                     mem := t.mem, ecc := t.ecc, omap := t.omap, wins := t.wins, closingWins := t.closingWins
                     obj := t.obj, obs := t.obs, chans := t.chans, loop := t.loop, boot := t.boot, rels := t.rels
                     attn := t.attn, inject := t.inject, maps := t.maps, power := t.power, flash := t.flash
                     repairs := t.repairs, adapts := t.adapts, line := t.line, ceRows := t.ceRows
                     retiredRows := t.retiredRows, retiredPages := t.retiredPages } ∧
        (t.core c).selfTest = false ∧ t.power.testing.contains c = false ∧ (t.core c).testResult = some (cols, failed) ∧
        (∀ i, i < 0x200000 → t.byte (spadAddr c i) = 0) ∧
        (failed = true → (t.core c).retired = true) ∧
        (failed = false → cols = 0 → (t.core c).bypassed = x.bypassed) ∧
        (failed = false → cols = BitVec.ofNat 32 (2 ^ col.val) → x.bypassed.length < 2 → x.retired = false →
          (t.core c).bypassed.contains col.val = true) ∧
        (s.power.testing = [c] → s.power.stage = 2 → t.boot.up = true ∧ t.power.stage = 3)) ∧
    (s.atomMay c = true → x.columns.contains col.val = true → (∀ r, x.atomRepeat = some r → r = col.val) →
      let mask := nput x.atomMask col 1 1
      let whole := x.columns.all (nbit mask) = true
      let scanned (t : State) : Prop := if whole then (t.core c).atomMask = 0 ∧ t.o (repairObj c 4) = s.now
        else (t.core c).atomMask = mask
      ∃ t, exec (.selftestAtom core col failed) s = .next t ∧
        t = { s with cores := t.cores, hqs := t.hqs, forwards := t.forwards, obj := t.obj, obs := t.obs
                     rels := t.rels, attn := t.attn, inject := t.inject, fw := t.fw, power := t.power
                     flash := t.flash, repairs := t.repairs } ∧ (t.core c).atomEnd = s.coreCycle c + s.atomCycles c ∧
        (failed = false → scanned t ∧ (t.core c).atomRepeat = none ∧ t.repairs = s.repairs ∧
          (x.atomRepeat.isSome = true → Counts s t (repairObj c 6) 1)) ∧
        (failed = true → x.atomRepeat = none → (t.core c).atomRepeat = some col.val ∧ t.repairs = s.repairs ∧
          (t.core c).atomMask = x.atomMask) ∧
        (failed = true → x.atomRepeat ≠ none → (t.core c).atomRepeat = none ∧ t.o (repairObj c 7) = col.val ∧
          (x.bypassed.length < 2 → (t.core c).outOfUse = 1 ∧ ∃ b, t.repairs = s.repairs ++ [⟨c, some col.val, b⟩]) ∧
          (2 ≤ x.bypassed.length → (t.core c).outOfUse = 2 ∧ ∃ b, t.repairs = s.repairs ++ [⟨c, none, b⟩]))) ∧
    (s.repairsOf p ≠ [] → s.o (partObj p 3) < 2 → s.boot.up = true →
      ((s.repairsOf p).any (fun r => !r.placed) = true → s.freePortion = true →
        ∃ t, exec (.repairApply p) s = .next t ∧ t = { s with obj := t.obj, flash := t.flash, repairs := t.repairs } ∧
          t.repairs = s.repairs.map (fun r => if (s.repairsOf p).contains r then { r with placed := true } else r)) ∧
      (∀ r, s.repairsOf p = [r] → r.placed = true → s.atBoundary = true → s.publishing = false →
        ∃ t, exec (.repairApply p) s = .next t ∧
          t = { s with free := t.free, cores := t.cores, clusters := t.clusters, hqs := t.hqs
                       forwards := t.forwards, credits := t.credits, mem := t.mem, ecc := t.ecc, omap := t.omap
                       wins := t.wins, closingWins := t.closingWins, obj := t.obj, obs := t.obs, loop := t.loop
                       rels := t.rels, writes := t.writes, attn := t.attn, reqs := t.reqs, inject := t.inject
                       maps := t.maps, stoppingCtx := t.stoppingCtx, power := t.power, flash := t.flash
                       repairs := t.repairs, adapts := t.adapts } ∧
          t.repairs = s.repairs.filter (fun y => y != r) ∧ Counts s t 0x800006 1 ∧ (t.core r.core).outOfUse = 0 ∧
          ∀ b, b ≠ 16 → bit (t.core r.core).meCfg b = bit (match r.col with
            | some i => bypassColumn (s.core r.core).meCfg i
            | none => put32 (s.core r.core).meCfg 17 1 1) b))

/-- R33, R34, R549 to R552, R563, R564: the oldest request begins its step, one step up where its domain was reset twice of
late, unless a step in progress absorbs it, and absorbs the steps in progress inside its domain; after 2 µs what is
outstanding is stopped, and with nothing outstanding the fence is complete; a step past its limit gives way to the one
above, as one does that a crossing fails under; above the package the power cycle is requested, at most three times an hour.
The model's own choices in it: log 31, 147, 150. -/
def Obligations.RequestsBecomeResetSteps : Prop :=
  ∀ (k : Option (Fin 6)) (stuck : Bool) (s : State),
    let first (l : List (Int)) : Bool := (l[2]?.map (fun t => decide ((s.now : Int) < t + 3600000000000))).getD false
    (∀ r rest, s.reqs = r :: rest → s.fw.pmcDown = false →
      let e := (s.escalated r).1
      let taken := s.o 0x80000A = 1 ∨ s.absorbed r = true ∨ s.absorbed e = true
      (e.code < 5 → s.power.entering = 0 → s.o 0x1F2002 = 0 → s.power.marked = [] → s.power.waiting = [] →
        ∃ t, exec .fenceRequest s = .next t ∧
        t = { s with free := t.free, cores := t.cores, clusters := t.clusters, obj := t.obj, dom := t.dom
                     obs := t.obs, loop := t.loop, boot := t.boot, rels := t.rels, peers := t.peers, attn := t.attn
                     reqs := t.reqs, steps := t.steps, stepLog := t.stepLog, inject := t.inject, fw := t.fw
                     power := t.power, flash := t.flash, adapts := t.adapts } ∧
        t.reqs = rest ∧ (taken → t.steps = s.steps) ∧
        (¬taken → t.steps = s.steps.filter (fun x => !s.liesIn x.req e) ++ [⟨e, s.now, false, false, false⟩] ∧
          t.o 0x800008 = e.code ∧
          (∀ c ∈ s.resetCores e.code e.target, (t.core c).fenced = true) ∧
          (∀ j ∈ s.resetClusters e.code e.target, (t.cluster j).fenced = true) ∧
          (∀ n ∈ s.resetCtxs e.code e.target, n < 64 →
            (s.ctxActive n = true → s.o (ctxObj n 0xB) ≠ 6 → t.o (ctxObj n 0xB) = 5) ∧
            ∀ c ∈ s.ctxCores n, bit (t.core c).ctxRst n = true ∧ bit (t.core c).ctxEn n = false))) ∧
      (5 ≤ e.code → ∃ t, exec .powerCycleRequest s = .next t ∧
        t = { s with free := t.free, obj := t.obj, dom := t.dom, obs := t.obs, loop := t.loop, reqs := t.reqs
                     power := t.power } ∧ t.reqs = rest ∧
        (taken → t.o 0x80000A = s.o 0x80000A) ∧
        (¬taken → first s.power.cycles = true → t.power.cycleHeld = true ∧ t.o 0x80000A = s.o 0x80000A) ∧
        (¬taken → first s.power.cycles = false → t.o 0x80000A = 1 ∧
          t.power.cycles = ((s.now : Int) :: s.power.cycles).take 3))) ∧
    (let due (x : ResetStep) : Bool := !x.drained && decide (x.begun + 2000 ≤ s.now)
      ∃ t, exec .fenceDrainLimit s = .next t ∧
        t = { s with cores := t.cores, writes := t.writes, rels := t.rels, wins := t.wins, closingWins := t.closingWins
                     steps := t.steps } ∧
        t.steps = s.steps.map (fun x => if due x then { x with drained := true } else x) ∧
        ∀ c e, c < 24 → e < 5 → (t.engine c e).flights = (s.engine c e).flights.filter (fun f =>
          !(s.steps.filter due).any (fun x => s.inDomain x.req.code x.req.target c e f)) ∧
          (t.engine c e).queue = (s.engine c e).queue) ∧
    (∃ t, exec .fenceComplete s = .next t ∧ t = { s with steps := t.steps } ∧
      t.steps = s.steps.map (fun x =>
        if !x.complete && !s.outstanding x.req.code x.req.target && !s.fenceWaits x then { x with complete := true } else x)) ∧
    (let excess (x : ResetStep) : Bool :=
        let wait := x.req.code == 1 && s.o (ctxObj x.req.target 2) == 0 && x.complete && !stuck
        (decide (x.begun + s.stepMax x < s.now) && !wait) || (!x.complete && decide (x.begun + 2500 < s.now))
      ∀ x, s.steps.find? excess = some x → ∃ t, exec (.escalation stuck) s = .next t ∧
        t = { s with obj := t.obj, obs := t.obs, reqs := t.reqs, steps := t.steps } ∧
        t.reqs = s.aboveStep x ++ s.reqs ∧ Counts s t 0x80000D 1 ∧
        t.steps = s.steps.filter (fun y => !(y.req.code == x.req.code && y.req.target == x.req.target))) ∧
    (∃ t, exec (.crossingFault k) s = .next t ∧
      t = { s with obj := t.obj, obs := t.obs, reqs := t.reqs, steps := t.steps } ∧ Counts s t 0x202005 1 ∧
      (∀ x, s.steps.getLast? = some x → t.reqs = s.nextStep x.req :: s.reqs ∧ Counts s t 0x80000D 1 ∧
        t.steps = s.steps.filter (fun y => !(y.req.code == x.req.code && y.req.target == x.req.target))) ∧
      (s.steps = [] → t.steps = [] ∧ t.reqs = s.reqs ++ [match k.bind (fun i => s.partOfCluster i) with
        | some p => ⟨3, p, 0, none, true⟩
        | none => ⟨4, 0, 0x07, none, true⟩])) ∧
    (∀ t0, s.power.cycles[2]? = some t0 → t0 + 3600000000000 ≤ (s.now : Int) → s.power.cycleHeld = true →
      ∃ t, exec .cycleRequestHoldoffEnd s = .next t ∧
        t = { s with obj := t.obj, obs := t.obs, loop := t.loop, power := t.power } ∧
        t.o 0x80000A = 1 ∧ t.power.cycleHeld = false)

/-- R25, R516 to R518, R552, R554, R557, R559, R561, R562: a context reset empties the queues of the context but for the
handles that its own HINIT commands seed, raises their generations and runs it again with SAMPLE_COUNT 0; an engine reset
empties the engine, and of the matrix engine the statistics words 0 and 1 too, and ends the fence; a partition reset empties
clusters and cores and starts their self-tests; a package reset leaves the contexts stopped or restarting and boots again;
groups and contexts return two frames later, at a frame boundary; a watchdog or a lockstep mismatch calls for the reset its
firmware core has, but in a power state in which that core is off, and the PMC restarts alone. The model's own choices in
it: log 33, 76, 135, 152. -/
def Obligations.ResetsLeaveTheirDomainEmpty : Prop :=
  ∀ (k : Fin 6) (bad sch : Bool) (s : State),
    let without (x : ResetStep) : List ResetStep :=
      s.steps.filter (fun y => !(y.req.code == x.req.code && y.req.target == x.req.target))
    let core4 (t : State) : Prop := (if s.o 0xA01008 = 2 then t.fw = { s.fw with revert := 3 } ∧ t.reqs = s.reqs
      else t.fw = s.fw ∧ t.reqs = s.reqs ++ [⟨4, 0, 0x07, none, true⟩])
    (∀ x n, s.readyStep 1 = some x → x.req.target = n → n < 64 → s.o (ctxObj n 0xB) = 5 →
      ∃ t, exec .contextReset s = .next t ∧
        t = { s with cores := t.cores, hqs := t.hqs, forwards := t.forwards, credits := t.credits
                     ctxTab := t.ctxTab, obj := t.obj, obs := t.obs, loop := t.loop, rels := t.rels, attn := t.attn
                     steps := t.steps, inject := t.inject, maps := t.maps, invocations := t.invocations
                     saved := t.saved, stoppingCtx := t.stoppingCtx, power := t.power } ∧
        t.steps = without x ∧ t.o 0x80000E = s.now - x.begun ∧
        (s.stoppingCtx.contains n = true → t.o (ctxObj n 0xB) = 0 ∧ t.mapOf n = none) ∧
        (s.stoppingCtx.contains n = false → t.o (ctxObj n 0xB) = 2 ∧ Counts s t (ctxObj n 0xD) 1 ∧
          t.o (sampleCount n) = 0 ∧
          (∀ c ∈ s.ctxCores n, bit (t.core c).ctxEn n = true ∧
            (s.o (ctxObj n 2) ≠ 0 ∨ s.o 0x400001 ≠ 1 → bit (t.core c).ctxRst n = false)) ∧
          (∀ y, s.mapOf n = some y → (y.queues.map (fun q => (q.2.1, q.2.2))).Nodup →
            (∀ q ∈ y.queues, q.2.2 < 32) → ∀ q ∈ y.queues,
            let seeds (d : Cmd) : Prop := d.opc = 0x60 ∧ ∃ p ∈ y.progs, ∃ l ∈ p.cmds, d ∈ l
            fld (t.hq q.2.1 q.2.2).w0 20 12 = (fld (s.hq q.2.1 q.2.2).w0 20 12 + 1) % 4096 ∧
              bit (t.hq q.2.1 q.2.2).w0 19 = true ∧
              (∀ h ∈ (t.hq q.2.1 q.2.2).items, ∃ d, seeds d ∧ hOwn h.h = d.own % 4) ∧
              ((∀ d, ¬seeds d) → (t.hq q.2.1 q.2.2).items = [] ∧ (t.hq q.2.1 q.2.2).occ = 0)))) ∧
    (∀ x c e, s.readyStep 2 = some x → x.req.target = c * 8 + e → c < 24 → e < 5 → ∃ t, exec .engineReset s = .next t ∧
      t = { s with cores := t.cores, hqs := t.hqs, forwards := t.forwards, credits := t.credits, ctxTab := t.ctxTab
                   obj := t.obj, obs := t.obs, loop := t.loop, rels := t.rels, attn := t.attn, steps := t.steps
                   inject := t.inject, maps := t.maps, invocations := t.invocations, saved := t.saved
                   stoppingCtx := t.stoppingCtx, power := t.power } ∧
      t.steps = without x ∧ (t.engine c e).queue = [] ∧ (t.engine c e).flights = [] ∧ (t.core c).fenced = false ∧
      (e = 0 → (t.core c).held = none ∧ (t.core c).gapFrom = none ∧
        ∀ ch w, w < 2 → Tbl.get 0 (t.core c).stats (3 * ch + w) = 0) ∧
      ∀ n, n < 64 → bit (s.core c).ctxRst n = true → s.o (ctxObj n 0xB) = 5 → (s.resetCtxs 2 x.req.target).contains n = true →
        t.o (ctxObj n 0xB) = (if s.stoppingCtx.contains n then 0 else 2)) ∧
    (∀ x p, s.readyStep 3 = some x → x.req.target = p → p < 4 → ∃ t, exec .partitionReset s = .next t ∧
      t = { s with cores := t.cores, clusters := t.clusters, hqs := t.hqs, forwards := t.forwards
                   credits := t.credits, mem := t.mem, ecc := t.ecc, wins := t.wins, closingWins := t.closingWins
                   obj := t.obj, obs := t.obs, attn := t.attn, steps := t.steps, power := t.power } ∧
      t.o (partObj p 3) = 3 ∧ Counts s t (partObj p 5) 1 ∧
      (∀ j ∈ s.clustersOf p, (∀ i, i < 0x400000 → t.byte (cmAddr j i) = 0) ∧ ∀ q, q < 31 → t.hq j q = HQueue.reset) ∧
      (∀ c ∈ s.coresOf p, (t.core c).selfTest = true ∧ t.power.testing.contains c = true ∧ (t.core c).meCfg = (s.core c).meCfg ∧
        (t.core c).held = none ∧ ∀ e, (t.engine c e).queue = [] ∧ (t.engine c e).flights = []) ∧
      ∀ n ∈ s.resetCtxs 3 p, t.power.restart.contains n = true) ∧
    (∀ x, s.readyStep 4 = some x → ∃ t, exec .packageReset s = .next t ∧
      t = { s with free := t.free, cores := t.cores, clusters := t.clusters, hqs := t.hqs, forwards := t.forwards
                   credits := t.credits, mem := t.mem, ecc := t.ecc, omap := t.omap, wins := t.wins
                   closingWins := t.closingWins, rgns := t.rgns, rgnNext := t.rgnNext, ctxTab := t.ctxTab
                   scrubCfg := 0x4064, scrubLate := t.scrubLate, obj := t.obj, dom := t.dom, obs := t.obs, chans := t.chans
                   ceRows := t.ceRows, reply := t.reply, loop := t.loop, sources := t.sources, boot := t.boot
                   peers := t.peers, writes := t.writes, inWrites := t.inWrites, attn := t.attn, steps := t.steps
                   inject := t.inject, heldRx := t.heldRx, heldTx := t.heldTx, transfers := t.transfers
                   aborted := t.aborted, maps := t.maps, invocations := t.invocations, saved := t.saved
                   stoppingCtx := t.stoppingCtx, loading := t.loading, reloads := t.reloads, bootKey := t.bootKey
                   fw := t.fw, power := t.power, submissions := t.submissions, cameras := t.cameras
                   tokenizer := t.tokenizer } ∧
      t.boot.up = false ∧ t.maps = [] ∧ t.o 0x1F1004 = x.req.cause ∧ Counts s t 0x1F1005 1 ∧ t.obs.counts = [] ∧
      (∀ a, t.byte a = if 0x800000000 ≤ a ∧ a < 0xA00000000 then 0 else s.byte a) ∧
      ∀ n, n < 64 → t.o (ctxObj n 0xB) = (if s.o (ctxObj n 2) = 0 ∧ (s.o (ctxObj n 0xB) = 2 ∨ s.o (ctxObj n 0xB) = 5) ∧
        s.stoppingCtx.contains n = false then 5 else 0)) ∧
    (s.atBoundary = false → exec .recoveryReturn s = .next s) ∧
    (∀ g j, (g, some j) ∈ s.loop.returning → 2 ≤ j → s.atBoundary = true → ∃ t, exec .recoveryReturn s = .next t ∧
      t = { s with cores := t.cores, hqs := t.hqs, forwards := t.forwards, credits := t.credits, obj := t.obj
                   obs := t.obs, loop := t.loop, rels := t.rels, attn := t.attn, reqs := t.reqs, inject := t.inject
                   stoppingCtx := t.stoppingCtx, power := t.power } ∧
      (g < 8 → t.o (groupObj g 9) = 1) ∧ (8 ≤ g → ∀ c ∈ s.ctxCores (g - 8), bit (t.core c).ctxRst (g - 8) = false) ∧
      ∀ y ∈ t.loop.returning, y.1 ≠ g) ∧
    (s.boot.up = true → (s.cluster k).p2 = false → s.o 0x1F2002 = 0 → ∃ t, exec (.cccWatchdog k bad) s = .next t ∧
      t = { s with free := t.free, cores := t.cores, clusters := t.clusters, hqs := t.hqs, forwards := t.forwards
                   mem := t.mem, ecc := t.ecc, omap := t.omap, wins := t.wins, closingWins := t.closingWins
                   obj := t.obj, obs := t.obs, rels := t.rels, attn := t.attn, reqs := t.reqs, inject := t.inject
                   maps := t.maps, fw := t.fw, power := t.power, flash := t.flash, adapts := t.adapts } ∧
      (bad = true → t.oBit 0x800004 k = true) ∧
      (bad = false → match s.partOfCluster k with
        | some p => if s.o 0xA01008 = 2 then t.fw = { s.fw with revert := 3 } ∧ t.reqs = s.reqs
          else t.fw = s.fw ∧ t.reqs = s.reqs ++ [⟨3, p, 0x04, none, true⟩]
        | none => (t.cluster k).fenced = true ∧ (t.cluster k).p2 = true ∧ t.reqs = s.reqs)) ∧
    (s.o 0x1F2002 = 4 → exec .schWatchdog s = .next s ∧ exec .scWatchdog s = .next s ∧
      exec (.lockstepMismatch sch) s = .next s) ∧
    (s.boot.up = true → s.o 0x1F2002 ≠ 4 → ∃ t, exec .schWatchdog s = .next t ∧
      t = { s with obj := t.obj, obs := t.obs, reqs := t.reqs, fw := t.fw } ∧ core4 t) ∧
    (s.power.stage ≠ 0 → s.o 0x1F2002 ≠ 4 → (∃ t, exec .scWatchdog s = .next t ∧
      t = { s with obj := t.obj, obs := t.obs, reqs := t.reqs } ∧
        t.reqs = s.reqs ++ [⟨4, 0, 0x07, none, true⟩]) ∧
      ∃ t, exec (.lockstepMismatch sch) s = .next t ∧
        t = { s with obj := t.obj, obs := t.obs, reqs := t.reqs, fw := t.fw } ∧
        (sch = true → core4 t) ∧ (sch = false → t.fw = s.fw ∧ t.reqs = s.reqs ++ [⟨4, 0, 0x07, none, true⟩])) ∧
    (s.fw.pmcDown = false → ∃ t, exec .pmcWatchdog s = .next t ∧
      t = { s with obj := t.obj, obs := t.obs, fw := t.fw } ∧ t.fw = { s.fw with pmcDown := true }) ∧
    (s.fw.pmcDown = true → s.reqs = [] → s.mgmtHeld = [] → ∃ t, exec .pmcRestartDone s = .next t ∧
      t = { s with obj := t.obj, obs := t.obs, fw := t.fw } ∧
      let good := sha256 (fwPartBytes (s.fwImage s.fw.pmcSlot) 1) = s.fw.pmcHash
      t.fw = { s.fw with pmcDown := false, pmcRom := s.fw.pmcRom || !decide good })

/-! ### Boot, firmware and fuses -/

/-- R61, R64, R483, R504, R534, R537, R541, R564, R569, R606 to R608: power-on starts from reset with flash, fuses and the
repair state as flash holds it, row sparings and laser swaps that were due still due, kept objects at their stored values, and
boots the image that is valid, or stays in MAINT; at the setpoints
the cores begin their self-tests; a low island supply starts over; a rail outside its limits is counted, and a hub rail
holds boot until it returns; the summary is written at most one in 10 s. The model's own choices in it: log 149, 150, 151.
-/
def Obligations.PowerOnBootsFromFlash : Prop :=
  ∀ (mv0 mv1 : BitVec 16) (r : Fin 9) (bad : Fin 65) (s : State),
    let near (a b : Nat) : Prop := a ≤ b + 15 ∧ b ≤ a + 15
    let both := near mv0.toNat (s.o 0x201002) ∧ near mv1.toNat (s.o 0x201102)
    let k := ok (0x2010 + r) 0
    let inside := s.o (k + 3) ≤ mv0.toNat ∧ mv0.toNat ≤ s.o (k + 4)
    let due := s.flash.sumAt + 3600000000000 ≤ s.now ∨
      (s.flash.sumDue = true ∧ (s.flash.recnum = 0 ∨ s.flash.sumAt + 10000000000 ≤ s.now))
    let img := s.flash.unsaved.getD s.repairImage
    let restarted (t : State) : Prop :=
      t = { State.reset with
        pending := s.pending, free := t.free, cores := t.cores, retiredPages := t.retiredPages, retiredRows := img.rows
        lanes := t.lanes, ceRows := s.dueRows
        obj := t.obj, dom := t.dom, obs := t.obs, chans := t.chans, boot := t.boot, attn := t.attn, pins := s.pins
        reloads := s.pinnedSlots, bootKey := t.bootKey, fw := t.fw, fuses := s.fuses, power := t.power, flash := t.flash
        repairs := img.repairs, owned := t.owned } ∧
      (∀ c, c < 8 → (t.chan c).remaps = Tbl.get [] img.remaps c) ∧
      (∀ i, i < 12 → s.flash.unsaved = none → (∀ e ∈ s.flash.kept ++ s.flash.extra, e.1 ≠ laneObj i 8) →
        s.o (laneObj i 8) = 1 ∨ s.o (laneObj i 8) = 2 →
        t.o (laneObj i 8) = 1 ∧ (t.lane i).dueAt = 1) ∧
      t.fw.images = s.fw.images ∧ t.boot.up = false ∧
      ∀ c, c < 24 → (t.core c).meCfg = put32 (Tbl.get 0 img.cfg c) 16 1 0
    (∃ t, exec .powerOn s = .next t ∧ restarted t ∧ t.power.stage = 1 ∧ t.o 0xB00001 = s.fuses.state ∧
      t.o 0x1F1004 = (if s.flash.recnum = 0 then 0 else 8) ∧
      (∀ j v, (j, some v) ∈ s.flash.kept → (∀ e ∈ s.flash.kept, e.1 = j → e.2 = some v) → isKept j = true →
        (∀ e ∈ s.flash.extra, e.1 ≠ j) → t.o j = v) ∧
      (s.fuses.state = 0 ∨ s.fuses.state = 5 ∨ (fwValid (s.fwImage 0) = false ∧ fwValid (s.fwImage 1) = false) →
        t.boot.maint = true ∧ t.o 0xA01001 = 0xFF) ∧
      ∀ i j, (i = 0 ∧ j = 1) ∨ (i = 1 ∧ j = 0) → s.fuses.state ≠ 0 → s.fuses.state ≠ 5 → fwValid (s.fwImage i) = true →
        fwValid (s.fwImage j) = false → t.boot.maint = false ∧ t.o 0xA01001 = i ∧ t.o 0xA01003 = fwVersion (s.fwImage i)) ∧
    (s.power.stage = 1 → s.boot.maint = false → s.power.hubHeld = false →
      ∃ t, exec (.setpointReached mv0 mv1) s = .next t ∧
        t = { s with cores := t.cores, obj := t.obj, obs := t.obs, loop := t.loop, attn := t.attn, power := t.power } ∧
        t.o 0x201001 = mv0.toNat ∧ t.o 0x201101 = mv1.toNat ∧
        (both → t.power.stage = 2 ∧ t.power.testing = (List.range 24).filter s.inService ∧
          ∀ c ∈ t.power.testing, (t.core c).selfTest = true) ∧
        (¬both → t.power.stage = 1 ∧ t.cores = s.cores)) ∧
    (s.boot.up = false → s.power.stage ≠ 0 → s.boot.resetOpen = false →
      ∃ t, exec .vaonLow s = .next t ∧ restarted t ∧ t.power.stage = 0) ∧
    (∃ t, exec (.railExcursion r mv0) s = .next t ∧
      t = { s with obj := t.obj, obs := t.obs, loop := t.loop, attn := t.attn, power := t.power } ∧
      t.o (k + 1) = mv0.toNat ∧
        (inside → t.o (k + 6) = s.o (k + 6) ∧ t.power = s.power) ∧
        (¬inside → t.o (k + 6) = 0 ∧ Counts s t (k + 5) 1 ∧ t.oBit 0x801100 4 = false ∧
          (s.boot.up = false → s.power.stage ≠ 0 → s.boot.resetOpen = false → r.val = 2 ∨ r.val = 8 →
            t.power.hubHeld = true ∧ t.power.stage = 1 ∧ t.power.testing = []))) ∧
    (s.power.hubHeld = true → ∃ t, exec .hubRailReturn s = .next t ∧
      t = { s with free := t.free, obj := t.obj, dom := t.dom, obs := t.obs, boot := t.boot, attn := t.attn
                   bootKey := t.bootKey, fw := t.fw, power := t.power } ∧
      t.power.hubHeld = false ∧ t.power.stage = 1 ∧ t.fuses = s.fuses ∧ t.o 0xB00001 = s.fuses.state) ∧
    (due → ∃ t, exec (.summaryWrite bad) s = .next t ∧
      t = { s with obj := t.obj, obs := t.obs, attn := t.attn, power := t.power, flash := t.flash } ∧
        t.flash.unsaved = none ∧ t.flash.recnum = (s.flash.recnum + 1) % 2 ^ 32 ∧ t.flash.sumAt = s.now ∧
        t.flash.sumDue = false ∧ t.o 0x800202 = s.now ∧ Counts s t 0x800203 1 ∧ t.o 0x800204 = s.o 0x800204 - bad)

/-- R509 to R512, R522 to R529, R539 to R546: an image comes into a slot that is not booted and is checked; an activation
is accepted with a newer valid image; its parts are measured and armed for a frame, where the banks switch; after four
frames it is confirmed, or reverts with its cause; a life-cycle transition and an owner key are written to the fuses where
their rules allow it. The model's own choices in it: log 157, 158. -/
def Obligations.FirmwareAndFusesChange : Prop :=
  ∀ (m : Fin 4) (tid : BitVec 8) (k : Fin 2) (g : Segment) (v : BitVec 8) (w : Fin 4) (part : Fin 3) (bad : Bool)
    (f1 : BitVec 32) (major minor : BitVec 16) (body : List Byte) (e : Env) (s : State),
    let slot (t : State) (b : Nat) : Nat := t.o (ok (0xA000 + k) b)
    let i := s.otherSlot.getD 0
    let img := s.fwImage i
    let bank (t : State) (c : Nat) : W32 := Tbl.get 0 t.fw.banks c
    (∀ held, SegmentAdmitted s m (ok (0xA000 + k) 5) g → s.o 0xA01001 ≠ k.val → g.total.toNat ≤ 8 * 2 ^ 20 →
      g.offset.toNat + g.data.length ≤ g.total.toNat → (g.last = true → g.offset.toNat + g.data.length = g.total.toNat) →
      (g.offset = 0 → s.transfer m g.tid.toNat = none ∧ held = []) →
      (g.offset ≠ 0 → ∃ y, s.transfer m g.tid.toNat = some y ∧ y.write = true ∧ y.key = ok (0xA000 + k) 5 ∧
        y.total = g.total.toNat ∧ y.data.length = g.offset.toNat ∧ held = y.data) →
      ∃ t, exec (.fwImage m k g) s = .next t ∧
        t = { s with obj := t.obj, rels := t.rels, attn := t.attn, inject := t.inject, transfers := t.transfers
                     aborted := t.aborted, fw := t.fw, responses := t.responses } ∧ Answered t m 0 ∧
        (g.last = true → t.fwImage k = held ++ g.data ∧
          slot t 1 = (if held ++ g.data = [] then 0 else if fwValid (held ++ g.data) then 1 else 2)) ∧
        (g.last = false → g.offset = 0 → slot t 1 = 3)) ∧
    (WriteAdmitted s m tid (ok (0xA000 + k) 6) 1 → ∃ t, exec (.fwErase m tid k) s = .next t ∧
      t = { s with obj := t.obj, rels := t.rels, attn := t.attn, inject := t.inject, transfers := t.transfers
                   fw := t.fw, responses := t.responses } ∧
      (s.o 0xA01001 = k.val → Answered t m 0x06 ∧ t.fw = s.fw) ∧
      (s.o 0xA01001 ≠ k.val → Answered t m 0 ∧ t.fwImage k = [] ∧ slot t 1 = 0)) ∧
    (WriteAdmitted s m tid 0xA01007 1 → ∃ t, exec (.activateHandoff m tid) s = .next t ∧
      t = { s with obj := t.obj, rels := t.rels, attn := t.attn, inject := t.inject, responses := t.responses } ∧
      (s.mayActivate 1 = true → Answered t m 0 ∧ t.o 0xA01008 = 1 ∧ t.o 0xA01009 = s.o (ok (0xA000 + i) 2)) ∧
      (s.mayActivate 1 = false → Answered t m 0x06 ∧ t.o 0xA01008 = s.o 0xA01008)) ∧
    (WriteAdmitted s m tid 0xA01007 2 → ∃ t, exec (.activateScImage m tid) s = .next t ∧
      t = { s with obj := t.obj, rels := t.rels, attn := t.attn, reqs := t.reqs, inject := t.inject
                   responses := t.responses } ∧
      (s.mayActivate 2 = true → Answered t m 0 ∧ t.reqs = s.reqs ++ [⟨4, 0, 0x09, none, false⟩]) ∧
      (s.mayActivate 2 = false → Answered t m 0x06 ∧ t.reqs = s.reqs)) ∧
    (body.length ≤ 262080 → s.o 0xA01008 = 1 → s.fw.startedAt = 0 →
      let ready := bad = false ∧ nfld (fwWord img 5) 0 16 ≤ s.o 0xA01003 ∧ nfld (fwWord img 5) 16 16 ≤ s.o 0xA01004
      ∃ t, exec (.handoffLoadDone bad f1 major minor body) s = .next t ∧
        t = { s with obj := t.obj, dom := t.dom, fw := t.fw } ∧
        (¬ready → t.o 0xA01008 = 0 ∧ t.o 0xA0100B = (if bad then 5 else 6) ∧ t.fw = s.fw) ∧
        (ready → t.o 0xA01008 = 1 ∧ t.fw.startedAt = s.now + 1 ∧ t.fw.f1 = f1.toNat ∧
          t.d (ok (0xA000 + i) 4) = fwMeasure img ∧
          t.fw.handoff = s.handoffRecord f1.toNat major.toNat minor.toNat body ∧
          ∀ c, c < 7 → bank t c = put32 (put32 (put32 (bank s c) 1 1 1) 2 1 1) 16 16 (f1.toNat % 2 ^ 16))) ∧
    (s.o 0xA01008 = 1 → s.fw.startedAt ≠ 0 → (s.loopRuns = true → s.frame = s.fw.f1) →
      (s.loopRuns = false → s.fw.armedAt + 1000000 ≤ s.now) →
      ∃ t, exec .bankSwitch s = .next t ∧ t = { s with obj := t.obj, fw := t.fw } ∧ t.o 0xA01008 = 2 ∧
        t.o 0xA0100C = s.fw.f1 ∧ t.fw.armedAt = s.now ∧ t.fw.revert = (if s.recordOk then 0 else 1) ∧
        ∀ c, c < 7 → fld (bank t c) 0 1 = 1 - fld (bank s c) 0 1 ∧ bit (bank t c) 2 = false ∧ bit (bank t c) 3 = true) ∧
    (s.o 0xA01008 = 2 → s.fw.revert = 0 → 4 ≤ s.handoffFrames → s.handoffFrames ≤ 16 →
      ∃ t, exec .handoffConfirm s = .next t ∧ t = { s with obj := t.obj, fw := t.fw } ∧ t.o 0xA01008 = 3 ∧
        t.o 0xA01005 = fwVersion img ∧ t.fw.startedAt = 0 ∧ t.fw.handoff = [] ∧
        ∀ c, c < 7 → fld (bank t c) 0 1 = fld (bank s c) 0 1 ∧ bit (bank t c) 1 = false ∧ bit (bank t c) 3 = false) ∧
    (s.revertCause ≠ 0 → ∃ t, exec .handoffRevert s = .next t ∧ t = { s with obj := t.obj, fw := t.fw } ∧
      t.o 0xA01008 = 4 ∧ t.o 0xA0100B = s.revertCause ∧ t.fw.handoff = [] ∧
      t.o 0xA0100A = (if s.revertCause ≤ 3 then s.o 0xA01009 else s.o 0xA0100A) ∧
      ∀ c, c < 7 → fld (bank t c) 0 1 = 1 - fld (bank s c) 0 1 ∧ bit (bank t c) 3 = false) ∧
    (∀ secret : List Byte, ∃ t, exec (.wrapForSuccessor part secret) s = .next t ∧
      t = { s with obj := t.obj, obs := t.obs, flash := t.flash } ∧
      let may := s.otherSlot.isSome = true ∧ s.boot.maint = false ∧ s.slotValid i = true ∧ s.excluded i = false ∧
        s.o 0xA01003 ≤ s.o (ok (0xA000 + i) 3)
      (may → t.flash.wrapped = s.flash.wrapped ++ [(part.val, s.sealKey img part, secret)] ∧ t.obs = s.obs) ∧
      (¬may → t.flash = s.flash)) ∧
    (WriteAdmitted s m tid 0xB00003 v.toNat → ∃ t, exec (.lifeCycleRequest m tid v e) s = .next t ∧
      t = { s with obj := t.obj, obs := t.obs, rels := t.rels, attn := t.attn, reqs := t.reqs, inject := t.inject
                   fuses := t.fuses, responses := t.responses } ∧
      let may := lcAllowed s.fuses.state v.toNat = true ∧ s.o 0xB00004 ≠ 1 ∧ s.o 0x400001 ≠ 1 ∧ s.o 0xA01008 ≠ 1 ∧
        s.o 0xA01008 ≠ 2
      let row := s.fuses.nextRow
      (¬may → Answered t m 0x06 ∧ t.fuses = s.fuses ∧ t.reqs = s.reqs) ∧
      (may → e.fuseFails = 0 → Answered t m 0 ∧ Tbl.get 0 t.fuses.rows row = lcRow row v.toNat ∧
        t.reqs = s.reqs ++ [⟨4, 0, 0x07, none, false⟩] ∧ (row < 16 → t.fuses.state = v.toNat)) ∧
      (may → e.fuseFails = 1 → row < 15 → Answered t m 0 ∧ t.reqs = s.reqs ++ [⟨4, 0, 0x07, none, false⟩] ∧
        Tbl.get 0 t.fuses.rows (row + 1) = lcRow (row + 1) v.toNat ∧ t.fuses.state = v.toNat)) ∧
    (WholeAdmitted s m (ok (0xB020 + w) 3) g → ∃ t, exec (.ownerKeyProvision m w g e) s = .next t ∧
      t = { s with obj := t.obj, obs := t.obs, rels := t.rels, attn := t.attn, inject := t.inject
                   transfers := t.transfers, aborted := t.aborted, fuses := t.fuses, responses := t.responses } ∧
      let used := s.o (ok (0xB020 + w) 1)
      let kw := if used = 0 then some transportKey else s.fuses.key w
      (4 ≤ used ∨ kw = none → Answered t m 0x05 ∧ t.fuses = s.fuses) ∧
      ∀ key, used < 4 → kw = some key →
        (provisionFields g.data w used = false ∨ provisionMac g.data key = false → Answered t m 0x05 ∧ t.fuses = s.fuses) ∧
        (provisionFields g.data w used = true → provisionMac g.data key = true →
          let may := s.o 0xA01008 ≠ 1 ∧ s.o 0xA01008 ≠ 2 ∧ provisionState (s.o 0xB00001) w used = true
          let new := provisionKey g.data key w used
          (¬may → Answered t m 0x06 ∧ t.fuses = s.fuses) ∧
          (may → e.fuseFails = 0 → Answered t m 0 ∧
            Tbl.get none t.fuses.keys (4 * w + used) = some (new, zeroBits 256 (leNat new)))))

/-! ### Power states, clocks and temperature -/

/-- R503, R590, R596 to R599: TARGET = 3 and 4 are answered with STATE while the loop is enabled or a reset or activation is
in progress; otherwise running best-effort contexts are pre-empted, and with none pre-empting the compute dies enter
retention, and for P4 the lanes go dark and all but the always-on state is lost; TARGET = 0, WAKE and the wake timer lead
back; an idle partition enters P2, and a cluster leaves it when a wake request of it stands (R590). The model's own choices
in it: log 153, 154. -/
def Obligations.PowerStatesFollowTheTarget : Prop :=
  ∀ (m : Fin 4) (tid : BitVec 8) (p : Fin 4) (k : Fin 6) (s : State),
    let cur := s.o 0x1F2002
    let calm := s.power.entering = 0 ∧ s.boot.up = true ∧ s.o 0x400001 ≠ 1 ∧ s.activating = false
    let still := s.runningBe = [] ∧ s.anyPreempting = false
    let awake (t : State) (how : Nat) : Prop :=
      t.o 0x1F2001 = 0 ∧ t.o 0x1F2002 = 0 ∧ t.o 0x1F2004 = how ∧ Counts s t 0x1F2003 1 ∧ t.power.tripped = false ∧
        (t.boot.maint = false → t.power.stage = 2)
    let barred := (s.power.tripped = true ∧ ∃ b, 1 ≤ b ∧ b ≤ 3 ∧ 95 ≤ s.temp b)
    let retained (t : State) : Prop := ∀ c, c < 24 → (t.core c).acc = [] ∧ (t.core c).stats = [] ∧ (t.core c).preds = []
    (WriteAdmitted s m tid 0x1F2001 0 → s.power.entering = 0 → s.power.marked = [] → s.power.tripped = false →
      (cur = 0 → ∃ t, exec (.powerTargetP0 m tid) s = .next t ∧
        t = { s with obj := t.obj, rels := t.rels, attn := t.attn, inject := t.inject, responses := t.responses } ∧
        Answered t m 0 ∧ t.o 0x1F2001 = 0) ∧
      (cur = 3 → s.power.waiting = [] → ∃ t, exec (.powerTargetP0 m tid) s = .next t ∧
        t = { s with cores := t.cores, clusters := t.clusters, scrubStart := t.scrubStart, obj := t.obj
                     obs := t.obs, chans := t.chans, rels := t.rels, attn := t.attn, inject := t.inject
                     power := t.power, responses := t.responses } ∧
        Answered t m 0 ∧ t.o 0x1F2001 = 0 ∧ t.o 0x1F2002 = 0 ∧ t.o 0x1F2004 = 1 ∧ Counts s t 0x1F2003 1 ∧
        (∀ i, i < 6 → (s.cluster i).p2 = false → t.oBit 0x202001 i = true) ∧
        (∀ c ∈ s.channels, (t.chan c).selfRefresh = false)) ∧
      (cur = 4 → ∃ t, exec (.powerTargetP0 m tid) s = .next t ∧
        t = { s with free := t.free, cores := t.cores, obj := t.obj, dom := t.dom, obs := t.obs, boot := t.boot
                     rels := t.rels, attn := t.attn, inject := t.inject, bootKey := t.bootKey, fw := t.fw
                     power := t.power, responses := t.responses } ∧
        Answered t m 0 ∧ awake t 1)) ∧
    (WriteAdmitted s m tid 0x1F2001 3 → cur = 0 →
      (s.o 0x400001 = 1 ∨ s.activating = true →
        ∃ t, exec (.powerTargetP3 m tid) s = .next t ∧
          t = { s with obj := t.obj, rels := t.rels, attn := t.attn, inject := t.inject, responses := t.responses } ∧
          Answered t m 0x06 ∧ t.o 0x1F2001 = s.o 0x1F2001) ∧
      (calm → s.runningBe ≠ [] → ∃ t, exec (.powerTargetP3 m tid) s = .next t ∧
        t = { s with cores := t.cores, obj := t.obj, obs := t.obs, rels := t.rels, attn := t.attn
                     inject := t.inject, saved := t.saved, power := t.power, responses := t.responses } ∧ Answered t m 0 ∧
        t.power.entering = 3 ∧ t.o 0x1F2002 = 0 ∧ ∀ n ∈ s.runningBe, t.ctxState n = 3 ∧ n ∈ t.power.marked) ∧
      (calm → still → ∃ t, exec (.powerTargetP3 m tid) s = .next t ∧
        t = { s with free := t.free, cores := t.cores, clusters := t.clusters, mem := t.mem, ecc := t.ecc, obj := t.obj
                     obs := t.obs, chans := t.chans, rels := t.rels, attn := t.attn, inject := t.inject
                     power := t.power, responses := t.responses } ∧
        Answered t m 0 ∧ t.o 0x1F2001 = 3 ∧ t.o 0x1F2002 = 3 ∧ Counts s t 0x1F2003 1 ∧ retained t ∧
        (∀ c ∈ s.channels, (t.chan c).selfRefresh = true) ∧
        ∀ a, (∀ i, i < 6 → a < cmAddr i 0x3FF000 ∨ cmAddr i 0x400000 ≤ a) → t.byte a = s.byte a)) ∧
    (WriteAdmitted s m tid 0x1F2001 4 → cur = 0 ∨ cur = 3 →
      (s.o 0x400001 = 1 ∨ s.activating = true →
        ∃ t, exec (.powerTargetP4 m tid) s = .next t ∧
          t = { s with obj := t.obj, rels := t.rels, attn := t.attn, inject := t.inject, responses := t.responses } ∧
          Answered t m 0x06 ∧ t.o 0x1F2001 = s.o 0x1F2001) ∧
      (calm → still → ∃ t, exec (.powerTargetP4 m tid) s = .next t ∧
        t = { s with free := t.free, cores := t.cores, clusters := t.clusters, hqs := t.hqs, forwards := t.forwards
                     credits := t.credits, mem := t.mem, ecc := t.ecc, line := t.line, omap := t.omap
                     wins := t.wins, closingWins := t.closingWins, rgns := t.rgns, rgnNext := t.rgnNext
                     holders := t.holders, ctxTab := t.ctxTab, scrubCfg := t.scrubCfg, scrubLate := t.scrubLate
                     obj := t.obj, dom := t.dom, obs := t.obs, chans := t.chans, ceRows := t.ceRows, reply := t.reply, loop := t.loop
                     sources := t.sources, boot := t.boot, lanes := t.lanes, rels := t.rels, peers := t.peers
                     writes := t.writes, inWrites := t.inWrites, attn := t.attn, reqs := t.reqs, steps := t.steps
                     inject := t.inject, heldRx := t.heldRx, heldTx := t.heldTx, masters := t.masters
                     transfers := t.transfers, aborted := t.aborted, maps := t.maps, invocations := t.invocations
                     saved := t.saved, stoppingCtx := t.stoppingCtx, loading := t.loading, reloads := t.reloads
                     fw := t.fw, power := t.power, flash := t.flash, adapts := t.adapts
                     submissions := t.submissions, cameras := t.cameras, tokenizer := t.tokenizer
                     responses := t.responses } ∧
        Answered t m 0 ∧ t.o 0x1F2001 = 4 ∧ t.o 0x1F2002 = 4 ∧ Counts s t 0x1F2003 1 ∧
        (∀ i, i < 12 → t.laneState i = 0 ∨ t.laneState i = 7) ∧ (∀ i, i < 11 → t.oBit 0x202001 i = false) ∧
        (∀ n, n < 64 → t.ctxState n = 0 ∨ t.ctxState n = 5) ∧ t.flash.recnum = (s.flash.recnum + 1) % 2 ^ 32 ∧
        ∀ a, (0xF00000000 ≤ a ∧ a < 0xF00800000) ∨ (0x800000000 ≤ a ∧ a < 0xA00000000) → t.byte a = 0)) ∧
    (WriteAdmitted s m tid 0x1F2005 1 →
      (s.inP4 = true → barred → ∃ t, exec (.wake m tid) s = .next t ∧
        t = { s with obj := t.obj, rels := t.rels, attn := t.attn, inject := t.inject, responses := t.responses } ∧
        Answered t m 0x06) ∧
      (cur = 4 → s.power.entering = 0 → ¬barred → ∃ t, exec (.wake m tid) s = .next t ∧
        t = { s with free := t.free, cores := t.cores, obj := t.obj, dom := t.dom, obs := t.obs, boot := t.boot
                     rels := t.rels, attn := t.attn, inject := t.inject, bootKey := t.bootKey, fw := t.fw
                     power := t.power, responses := t.responses } ∧ Answered t m 0 ∧ awake t 2) ∧
      (s.inP4 = false → s.power.timerAt ≠ s.clk.acc + 1 → ∃ t, exec (.wake m tid) s = .next t ∧
        t = { s with obj := t.obj, rels := t.rels, attn := t.attn, inject := t.inject, responses := t.responses } ∧
        Answered t m 0x06 ∧
        t.o 0x1F2001 = s.o 0x1F2001)) ∧
    (cur = 4 → s.power.entering = 0 → ¬barred → s.o 0x1F2006 ≠ 0 → s.o 0x1F2001 ≠ 0 →
      ∃ t, exec .wakeTimer s = .next t ∧
        t = { s with free := t.free, cores := t.cores, obj := t.obj, dom := t.dom, obs := t.obs, boot := t.boot
                     attn := t.attn, bootKey := t.bootKey, fw := t.fw, power := t.power } ∧ awake t 3) ∧
    (s.inP4 = false ∨ s.o 0x1F2006 = 0 ∨ barred → exec .wakeTimer s = .next s) ∧
    (s.boot.up = true → cur = 0 → s.power.entering = 0 → s.partIdle p = true → Tbl.get 0 s.power.idleFrom p ≠ 0 →
      Tbl.get 0 s.power.idleFrom p + s.o 0x1F2008 * 1000000 ≤ s.now + 1 → (p.val = 0 → s.o 0x400001 ≠ 1) →
      (∀ i ∈ s.clustersOf p, s.inFlightTo i = false) → (∀ c ∈ s.coresOf p, (s.core c).idle = true) →
      s.o (partObj p 3) < 2 →
      ∃ t, exec (.p2Entry p) s = .next t ∧
        t = { s with cores := t.cores, clusters := t.clusters, obj := t.obj, obs := t.obs, attn := t.attn
                     power := t.power } ∧
        ∀ i, (i ∈ s.clustersOf p → (t.cluster i).p2 = true ∧ ((s.cluster i).p2 = false →
            (t.cluster i).pllLocked = false ∧ t.oBit 0x202001 i = false ∧
            ∀ j, j < 4 → (t.core (4 * i + j)).acc = [] ∧ (t.core (4 * i + j)).preds = [])) ∧
          (i ∉ s.clustersOf p → t.cluster i = s.cluster i)) ∧
    (s.wakeDue k = false → exec (.p2Exit k) s = .next s) ∧
    ((s.cluster k).p2 = true → s.wakeDue k = true → cur = 0 → (s.partOfCluster k).isSome = true →
      (Tbl.get 0 s.power.p2Exit (dieOf k) = 0 ∨ Tbl.get 0 s.power.p2Exit (dieOf k) + 10000 ≤ s.now + 1) →
      ∃ t, exec (.p2Exit k) s = .next t ∧
        t = { s with free := t.free, cores := t.cores, clusters := t.clusters, hqs := t.hqs, mem := t.mem
                     ecc := t.ecc, line := t.line, omap := t.omap, wins := t.wins, closingWins := t.closingWins
                     rgns := t.rgns, rgnNext := t.rgnNext, ctxTab := t.ctxTab, scrubStart := t.scrubStart
                     obj := t.obj, obs := t.obs, chans := t.chans, ceRows := t.ceRows, attn := t.attn
                     reqs := t.reqs, maps := t.maps, stoppingCtx := t.stoppingCtx, power := t.power
                     adapts := t.adapts, submissions := t.submissions } ∧
        (s.power.waiting = [] → (t.cluster k).p2 = false ∧ (t.cluster k).pllLocked = true ∧ t.oBit 0x202001 k = true ∧
          Tbl.get 0 t.power.p2Exit (dieOf k) = s.now + 1 ∧ t.power.wakes = s.power.wakes.filter (fun i => i != k.val) ∧
          t.mem = s.mem ∧ t.hqs = s.hqs ∧
          ∀ i, i ≠ k.val → t.cluster i = s.cluster i))

/-- R55, R580 to R585, R603, R604: an idle core's clock is gated and released again; a PLL locks where it is in use, and a
loss of lock is counted and answered by its reset; a temperature is shown with its maximum and the time above 95 °C; at
105 °C a compute die slows its best-effort partitions until it has cooled, and at the trip point the device enters P4. The
model's own choices in it: log 155, 156. -/
def Obligations.ClocksAndTemperatureAreWatched : Prop :=
  ∀ (core : Fin 24) (i : Fin 11) (sleep : Bool) (d : Fin 3) (cd : Fin 2) (x : BitVec 8) (s : State),
    let c := core.val
    let gates := (s.core c).idle = true ∧ (s.core c).clockGated = false ∧ ((s.coresOf 0).contains c = true → s.o 0x400001 ≠ 1)
    let shows (t : State) (j : Nat) : Prop := t.temp (j + 1) = x.toInt ∧ t.temp 4 = max (s.temp 4) x.toInt
    let lane (t : State) (j : Nat) : Nat := t.laneState j
    (gates → ∃ t, exec (.coreClockGate core) s = .next t ∧
      SettledFrom (s.setCore c { s.core c with clockGated := true }) t ∧ SettledBut s t []) ∧
    (¬gates → exec (.coreClockGate core) s = .next s) ∧
    ((s.core c).clockGated = true → ∃ t, exec (.coreClockRelease core) s = .next t ∧
      SettledFrom (s.setCore c { s.core c with clockGated := false }) t ∧ SettledBut s t []) ∧
    ((s.core c).clockGated = false → exec (.coreClockRelease core) s = .next s) ∧
    (s.oBit 0x202001 i = false → s.pllUsed i = true →
      ∃ t, exec (.pllLock i) s = .next t ∧
        t = { s with clusters := t.clusters, obj := t.obj, obs := t.obs, loop := t.loop, lanes := t.lanes
                     rels := t.rels, peers := t.peers, attn := t.attn, inject := t.inject, masters := t.masters
                     transfers := t.transfers, aborted := t.aborted, power := t.power } ∧ t.oBit 0x202001 i = true ∧
        (i.val ≠ 10 → t = { s with clusters := t.clusters, obj := t.obj } ∧ (∀ j, j ≠ 0x202001 → t.o j = s.o j) ∧
          ∀ j, t.cluster j = if j = i.val ∧ i.val < 6 then { s.cluster j with pllLocked := true } else s.cluster j) ∧
        (i.val = 10 → ∀ j, j < 12 → lane t j = (if lane s j = 0 ∧ s.o (laneObj j 3) ≠ 0 then 1 else lane s j))) ∧
    (s.oBit 0x202001 i = true ∨ s.pllUsed i = false → exec (.pllLock i) s = .next s) ∧
    (s.oBit 0x202001 i = true → ∃ t, exec (.pllLockLoss i) s = .next t ∧
      t = { s with clusters := t.clusters, obj := t.obj, obs := t.obs, loop := t.loop, lanes := t.lanes
                   rels := t.rels, peers := t.peers, attn := t.attn, reqs := t.reqs, inject := t.inject
                   masters := t.masters, transfers := t.transfers, aborted := t.aborted, power := t.power } ∧
      t.oBit 0x202001 i = false ∧ Counts s t 0x202002 1 ∧
      (i.val < 6 → (t.cluster i).pllLocked = false ∧ t.reqs = s.reqs ++ (match s.partOfCluster i with
        | some p => [⟨3, p, 0, none, true⟩]
        | none => [])) ∧
      (6 ≤ i.val → i.val < 10 → t.clusters = s.clusters ∧ t.reqs = s.reqs ++ [⟨4, 0, 0x07, none, true⟩]) ∧
      (i.val = 10 → t.reqs = s.reqs ∧ ∀ j, j < 12 → lane t j = (if lane s j = 4 then 3 else lane s j))) ∧
    (s.oBit 0x202001 i = false → exec (.pllLockLoss i) s = .next s) ∧
    (∃ t, exec (.oscFault sleep) s = .next t ∧
      t = { s with obj := t.obj, obs := t.obs } ∧ t.o (if sleep then 0x202004 else 0x202003) = 0 ∧
      ObjectsBut s t [if sleep then 0x202004 else 0x202003]) ∧
    (∃ t, exec (.junctionTemperatureExcess d x) s = .next t ∧
      t = { s with obj := t.obj, obs := t.obs, attn := t.attn, power := t.power } ∧ shows t d ∧
      (Tbl.get 0 t.power.hotFrom d = 0 ↔ x.toInt ≤ 95) ∧
      (s.hotTen = true → t.oBit 0x801100 0 = false ∧ t.power.excessAt = s.now + 1) ∧
      SettledBut s t [ok 0x2000 (d + 1), 0x200004, 0x200006]) ∧
    (x.toInt < 105 ∨ s.oBit 0x200008 cd = true → ∃ t, exec (.thermalReduction cd x) s = .next t ∧
      t = { s with obj := t.obj, obs := t.obs, attn := t.attn, power := t.power } ∧
      shows t cd ∧ t.o 0x200008 = s.o 0x200008) ∧
    (100 ≤ x.toInt ∨ s.oBit 0x200008 cd = false → ∃ t, exec (.thermalReductionEnd cd x) s = .next t ∧
      t = { s with obj := t.obj, obs := t.obs, attn := t.attn, power := t.power } ∧
      shows t cd ∧ t.o 0x200008 = s.o 0x200008) ∧
    (PowerQuiet s → s.power.waiting = [] → s.power.cooled = [] → s.runningBe = [] → s.anyPreempting = false →
      let slowed (t : State) : Prop := ∀ p, 1 ≤ p → p < 4 → (t.power.slow.contains p = true ↔
        ∃ k ∈ s.clustersOf p, t.oBit 0x200008 (dieOf k) = true)
      (105 ≤ x.toInt → s.oBit 0x200008 cd = false → ∃ t, exec (.thermalReduction cd x) s = .next t ∧
        t = { s with obj := t.obj, obs := t.obs, attn := t.attn, power := t.power } ∧
        shows t cd ∧ t.oBit 0x200008 cd = true ∧ slowed t) ∧
      (x.toInt < 100 → s.oBit 0x200008 cd = true → ∃ t, exec (.thermalReductionEnd cd x) s = .next t ∧
        t = { s with obj := t.obj, obs := t.obs, attn := t.attn, power := t.power } ∧
        shows t cd ∧ t.oBit 0x200008 cd = false ∧ slowed t)) ∧
    (x.toInt < 115 ∨ s.power.stage = 0 → ∃ t, exec (.thermalTrip d x) s = .next t ∧
      t = { s with obj := t.obj, obs := t.obs, attn := t.attn, power := t.power } ∧ shows t d) ∧
    (115 ≤ x.toInt → s.power.stage ≠ 0 → ∃ t, exec (.thermalTrip d x) s = .next t ∧
      t = { s with cores := t.cores, clusters := t.clusters, hqs := t.hqs, forwards := t.forwards
                   credits := t.credits, mem := t.mem, ecc := t.ecc, line := t.line, omap := t.omap, wins := t.wins
                   closingWins := t.closingWins, rgns := t.rgns, rgnNext := t.rgnNext, holders := t.holders
                   ctxTab := t.ctxTab, scrubCfg := t.scrubCfg, scrubLate := t.scrubLate, obj := t.obj, dom := t.dom, obs := t.obs
                   chans := t.chans, ceRows := t.ceRows, reply := t.reply, loop := t.loop, sources := t.sources
                   boot := t.boot, lanes := t.lanes, rels := t.rels, peers := t.peers, writes := t.writes
                   inWrites := t.inWrites, attn := t.attn, reqs := t.reqs, steps := t.steps, inject := t.inject
                   heldRx := t.heldRx, heldTx := t.heldTx, masters := t.masters, transfers := t.transfers
                   aborted := t.aborted, maps := t.maps, invocations := t.invocations, saved := t.saved
                   stoppingCtx := t.stoppingCtx, loading := t.loading, reloads := t.reloads, fw := t.fw
                   power := t.power, flash := t.flash, adapts := t.adapts, submissions := t.submissions
                   cameras := t.cameras, tokenizer := t.tokenizer } ∧
      t.o 0x1F2001 = 4 ∧ t.o 0x1F2002 = 4 ∧ t.power.tripped = true ∧ Counts s t 0x200009 1 ∧
      (s.o 0x1F2002 ≠ 4 → ∀ j, j < 12 → t.laneState j = 0 ∨ t.laneState j = 7))

/-! ### The block as a whole -/

/-- A step is the effect of the command at the front of the queue on the state with the queue's rest. With no command
waiting, 1 ns passes (the model's own choice, log 3): the hub clock counts, the always-on clock of 24 MHz takes 3 of 125
such steps, each adding the increment to device time, and cluster clocks that run count. R99, R122, R142, R146: where a
cluster cycle ends or begins, a command that loses its bank ends a cycle later, its losses and the cycles of dummy fill are
counted, and the slot start of a group is noted; where no command waits or executes and no fill runs, nothing but the clocks
changes. The model's own choices in it: log 3, 50, 51. -/
def Obligations.StepTakesTheFront : Prop :=
  ∀ (c : Instr) (s : State),
    (∀ rest, s.pending = c :: rest → step s = exec c { s with pending := rest }) ∧
    step { s with pending := c :: s.pending } = exec c s ∧
    (s.pending = [] → ∃ t, step s = .next t ∧
      t = { s with clk := t.clk, clusters := t.clusters, cores := t.cores, obs := t.obs } ∧
      t.clk.hub = s.clk.hub + 1 ∧ t.clk.inc = s.clk.inc ∧ t.clk.phase = (s.clk.phase + 3) % 125 ∧
      t.clk.acc = (if 125 ≤ s.clk.phase + 3 then s.clk.acc + s.clk.inc else s.clk.acc) ∧
      t.clk.slope = (if 125 ≤ s.clk.phase + 3 then s.clk.inc else s.clk.slope) ∧
      (∀ k, let x := s.cluster k
        t.cluster k = if k < 6 ∧ x.pllLocked = true ∧ s.stopped k = false then
          { x with cyc := x.cyc + (x.frac + s.clusterMhz k) / 1000, frac := (x.frac + s.clusterMhz k) % 1000
                   portPtr := (t.cluster k).portPtr } else x) ∧
      (∀ k, let y := t.core k
        y = { s.core k with engines := y.engines, mePrev := y.mePrev, gapFrom := y.gapFrom, fills := y.fills } ∧
        ∀ e, let z := y.engine e
          let old := (s.core k).engine e
          z = { old with left := z.left, beStart := z.beStart, flights := z.flights } ∧
            (z.flights = old.flights ∨ z.flights = old.flights.map (Flight.delay (s.coreCycle k))) ∧
            (old.beStart ≠ none → z.beStart = old.beStart)) ∧
      ((∀ k e, (s.engine k e).queue = [] ∧ (s.engine k e).flights = [] ∧ (s.core k).fills = []) →
        t.cores = s.cores ∧ t.obs = s.obs ∧ ∀ k, (t.cluster k).portPtr = (s.cluster k).portPtr))

/-- R16, R276, R484 and the default columns of the object tables: after reset every register of the hub reads 0 but
SCRUB.CFG, which reads 0x4064, and CORE.FRAME.PERIOD, whose reset value the spec does not give; the identity and default
values of the dictionary stand; memory lists nothing, no command waits, and no fuse is blown. The model's own choices in
it: log 2, 13, 151. -/
def Obligations.ResetHoldsTheStatedValues : Prop :=
  let s := State.reset
  (∀ r, r ≠ .scrubCfg → s.regRead r = match r with
    | .framePeriod c => s.regRead (.framePeriod c)
    | _ => 0) ∧
  s.regRead .scrubCfg = 0x4064 ∧ s.pending = [] ∧ s.mem = [] ∧ Memory.wf s.mem = true ∧ (∀ a, s.byte a = 0) ∧
  (∀ p, p ∈ [(0x101801, 0x49444D53), (0x101802, 0x2460), (0x101806, 255), (0x108301, 1), (0x1F2008, 10), (0x200005, 95),
      (0x202003, 1), (0x202004, 1), (0x400001, 0), (0x400002, 31250), (0x400003, 8000), (0x400005, 8), (0x600005, 1),
      (0x608001, 24), (0x700001, 60), (0x710003, 3), (0x900004, 0xFFFFFFFF), (0xA01009, 0xFFFFFFFF),
      (0xC00001, 255)] → s.o p.1 = p.2) ∧
  (∀ n, n < 64 → s.ctxState n = 0 ∧ s.o (ctxObj n 6) = 16 ∧ s.o (ctxObj n 7) = 200000) ∧
  (∀ p, p < 4 → s.o (partObj p 2) = 1000) ∧ (∀ n, n < 32 → s.o (ok (0x4010 + n) 3) = 1) ∧
  (∀ c, c < 24 → s.o (ok (0x8200 + c) 1) = 32) ∧ ∀ c e, (s.core c).engine e = Engine.reset

/-- Every step keeps memory in its one canonical form: addresses strictly rising and no entry equal to what an address
that is not listed reads as. The model's own choices in it: log 2. -/
def Obligations.StepKeepsTheMemoryForm : Prop :=
  ∀ s t : State, Memory.wf s.mem = true → step s = .next t → Memory.wf t.mem = true

/-- R540, R542: no step changes a row of the life-cycle fuses that has a bit blown. -/
def Obligations.BlownRowsStayBlown : Prop :=
  ∀ (s t : State) (i : Nat), step s = .next t → Tbl.get 0 s.fuses.rows i ≠ 0 →
    Tbl.get 0 t.fuses.rows i = Tbl.get 0 s.fuses.rows i

/-- Every command whose byte list has a length that its rule allows answers a next state, in every state; every other is a
fault. No command is refused. The model's own choices in it: log 160, 161. -/
def Obligations.WellFormedCommandsComplete : Prop :=
  ∀ (c : Instr) (s : State),
    (c.wf = true → ∃ t, exec c s = .next t) ∧ (c.wf = false → exec c s = .fault .illFormed)

/-- R243: the random value for seed S, sub-stream u and index i is the output permutation of the state that i + 1 steps of
the congruential sequence reach from S. -/
def Obligations.RandomValuesFollowTheSequence : Prop :=
  ∀ seed u i : Nat, seed < 2 ^ 64 → u < 2 ^ 16 → i < 2 ^ 48 →
    let next (x : Nat) := (x * 0x9E6C63D0676A9A99 + (2 * u + 1)) % 2 ^ 64
    let x := (List.range (i + 1)).foldl (fun y _ => next y) seed
    let y := (x ^^^ (x >>> 29)) * 0xA3B195C47D2EF061 % 2 ^ 64
    rng seed u i = (y ^^^ (y >>> 32)) >>> 32
end

