-- ==== Sys2Proof/Laws/Bits.lean ====
section
/-! SUPPORT. Fields of a number that has had a field replaced. -/

namespace Sys2Proof.Machine

theorem nput_eq (w lo n v : Nat) : nput w lo n v = w % 2 ^ lo + 2 ^ lo * (v % 2 ^ n + 2 ^ n * (w / 2 ^ lo / 2 ^ n)) := by
  unfold nput nfld
  have h1 := Nat.div_add_mod w (2 ^ lo)
  have h2 := Nat.div_add_mod (w / 2 ^ lo) (2 ^ n)
  generalize 2 ^ lo = P at *
  generalize 2 ^ n = Q at *
  generalize hb : w / P % Q = b at *
  generalize hc : w / P / Q = c at *
  generalize hq : w / P = q at *
  generalize ha : w % P = a at *
  generalize v % Q = x
  subst h1
  rw [← h2, Nat.mul_add, Nat.mul_add, Nat.mul_comm b P, Nat.mul_comm x P]
  omega

/-- The field replaced holds the new value. -/
theorem nfld_nput_same (w lo n v : Nat) : nfld (nput w lo n v) lo n = v % 2 ^ n := by
  rw [nput_eq]
  unfold nfld
  rw [Nat.add_mul_div_left _ _ (Nat.two_pow_pos lo), Nat.div_eq_of_lt (Nat.mod_lt _ (Nat.two_pow_pos lo)), Nat.zero_add,
    Nat.add_mul_mod_self_left, Nat.mod_mod]

/-- A field below the one replaced is as before. -/
theorem nfld_nput_below (w lo n v i k : Nat) (h : i + k ≤ lo) : nfld (nput w lo n v) i k = nfld w i k := by
  rw [nput_eq]
  unfold nfld
  obtain ⟨d, rfl⟩ : ∃ d, lo = i + k + d := ⟨lo - (i + k), by omega⟩
  have hp : 2 ^ (i + k + d) = 2 ^ i * (2 ^ k * 2 ^ d) := by rw [Nat.pow_add, Nat.pow_add, Nat.mul_assoc]
  rw [hp]
  generalize v % 2 ^ n + 2 ^ n * _ = y
  rw [Nat.mul_assoc (2 ^ i), Nat.add_mul_div_left _ _ (Nat.two_pow_pos i), Nat.mul_assoc, Nat.add_mul_mod_self_left,
    Nat.mod_mul_right_div_self, Nat.mod_mul_right_mod]

/-- A field above the one replaced is as before. -/
theorem nfld_nput_above (w lo n v i k : Nat) (h : lo + n ≤ i) : nfld (nput w lo n v) i k = nfld w i k := by
  rw [nput_eq]
  unfold nfld
  obtain ⟨d, rfl⟩ : ∃ d, i = lo + n + d := ⟨i - (lo + n), by omega⟩
  rw [Nat.pow_add, Nat.pow_add, ← Nat.div_div_eq_div_mul, ← Nat.div_div_eq_div_mul, ← Nat.div_div_eq_div_mul,
    ← Nat.div_div_eq_div_mul, Nat.add_mul_div_left _ _ (Nat.two_pow_pos lo),
    Nat.div_eq_of_lt (Nat.mod_lt _ (Nat.two_pow_pos lo)), Nat.zero_add, Nat.add_mul_div_left _ _ (Nat.two_pow_pos n),
    Nat.div_eq_of_lt (Nat.mod_lt _ (Nat.two_pow_pos n)), Nat.zero_add]

/-- A field replaced in a number below `2 ^ (lo + n + d)` leaves it below. -/
theorem nput_lt (w lo n d v : Nat) (h : w < 2 ^ (lo + n + d)) : nput w lo n v < 2 ^ (lo + n + d) := by
  rw [nput_eq]
  have h3 : w / 2 ^ lo / 2 ^ n < 2 ^ d := by
    rw [Nat.div_div_eq_div_mul, ← Nat.pow_add]
    exact Nat.div_lt_of_lt_mul (by rw [← Nat.pow_add]; exact h)
  have h1 := Nat.mod_lt w (Nat.two_pow_pos lo)
  have h2 := Nat.mod_lt v (Nat.two_pow_pos n)
  rw [Nat.pow_add, Nat.pow_add]
  generalize 2 ^ lo = P at *
  generalize 2 ^ n = Q at *
  generalize 2 ^ d = D at *
  generalize w / P / Q = c at *
  generalize w % P = a at *
  generalize v % Q = x at *
  have h4 : x + Q * c + 1 ≤ Q * D := by
    calc x + Q * c + 1 ≤ Q + Q * c := by omega
      _ = Q * (c + 1) := by rw [Nat.mul_add]; omega
      _ ≤ Q * D := Nat.mul_le_mul_left _ h3
  calc a + P * (x + Q * c) < P + P * (x + Q * c) := by omega
    _ = P * (x + Q * c + 1) := by rw [Nat.mul_add P (x + Q * c) 1, Nat.mul_one]; omega
    _ ≤ P * (Q * D) := Nat.mul_le_mul_left _ h4
    _ = P * Q * D := (Nat.mul_assoc ..).symm

theorem put32_toNat (w : W32) (lo n v : Nat) (h : lo + n ≤ 32) : (put32 w lo n v).toNat = nput w.toNat lo n v := by
  unfold put32
  rw [BitVec.toNat_ofNat, Nat.mod_eq_of_lt]
  have := nput_lt w.toNat lo n (32 - (lo + n)) v
  rw [show lo + n + (32 - (lo + n)) = 32 by omega] at this
  exact this w.isLt

theorem fld_eq_nfld {m : Nat} (w : BitVec m) (i k : Nat) : fld w i k = nfld w.toNat i k := rfl

theorem bit_eq_nfld {m : Nat} (w : BitVec m) (i : Nat) : bit w i = (nfld w.toNat i 1 == 1) := rfl

theorem fld_put32_same (w : W32) (lo n v : Nat) (h : lo + n ≤ 32) : fld (put32 w lo n v) lo n = v % 2 ^ n := by
  rw [fld_eq_nfld, put32_toNat w lo n v h, nfld_nput_same]

theorem fld_put32_other (w : W32) (lo n v i k : Nat) (h : lo + n ≤ 32) (d : i + k ≤ lo ∨ lo + n ≤ i) :
    fld (put32 w lo n v) i k = fld w i k := by
  rw [fld_eq_nfld, put32_toNat w lo n v h]
  rcases d with d | d
  · exact nfld_nput_below _ _ _ _ _ _ d
  · exact nfld_nput_above _ _ _ _ _ _ d

theorem bit_put32_same (w : W32) (lo v : Nat) (h : lo + 1 ≤ 32) : bit (put32 w lo 1 v) lo = (v % 2 == 1) := by
  rw [bit_eq_nfld, put32_toNat w lo 1 v h, nfld_nput_same] <;> rfl

theorem bit_put32_other (w : W32) (lo n v i : Nat) (h : lo + n ≤ 32) (d : i + 1 ≤ lo ∨ lo + n ≤ i) :
    bit (put32 w lo n v) i = bit w i := by
  rw [bit_eq_nfld, bit_eq_nfld, put32_toNat w lo n v h]
  rcases d with d | d
  · rw [nfld_nput_below _ _ _ _ _ _ d]
  · rw [nfld_nput_above _ _ _ _ _ _ d]

/-- A map with a range of keys cleared reads as its default there, and as before elsewhere. -/
theorem Tbl.get_clear {α : Type} (d : α) (t : Tbl α) (a n k : Nat) :
    Tbl.get d (Tbl.clear t a n) k = if a ≤ k ∧ k < a + n then d else Tbl.get d t k := by
  unfold Tbl.clear
  induction t with
  | nil => simp [Tbl.get]
  | cons e t ih =>
    obtain ⟨k', v⟩ := e
    rw [List.filter_cons]
    by_cases h : k' < a ∨ a + n ≤ k'
    · rw [if_pos (by simpa using h)]
      simp only [Tbl.get]
      by_cases hk : k' = k
      · rw [if_pos hk, if_neg (by omega), if_pos hk]
      · rw [if_neg hk, if_neg hk, ih]
    · rw [if_neg (by simpa using h), ih]
      simp only [Tbl.get]
      by_cases hk : k' = k
      · rw [if_pos (by omega), if_pos (by omega)]
      · rw [if_neg hk]

end Sys2Proof.Machine
end

