-- ==== Sys2Proof/Laws/MemoryFrame.lean ====
section
/-! SUPPORT. What leaves memory alone: one lemma for each operation of the model that stores no byte. -/

namespace Sys2Proof.Machine

theorem foldl_mem {α : Type} (f : State → α → State) (h : ∀ t x, (f t x).mem = t.mem) :
    ∀ (l : List α) (s : State), (l.foldl f s).mem = s.mem
  | [], _ => rfl
  | x :: r, s => by rw [List.foldl_cons, foldl_mem f h r, h]
theorem foldl_fst_mem {α β : Type} (f : State × β → α → State × β) (h : ∀ t x, (f t x).1.mem = t.1.mem) :
    ∀ (l : List α) (s : State × β), (l.foldl f s).1.mem = s.1.mem
  | [], _ => rfl
  | x :: r, s => by rw [List.foldl_cons, foldl_fst_mem f h r, h]
@[simp] theorem ite_mem (c : Prop) [Decidable c] (a b : State) : (if c then a else b).mem = if c then a.mem else b.mem := by
  split <;> rfl

@[simp] theorem State.setO_mem (s : State) (k : Nat) (v : Nat) :
    (State.setO s k v).mem = s.mem := by unfold State.setO; simp
@[simp] theorem State.incO_mem (s : State) (k : Nat) (n : Nat) :
    (State.incO s k n).mem = s.mem := by unfold State.incO; simp
@[simp] theorem State.abandonCount_mem (s : State) (k : Nat) (cause : Nat) (n : Nat) :
    (State.abandonCount s k cause n).mem = s.mem := by unfold State.abandonCount; simp
@[simp] theorem State.setCamera_mem (s : State) (k : Nat) (x : Camera) :
    (State.setCamera s k x).mem = s.mem := by unfold State.setCamera; simp
@[simp] theorem State.abandonAll_mem (s : State) (k : Nat) (cause : Nat) :
    (State.abandonAll s k cause).mem = s.mem := by unfold State.abandonAll; simp
@[simp] theorem State.abandonCur_mem (s : State) (k : Nat) (cause : Nat) :
    (State.abandonCur s k cause).mem = s.mem := by unfold State.abandonCur; simp
@[simp] theorem State.setAdapt_mem (s : State) (n : Nat) (x : AdaptSt) :
    (State.setAdapt s n x).mem = s.mem := by unfold State.setAdapt; simp
@[simp] theorem State.setCore_mem (s : State) (c : Nat) (x : Core) :
    (State.setCore s c x).mem = s.mem := by unfold State.setCore; simp
@[simp] theorem State.traceRec_mem (s : State) (r : TraceRec) :
    (State.traceRec s r).mem = s.mem := by unfold State.traceRec; simp
@[simp] theorem State.traceTime_mem (s : State) : (State.traceTime s).mem = s.mem := by unfold State.traceTime; simp
@[simp] theorem State.trace_mem (s : State) (cls : Nat) (unit : Nat) (eng : Nat) (ctx : Option Nat) (arg : Nat) (detail : Nat) :
    (State.trace s cls unit eng ctx arg detail).mem = s.mem := by unfold State.trace; simp
@[simp] theorem State.logEv_mem (s : State) (cls : Nat) (utype : Nat) (unit : Nat) (i : LogInfo) :
    (State.logEv s cls utype unit i).mem = s.mem := by
  unfold State.logEv
  dsimp only
  split
  · rfl
  · rw [State.trace_mem, State.setO_mem, State.setO_mem]
@[simp] theorem State.frameSwapWrite_mem (s : State) (core : Nat) :
    (State.frameSwapWrite s core).mem = s.mem := by unfold State.frameSwapWrite; simp
@[simp] theorem State.loadCorePlan_mem (s : State) (ms : List Mapped) (c : Nat) :
    (State.loadCorePlan s ms c).mem = s.mem := by unfold State.loadCorePlan; simp
@[simp] theorem State.loadPlan_mem (s : State) : (State.loadPlan s).mem = s.mem := by
  unfold State.loadPlan
  exact foldl_mem _ (fun t x => by simp) _ _
@[simp] theorem State.abortPublications_mem (s : State) (p : Nat → Bool) :
    (State.abortPublications s p).mem = s.mem := by
  unfold State.abortPublications
  exact foldl_mem _ (fun t x => by dsimp only; (repeat' split) <;> simp) _ _
@[simp] theorem State.event_mem (s : State) (code : Nat) (unit : Nat) (k : Nat) :
    (State.event s code unit k).mem = s.mem := by unfold State.event; simp
@[simp] theorem State.setHq_mem (s : State) (u : Nat) (q : Nat) (x : HQueue) :
    (State.setHq s u q x).mem = s.mem := by unfold State.setHq; simp
@[simp] theorem State.setRel_mem (s : State) (lane : Nat) (ch : Nat) (x : RelChan) :
    (State.setRel s lane ch x).mem = s.mem := by unfold State.setRel; simp
@[simp] theorem State.acted_mem (s : State) :
    (State.acted s).mem = s.mem := by unfold State.acted; (repeat' split) <;> simp
@[simp] theorem State.sendRel_mem (s : State) (lane : Nat) (ch : Nat) (f : Frame) :
    (State.sendRel s lane ch f).mem = s.mem := by unfold State.sendRel; simp
@[simp] theorem State.sendPair_mem (s : State) (typ : Nat) (d : Nat) (w2 : Nat) (su : Nat) (sq : Nat) (tu : Nat) (tq : Nat) :
    (State.sendPair s typ d w2 su sq tu tq).1.mem = s.mem := by unfold State.sendPair; (repeat' split) <;> simp
@[simp] theorem State.acceptPush_mem (s : State) (u : Nat) (q : Nat) (h : W32) (p : Pusher) :
    (State.acceptPush s u q h p).mem = s.mem := by unfold State.acceptPush; simp
@[simp] theorem State.withLoop_mem (s : State) (f : Loop → Loop) :
    (State.withLoop s f).mem = s.mem := by unfold State.withLoop; simp
@[simp] theorem State.addService_mem (s : State) (ns : Nat) :
    (State.addService s ns).mem = s.mem := by unfold State.addService; simp
@[simp] theorem State.fresh_mem (s : State) : (State.fresh s).2.mem = s.mem := by unfold State.fresh; simp
@[simp] theorem State.addDowntime_mem (s : State) (ns : Nat) (fresh : Bool) :
    (State.addDowntime s ns fresh).mem = s.mem := by unfold State.addDowntime; simp
@[simp] theorem State.accountFrame_mem (s : State) (faulty : List Nat) (good : List Nat) :
    (State.accountFrame s faulty good).mem = s.mem := by unfold State.accountFrame; simp
@[simp] theorem State.ackRel_mem (s : State) (lane : Nat) (ch : Nat) (next : Nat) :
    (State.ackRel s lane ch next).mem = s.mem := by unfold State.ackRel; dsimp only; (repeat' split) <;> simp
@[simp] theorem State.raise_mem (s : State) (r : ResetReq) :
    (State.raise s r).mem = s.mem := by unfold State.raise; simp
@[simp] theorem State.showPending_mem (s : State) :
    (State.showPending s).mem = s.mem := by unfold State.showPending; simp
@[simp] theorem State.activate_mem (s : State) (v : Nat) :
    (State.activate s v).1.mem = s.mem := by unfold State.activate; (repeat' split) <;> simp
@[simp] theorem State.rgnInstall_mem (s : State) (e : Nat) (w0 : W32) (w1 : W32) :
    (State.rgnInstall s e w0 w1).mem = s.mem := by unfold State.rgnInstall; simp
@[simp] theorem State.rgnChange_mem (s : State) (e : Nat) (w0 : W32) (w1 : W32) :
    (State.rgnChange s e w0 w1).mem = s.mem := by unfold State.rgnChange; simp
@[simp] theorem State.obtainHalves_mem (s : State) (n : Nat) :
    (State.obtainHalves s n).mem = s.mem := by
  unfold State.obtainHalves
  extract_lets w x
  split
  · rfl
  · split
    · split <;> simp
    · split <;> simp
@[simp] theorem State.logSram_mem (s : State) (cls : Nat) (word : Nat) (y3 : Option (Nat × Nat)) :
    (State.logSram s cls word y3).mem = s.mem := by unfold State.logSram; (repeat' split) <;> simp
@[simp] theorem State.logWord_mem (s : State) (cls : Nat) (word : Nat) :
    (State.logWord s cls word).mem = s.mem := by unfold State.logWord; simp
@[simp] theorem State.readWord_mem (s : State) (e : Nat × Nat) :
    (State.readWord s e).mem = s.mem := by unfold State.readWord; (repeat' split) <;> simp
@[simp] theorem State.writeWord_mem (a : Nat) (n : Nat) (s : State) (e : Nat × Nat) :
    (State.writeWord a n s e).mem = s.mem := by
  unfold State.writeWord
  dsimp only
  split
  · split <;> simp
  · split <;> split <;> simp
@[simp] theorem State.admitted_mem (s : State) :
    (State.admitted s).1.mem = s.mem := by unfold State.admitted; dsimp only; (repeat' split) <;> simp
@[simp] theorem State.setCurrent_mem (s : State) (v : Nat) :
    (State.setCurrent s v).mem = s.mem := by unfold State.setCurrent; simp
@[simp] theorem State.loseHold_mem (s : State) (core : Nat) :
    (State.loseHold s core).mem = s.mem := by unfold State.loseHold; simp
@[simp] theorem State.loseVolatile_mem (s : State) (c : Nat) :
    (State.loseVolatile s c).mem = s.mem := by unfold State.loseVolatile; simp
@[simp] theorem State.setOBit_mem (s : State) (k : Nat) (i : Nat) (b : Bool) :
    (State.setOBit s k i b).mem = s.mem := by unfold State.setOBit; simp
@[simp] theorem State.setCluster_mem (s : State) (k : Nat) (x : Cluster) :
    (State.setCluster s k x).mem = s.mem := by unfold State.setCluster; simp
@[simp] theorem State.setPll_mem (s : State) (i : Nat) (b : Bool) :
    (State.setPll s i b).mem = s.mem := by unfold State.setPll; simp
@[simp] theorem State.retainCluster_mem (s : State) (k : Nat) : (State.retainCluster s k).mem = s.mem := by
  unfold State.retainCluster
  dsimp only
  split
  · rw [State.setPll_mem]; exact foldl_mem _ (fun t x => by simp) _ _
  · exact (State.setPll_mem ..).trans (foldl_mem _ (fun t x => by simp) _ _)
@[simp] theorem State.setChan_mem (s : State) (c : Nat) (x : Channel) :
    (State.setChan s c x).mem = s.mem := by unfold State.setChan; simp
@[simp] theorem State.send_mem (s : State) (ch : Nat) (op : Nat) (fields : Nat) :
    (State.send s ch op fields).mem = s.mem := by unfold State.send; simp
@[simp] theorem State.selfRefreshAll_mem (s : State) (pasr : Nat) :
    (State.selfRefreshAll s pasr).mem = s.mem := by unfold State.selfRefreshAll; exact foldl_mem _ (fun t x => by dsimp only; (repeat' split) <;> simp) _ _
@[simp] theorem State.settleState_mem (s : State) :
    (State.settleState s).mem = s.mem := by unfold State.settleState; simp
@[simp] theorem State.settleIdle_mem (s : State) : (State.settleIdle s).mem = s.mem := by
  unfold State.settleIdle
  exact foldl_mem _ (fun t x => by dsimp only; (repeat' split) <;> simp) _ _
@[simp] theorem State.settleClusters_mem (s : State) :
    (State.settleClusters s).mem = s.mem := by unfold State.settleClusters; simp
@[simp] theorem State.settleConds_mem (s : State) :
    (State.settleConds s).mem = s.mem := by unfold State.settleConds; simp
@[simp] theorem State.attention_mem (s : State) (detail : Nat) :
    (State.attention s detail).mem = s.mem := by unfold State.attention; simp
@[simp] theorem State.settleFlags_mem (s : State) :
    (State.settleFlags s).mem = s.mem := by unfold State.settleFlags; exact foldl_mem _ (fun t x => by dsimp only; (repeat' split) <;> simp) _ _
@[simp] theorem State.settlePools_mem (s : State) : (State.settlePools s).mem = s.mem := by
  unfold State.settlePools
  exact foldl_mem _ (fun t x => by split <;> simp) _ _
@[simp] theorem State.settleCounts_mem (s : State) : (State.settleCounts s).mem = s.mem := by
  unfold State.settleCounts
  dsimp only
  rw [foldl_mem _ (fun t x => by simp), foldl_mem _ (fun t x => by simp), foldl_mem _ (fun t x => by simp)]
@[simp] theorem State.settle_mem (s : State) : (State.settle s).mem = s.mem := by unfold State.settle; simp
@[simp] theorem State.endHandoff_mem (s : State) : (State.endHandoff s).mem = s.mem := by unfold State.endHandoff; simp
@[simp] theorem State.writeSummary_mem (s : State) (bad : Nat) :
    (State.writeSummary s bad).mem = s.mem := by unfold State.writeSummary; simp
@[simp] theorem State.failSlot_mem (s : State) (k : Nat) (err : Nat) :
    (State.failSlot s k err).mem = s.mem := by unfold State.failSlot; simp
@[simp] theorem State.endTransfer_mem (s : State) (key : Nat) :
    (State.endTransfer s key).mem = s.mem := by unfold State.endTransfer; (repeat' split) <;> simp
@[simp] theorem State.endTransfers_mem (s : State) (m : Nat) (st : Nat) (p : Transfer → Bool) :
    (State.endTransfers s m st p).mem = s.mem := by unfold State.endTransfers; exact foldl_mem _ (fun t x => by dsimp only; (repeat' split) <;> simp) _ _
@[simp] theorem State.putLane_mem (s : State) (i : Nat) (x : Lane) :
    (State.putLane s i x).mem = s.mem := by unfold State.putLane; simp
@[simp] theorem State.restartRel_mem (s : State) (i ch : Nat) : (State.restartRel s i ch).mem = s.mem := by
  unfold State.restartRel; simp
@[simp] theorem State.beginTraining_mem (s : State) (i : Nat) :
    (State.beginTraining s i).mem = s.mem := by unfold State.beginTraining; simp
@[simp] theorem State.setPeer_mem (s : State) (n : Nat) (x : PeerLink) :
    (State.setPeer s n x).mem = s.mem := by unfold State.setPeer; simp
@[simp] theorem State.setMaster_mem (s : State) (m : Nat) (x : Master) :
    (State.setMaster s m x).mem = s.mem := by unfold State.setMaster; simp
@[simp] theorem State.notePorts_mem (s : State) :
    (State.notePorts s).mem = s.mem := by unfold State.notePorts; exact foldl_mem _ (fun t x => by dsimp only; (repeat' split) <;> simp) _ _
@[simp] theorem State.enterLane_mem (s : State) (i : Nat) (st : Nat) :
    (State.enterLane s i st).mem = s.mem := by unfold State.enterLane; simp
@[simp] theorem State.laneOff_mem (s : State) (i : Nat) :
    (State.laneOff s i).mem = s.mem := by unfold State.laneOff; simp
@[simp] theorem State.leaveRun_mem (s : State) (st : Nat) :
    (State.leaveRun s st).mem = s.mem := by unfold State.leaveRun; simp
@[simp] theorem State.clearLoopQueues_mem (s : State) : (State.clearLoopQueues s).mem = s.mem := by
  unfold State.clearLoopQueues
  exact foldl_mem _ (fun t x => by rw [State.setO_mem]; exact foldl_mem _ (fun t x => by simp) _ _) _ _
@[simp] theorem State.resetWindows_mem (s : State) : (State.resetWindows s).mem = s.mem := by
  unfold State.resetWindows
  exact foldl_mem _ (fun t x => by simp) _ _
@[simp] theorem State.setD_mem (s : State) (k : Nat) (v : List Byte) :
    (State.setD s k v).mem = s.mem := by unfold State.setD; simp
@[simp] theorem State.rgnDrop_mem (s : State) (e : Nat) : (State.rgnDrop s e).mem = s.mem := by unfold State.rgnDrop; simp
@[simp] theorem State.dropImage_mem (s : State) (k : Nat) :
    (State.dropImage s k).mem = s.mem := by unfold State.dropImage; (repeat' split) <;> simp
@[simp] theorem State.resetContexts_mem (s : State) : (State.resetContexts s).mem = s.mem := by
  unfold State.resetContexts
  extract_lets back s1
  have h : s1.mem = s.mem := by
    clear_value back
    exact foldl_mem _ (fun t x => by rw [State.setO_mem, State.setO_mem, State.setO_mem, State.setO_mem]) _ _
  clear_value s1
  exact h
@[simp] theorem State.regionRefusal_mem (s : State) (dram : Bool) (g : Nat) (owner : Nat) (addr : Nat) :
    (State.regionRefusal s dram g owner addr).mem = s.mem := by unfold State.regionRefusal; (repeat' split) <;> simp
@[simp] theorem State.logRegion_mem (s : State) (own : Nat) (a : Nat) (y3 : Place) :
    (State.logRegion s own a y3).mem = s.mem := by unfold State.logRegion; (repeat' split) <;> simp
@[simp] theorem State.logFar_mem (s : State) (r : Requester) (st : Nat) (a : Nat) :
    (State.logFar s r st a).mem = s.mem := by unfold State.logFar; simp
@[simp] theorem State.sendLine_mem (s : State) (ch : Nat) (off : Nat) (write : Bool) :
    (State.sendLine s ch off write).mem = s.mem := by unfold State.sendLine; simp
@[simp] theorem State.logLine_mem (s : State) (cls : Nat) (a : Nat) :
    (State.logLine s cls a).mem = s.mem := by unfold State.logLine; simp
@[simp] theorem State.countRow_mem (s : State) (a : Nat) (ue : Bool) : (State.countRow s a ue).mem = s.mem := by
  unfold State.countRow
  dsimp only
  split <;> rfl
@[simp] theorem State.setLine_mem (s : State) (a : Nat) (v : Nat) :
    (State.setLine s a v).mem = s.mem := by unfold State.setLine; simp
@[simp] theorem State.poisonLine_mem (s : State) (a : Nat) :
    (State.poisonLine s a).mem = s.mem := by unfold State.poisonLine; simp
@[simp] theorem State.lineRead_mem (s : State) (a : Nat) :
    (State.lineRead s a).1.mem = s.mem := by unfold State.lineRead; dsimp only; (repeat' split) <;> simp
@[simp] theorem State.sramRead_mem (s : State) (a : Nat) (n : Nat) :
    (State.sramRead s a n).1.mem = s.mem := by unfold State.sramRead; simp; (repeat' (first | rfl | split | (rw [foldl_mem]) | (intro _) | (simp; done)))
@[simp] theorem State.readAt_mem (s : State) (a : Nat) (n : Nat) (y3 : Place) :
    (State.readAt s a n y3).1.mem = s.mem := by unfold State.readAt; (repeat' split) <;> simp
@[simp] theorem State.farRead_mem (s : State) (r : Requester) (a : Nat) (n : Nat) :
    (State.farRead s r a n).1.mem = s.mem := by
  unfold State.farRead
  dsimp only
  split
  · simp
  · simp
@[simp] theorem readStep_mem (r : Requester) (acc : State × Nat × List Byte) (c : Nat × Nat) :
    (readStep r acc c).1.mem = acc.1.mem := by
  unfold readStep
  split
  · exact State.farRead_mem ..
  · rfl
@[simp] theorem State.farReadRun_mem (s : State) (r : Requester) (a : Nat) (n : Nat) :
    (State.farReadRun s r a n).1.mem = s.mem := by
  unfold State.farReadRun
  exact foldl_fst_mem _ (fun t x => readStep_mem ..) _ _
@[simp] theorem State.restoreLease_mem (s : State) (core : Nat) (rec_ : List Byte) :
    (State.restoreLease s core rec_).mem = s.mem := by unfold State.restoreLease; simp
@[simp] theorem State.saveFailed_mem (s : State) (n : Nat) :
    (State.saveFailed s n).mem = s.mem := by unfold State.saveFailed; simp
@[simp] theorem State.setCtxState_mem (s : State) (n : Nat) (v : Nat) :
    (State.setCtxState s n v).mem = s.mem := by unfold State.setCtxState; simp
@[simp] theorem State.setCtxEn_mem (s : State) (n : Nat) (v : Bool) :
    (State.setCtxEn s n v).mem = s.mem := by unfold State.setCtxEn; exact foldl_mem _ (fun t x => by dsimp only; (repeat' split) <;> simp) _ _
@[simp] theorem State.unretainCluster_mem (s : State) (k : Nat) :
    (State.unretainCluster s k).mem = s.mem := by unfold State.unretainCluster; simp; (repeat' (first | rfl | split | (rw [foldl_mem]) | (intro _) | (simp; done)))
@[simp] theorem State.wakeDram_mem (s : State) :
    (State.wakeDram s).mem = s.mem := by unfold State.wakeDram; exact foldl_mem _ (fun t x => by dsimp only; (repeat' split) <;> simp) _ _
@[simp] theorem State.exitP3_mem (s : State) :
    (State.exitP3 s).mem = s.mem := by unfold State.exitP3; simp; (repeat' (first | rfl | split | (rw [foldl_mem]) | (intro _) | (simp; done)))
@[simp] theorem State.showFuses_mem (s : State) : (State.showFuses s).mem = s.mem := by
  unfold State.showFuses
  refine (foldl_mem _ (fun t x => by simp) _ _).trans ?_
  simp
@[simp] theorem State.showSlot_mem (s : State) (i : Nat) :
    (State.showSlot s i).mem = s.mem := by unfold State.showSlot; simp
@[simp] theorem State.bootParts_mem (s : State) (powerOn : Bool) :
    (State.bootParts s powerOn).mem = s.mem := by unfold State.bootParts; dsimp only; (repeat' split) <;> simp
@[simp] theorem State.putStaged_mem (s : State) (n : Nat) (x : Staged) :
    (State.putStaged s n x).mem = s.mem := by unfold State.putStaged; simp
@[simp] theorem State.lateSample_mem (s : State) (n : Nat) :
    (State.lateSample s n).mem = s.mem := by unfold State.lateSample; simp
@[simp] theorem State.stage_mem (s : State) (n : Nat) (x : Staged) :
    (State.stage s n x).mem = s.mem := by unfold State.stage; (repeat' split) <;> simp
@[simp] theorem State.beginTests_mem (s : State) :
    (State.beginTests s).mem = s.mem := by unfold State.beginTests; exact foldl_mem _ (fun t x => by dsimp only; (repeat' split) <;> simp) _ _
@[simp] theorem State.exitP4_mem (s : State) : (State.exitP4 s).mem = s.mem := by unfold State.exitP4; simp
@[simp] theorem State.ctxPreempt_mem (s : State) (n : Nat) :
    (State.ctxPreempt s n).1.mem = s.mem := by unfold State.ctxPreempt; (repeat' split) <;> simp
@[simp] theorem State.beginEntry_mem (s : State) (v : Nat) :
    (State.beginEntry s v).mem = s.mem := by unfold State.beginEntry; simp; (repeat' (first | rfl | split | (rw [foldl_mem]) | (intro _) | (simp; done)))
@[simp] theorem State.alignRow_mem (s : State) (n : Nat) (f : Nat) (sf : Nat) (ef : Nat) :
    (State.alignRow s n f sf ef).mem = s.mem := by unfold State.alignRow; simp; (repeat' (first | rfl | split | (rw [foldl_mem]) | (intro _) | (simp; done)))
@[simp] theorem State.refusePush_mem (s : State) (u : Nat) (q : Nat) (h : W32) (p : Pusher) :
    (State.refusePush s u q h p).mem = s.mem := by unfold State.refusePush; simp
@[simp] theorem State.push_mem (s : State) (u : Nat) (q : Nat) (h : W32) (p : Pusher) :
    (State.push s u q h p).mem = s.mem := by unfold State.push; simp
@[simp] theorem State.announce_mem (s : State) (n : Nat) (woff : Nat) :
    (State.announce s n woff).mem = s.mem := by unfold State.announce; simp
@[simp] theorem State.answer_mem (s : State) (st : Nat) (d : List Byte) :
    (State.answer s st d).mem = s.mem := by unfold State.answer; simp
@[simp] theorem State.setEngine_mem (s : State) (c : Nat) (e : Nat) (y : Engine) :
    (State.setEngine s c e y).mem = s.mem := by unfold State.setEngine; simp
@[simp] theorem State.refuseAppend_mem (s : State) (core : Nat) (e : Eng) (c : Cmd) (full : Bool) :
    (State.refuseAppend s core e c full).mem = s.mem := by unfold State.refuseAppend; simp
@[simp] theorem State.append_mem (s : State) (core : Nat) (e : Eng) (c : Cmd) :
    (State.append s core e c).mem = s.mem := by unfold State.append; simp
@[simp] theorem State.showWidth_mem (s : State) (core : Nat) :
    (State.showWidth s core).mem = s.mem := by unfold State.showWidth; simp
@[simp] theorem State.putMeCfg_mem (s : State) (c : Nat) (v : W32) :
    (State.putMeCfg s c v).mem = s.mem := by unfold State.putMeCfg; simp
@[simp] theorem State.applyRepair_mem (s : State) (r : Repair) :
    (State.applyRepair s r).mem = s.mem := by unfold State.applyRepair; simp
@[simp] theorem State.setRepairs_mem (s : State) (l : List Repair) :
    (State.setRepairs s l).mem = s.mem := by unfold State.setRepairs; simp
@[simp] theorem State.refreshReady_mem (s : State) : (State.refreshReady s).mem = s.mem := by
  unfold State.refreshReady
  exact foldl_mem _ (fun t x => by simp) _ _
@[simp] theorem State.dropQueues_mem (s : State) (m : Mapped) : (State.dropQueues s m).mem = s.mem := by
  unfold State.dropQueues
  exact foldl_mem _ (fun t x => by simp) _ _
@[simp] theorem State.refuseStart_mem (s : State) (n : Nat) (reason : Nat) (core : Nat) :
    (State.refuseStart s n reason core).mem = s.mem := by unfold State.refuseStart; simp
@[simp] theorem State.zeroScales_mem (s : State) (n : Nat) :
    (State.zeroScales s n).mem = s.mem := by unfold State.zeroScales; exact foldl_mem _ (fun t x => by dsimp only; (repeat' split) <;> simp) _ _
@[simp] theorem State.noVariant_mem (s : State) (n : Nat) : (State.noVariant s n).mem = s.mem := by unfold State.noVariant; simp
@[simp] theorem State.refuseVariant_mem (s : State) (n : Nat) (key : Nat) :
    (State.refuseVariant s n key).mem = s.mem := by unfold State.refuseVariant; (repeat' split) <;> simp
@[simp] theorem State.installTables_mem (s : State) (p : MapProg) :
    (State.installTables s p).mem = s.mem := by unfold State.installTables; simp
@[simp] theorem State.refuseConfig_mem (s : State) (utype : Nat) (unit : Nat) (detail : Nat) :
    (State.refuseConfig s utype unit detail).mem = s.mem := by unfold State.refuseConfig; simp
@[simp] theorem State.windowShut_mem (s : State) (n : Nat) :
    (State.windowShut s n).mem = s.mem := by unfold State.windowShut; simp
@[simp] theorem State.windowClose_mem (s : State) (n : Nat) :
    (State.windowClose s n).mem = s.mem := by unfold State.windowClose; simp
@[simp] theorem State.ownerMapWrite_mem (s : State) (m : Nat) (n : Nat) (v : W32) :
    (State.ownerMapWrite s m n v).mem = s.mem := by unfold State.ownerMapWrite; simp; (repeat' (first | rfl | split | (rw [foldl_mem]) | (intro _) | (simp; done)))
@[simp] theorem State.endPublished_mem (s : State) (n : Nat) : (State.endPublished s n).mem = s.mem := by
  unfold State.endPublished
  exact foldl_mem _ (fun t x => by dsimp only; (repeat' split) <;> simp) _ _
@[simp] theorem State.pushAll_mem (s : State) (u : Nat) (q : Nat) (l : List W32) (p : Pusher) :
    (State.pushAll s u q l p).mem = s.mem := by
  unfold State.pushAll
  exact foldl_mem _ (fun t x => by simp) _ _
@[simp] theorem State.seedRing_mem (s : State) (core : Nat) (c : Cmd) :
    (State.seedRing s core c).mem = s.mem := by unfold State.seedRing; simp
@[simp] theorem State.recreateRings_mem (s : State) (m : Mapped) :
    (State.recreateRings s m).mem = s.mem := by unfold State.recreateRings; simp; (repeat' (first | rfl | split | (rw [foldl_mem]) | (intro _) | (simp; done)))
@[simp] theorem State.withdraw_mem (s : State) (tag : Nat) : (State.withdraw s tag).mem = s.mem := by unfold State.withdraw; exact foldl_mem _ (fun t x => foldl_mem _ (fun t x => by dsimp only; simp) _ _) _ _
@[simp] theorem State.drainWindows_mem (s : State) : (State.drainWindows s).mem = s.mem := by unfold State.drainWindows; exact foldl_mem _ (fun t x => by split <;> simp) _ _
@[simp] theorem State.stopFlights_mem (s : State) (p : Nat → Nat → Flight → Bool) :
    (State.stopFlights s p).mem = s.mem := by
  unfold State.stopFlights
  extract_lets s1 gone s2
  have h : s1.mem = s.mem := foldl_mem _ (fun t x => State.setCore_mem ..) _ _
  have h2 : s2.mem = s1.mem := foldl_mem _ (fun t x => State.withdraw_mem ..) _ _
  clear_value s1 s2
  exact (State.drainWindows_mem _).trans (h2.trans h)
@[simp] theorem State.emptyCore_mem (s : State) (c : Nat) :
    (State.emptyCore s c).mem = s.mem := by unfold State.emptyCore; simp
@[simp] theorem State.flushQueue_mem (s : State) (u : Nat) (q : Nat) :
    (State.flushQueue s u q).mem = s.mem := by unfold State.flushQueue; simp
@[simp] theorem State.pushFree_mem (s : State) (g : Nat) (gen : Nat) :
    (State.pushFree s g gen).mem = s.mem := by unfold State.pushFree; simp
@[simp] theorem State.pushIngress_mem (s : State) (g : Nat) :
    (State.pushIngress s g).mem = s.mem := by unfold State.pushIngress; simp
@[simp] theorem State.returnGroup_mem (s : State) (g : Nat) : (State.returnGroup s g).mem = s.mem := by
  unfold State.returnGroup
  dsimp only
  rw [State.withLoop_mem, State.pushFree_mem, State.pushIngress_mem, State.setO_mem]
  exact foldl_mem _ (fun t x => by simp) _ _
@[simp] theorem State.setSticky_mem (s : State) (b : Nat) :
    (State.setSticky s b).mem = s.mem := by unfold State.setSticky; simp
@[simp] theorem State.arm_mem (s : State) (m : Nat) (v : Nat) :
    (State.arm s m v).mem = s.mem := by unfold State.arm; simp
@[simp] theorem State.arrive_mem (s : State) (srcDev : Nat) (srcUnit : Nat) (srcQ : Nat) (unit : Nat) (q : Nat) (h : W32) :
    (State.arrive s srcDev srcUnit srcQ unit q h).mem = s.mem := by unfold State.arrive; simp
@[simp] theorem State.beginFrame_mem (s : State) (f : Nat) (t : Nat) (early : Option Int) (first : Bool) :
    (State.beginFrame s f t early first).mem = s.mem := by unfold State.beginFrame; simp
@[simp] theorem State.beginPin_mem (s : State) (k : Nat) :
    (State.beginPin s k).mem = s.mem := by unfold State.beginPin; simp
@[simp] theorem State.beginRebuild_mem (s : State) :
    (State.beginRebuild s).mem = s.mem := by unfold State.beginRebuild; simp; (repeat' (first | rfl | split | (rw [foldl_mem]) | (intro _) | (simp; done)))
@[simp] theorem State.requestCycle_mem (s : State) (cause : Nat) :
    (State.requestCycle s cause).mem = s.mem := by unfold State.requestCycle; simp
@[simp] theorem State.setCtxRst_mem (s : State) (n : Nat) (v : Bool) :
    (State.setCtxRst s n v).mem = s.mem := by unfold State.setCtxRst; exact foldl_mem _ (fun t x => by dsimp only; (repeat' split) <;> simp) _ _
@[simp] theorem State.beginStep_mem (s : State) (r : ResetReq) : (State.beginStep s r).mem = s.mem := by
  unfold State.beginStep
  dsimp only
  split
  · rw [State.requestCycle_mem, State.withLoop_mem, State.trace_mem]; split <;> simp [State.fresh]
  · rw [State.settle_mem]
    dsimp only
    split <;> split <;> (try dsimp only) <;> (try rw [State.setO_mem]) <;>
    · rw [foldl_mem _ (fun t x => by simp), foldl_mem _ (fun t x => by simp), foldl_mem _ (fun t x => by split <;> simp),
        foldl_mem _ (fun t x => by split <;> simp), State.withLoop_mem, State.trace_mem]
      split <;> simp [State.fresh]
@[simp] theorem State.blowRow_mem (s : State) (i : Nat) (st : Nat) (fails : Bool) :
    (State.blowRow s i st fails).mem = s.mem := by unfold State.blowRow; simp
@[simp] theorem State.freeRetry_mem (s : State) : (State.freeRetry s).1.mem = s.mem := by unfold State.freeRetry; simp
@[simp] theorem State.busyCheck_mem (s : State) (m : Nat) (op : Nat) (x : DictMsg) :
    (State.busyCheck s m op x).1.mem = s.mem := by unfold State.busyCheck; dsimp only; (repeat' split) <;> simp
@[simp] theorem State.chargeCycle_mem (s : State) :
    (State.chargeCycle s).mem = s.mem := by unfold State.chargeCycle; simp
@[simp] theorem State.clearClusterQueues_mem (s : State) (k : Nat) :
    (State.clearClusterQueues s k).mem = s.mem := by unfold State.clearClusterQueues; simp; (repeat' (first | rfl | split | (rw [foldl_mem]) | (intro _) | (simp; done)))
@[simp] theorem State.closeWindowsOf_mem (s : State) (k : Nat) :
    (State.closeWindowsOf s k).mem = s.mem := by unfold State.closeWindowsOf; simp; (repeat' (first | rfl | split | (rw [foldl_mem]) | (intro _) | (simp; done)))
@[simp] theorem State.clearEngine_mem (s : State) (c : Nat) (e : Nat) :
    (State.clearEngine s c e).mem = s.mem := by unfold State.clearEngine; (repeat' split) <;> simp
@[simp] theorem State.clearLog_mem (s : State) : (State.clearLog s).mem = s.mem := by unfold State.clearLog; simp
@[simp] theorem State.closeBuffers_mem (s : State) :
    (State.closeBuffers s).mem = s.mem := by unfold State.closeBuffers; simp; (repeat' (first | rfl | split | (rw [foldl_mem]) | (intro _) | (simp; done)))
@[simp] theorem State.setGroupFrame_mem (s : State) (g : Nat) (x : GroupFrame) :
    (State.setGroupFrame s g x).mem = s.mem := by unfold State.setGroupFrame; simp
@[simp] theorem State.sendCredit_mem (s : State) (t : Transit) :
    (State.sendCredit s t).mem = s.mem := by unfold State.sendCredit; simp
@[simp] theorem State.pop_mem (s : State) (u : Nat) (q : Nat) (n k : Nat) :
    (State.pop s u q n k).2.mem = s.mem := by unfold State.pop; simp; (repeat' (first | rfl | split | (rw [foldl_mem]) | (intro _) | (simp; done)))
@[simp] theorem State.closeSpan_mem (s : State) (egress : Nat) :
    (State.closeSpan s egress).mem = s.mem := by unfold State.closeSpan; simp
@[simp] theorem State.rollBatch_mem (s : State) (n : Nat) :
    (State.rollBatch s n).mem = s.mem := by unfold State.rollBatch; simp
@[simp] theorem State.closeWrite_mem (s : State) (n : Nat) :
    (State.closeWrite s n).1.mem = s.mem := by unfold State.closeWrite; simp
@[simp] theorem State.coldGroups_mem (s : State) (ctxs : List Nat) (bitNo : Nat) :
    (State.coldGroups s ctxs bitNo).1.mem = s.mem := by unfold State.coldGroups; simp; (repeat' (first | rfl | split | (rw [foldl_mem]) | (intro _) | (simp; done)))
@[simp] theorem State.loadPublication_mem (s : State) (pub : Mapped) (cores : List Nat) :
    (State.loadPublication s pub cores).mem = s.mem := by
  unfold State.loadPublication
  exact foldl_mem _ (fun t x => by simp) _ _
@[simp] theorem State.compose_mem (s : State) (n : Nat) :
    (State.compose s n).mem = s.mem := by unfold State.compose; (repeat' split) <;> simp
@[simp] theorem State.composeIfReady_mem (s : State) (n : Nat) :
    (State.composeIfReady s n).mem = s.mem := by unfold State.composeIfReady; simp
@[simp] theorem State.configQueue_mem (s : State) (u : Nat) (q : Nat) (w : Nat) (v : W32) :
    (State.configQueue s u q w v).mem = s.mem := by unfold State.configQueue; simp
@[simp] theorem State.meetHandoff_mem (s : State) : (State.meetHandoff s).mem = s.mem := by
  unfold State.meetHandoff
  split <;> rfl
@[simp] theorem State.pushOutputs_mem (s : State) (core : Nat) (c : Cmd) (ins : List W32) (frees : List W32) (skip : Bool) (invalid : Bool) (executed : Bool) :
    (State.pushOutputs s core c ins frees skip invalid executed).mem = s.mem := by unfold State.pushOutputs; simp
@[simp] theorem State.retireFlight_mem (s : State) (core : Nat) (e : Nat) (f : Flight) (rest : List Flight) :
    (State.retireFlight s core e f rest).mem = s.mem := by unfold State.retireFlight; simp
@[simp] theorem State.retire_mem (s : State) (core : Nat) (e : Nat) :
    (State.retire s core e).mem = s.mem := by unfold State.retire; (repeat' split) <;> simp
@[simp] theorem State.confirmDefect_mem (s : State) (c : Nat) (col : Nat) :
    (State.confirmDefect s c col).mem = s.mem := by unfold State.confirmDefect; simp
@[simp] theorem State.discard_mem (s : State) (core : Nat) (e : Nat) :
    (State.discard s core e).mem = s.mem := by unfold State.discard; simp
@[simp] theorem State.dequeue_mem (s : State) (core : Nat) (e : Nat) (c : Cmd) (rt : Bool) :
    (State.dequeue s core e c rt).mem = s.mem := by unfold State.dequeue; simp
@[simp] theorem State.noteStart_mem (s : State) (core : Nat) (e : Nat) (rt : Bool) (c : Cmd) (later : List Cmd) :
    (State.noteStart s core e rt c later).mem = s.mem := by unfold State.noteStart; (repeat' split) <;> simp
@[simp] theorem State.logCmd_mem (s : State) (cls : Nat) (core : Nat) (c : Cmd) (pos : Nat) (status : Nat) :
    (State.logCmd s cls core c pos status).mem = s.mem := by unfold State.logCmd; simp
@[simp] theorem State.countWindow_mem (s : State) (c : Cmd) (status : Nat) : (State.countWindow s c status).mem = s.mem := by unfold State.countWindow; simp
@[simp] theorem State.pass_mem (s : State) (core : Nat) (q : QEntry) (ins : List W32) (frees : List W32) (skip : Bool) (invalid : Bool) (status : Nat) :
    (State.pass s core q ins frees skip invalid status).mem = s.mem := by unfold State.pass; simp
@[simp] theorem State.meIssue_mem (s : State) (core : Nat) (b : Bound) (now : Nat) (ramp : Nat) (feedEnd : Nat) (dur : Nat) :
    (State.meIssue s core b now ramp feedEnd dur).1.mem = s.mem := by unfold State.meIssue; (repeat' split) <;> simp
@[simp] theorem State.swapAtIssue_mem (s : State) (core : Nat) (c : Cmd) : (State.swapAtIssue s core c).mem = s.mem := by unfold State.swapAtIssue; simp
@[simp] theorem State.launch_mem (s : State) (core : Nat) (q : QEntry) (rt rst : Bool) (b : Bound) (ins : List W32) (frees : List W32) :
    (State.launch s core q rt rst b ins frees).mem = s.mem := by unfold State.launch; dsimp only; (repeat' split) <;> simp
@[simp] theorem State.issueTake_mem (s : State) (core : Nat) (q : QEntry) (rt : Bool) :
    (State.issueTake s core q rt).2.2.mem = s.mem := by unfold State.issueTake; dsimp only; (repeat' split) <;> simp
@[simp] theorem State.chainBroken_mem (s : State) (core : Nat) (c : Cmd) (rt : Bool) (status : Nat) :
    (State.chainBroken s core c rt status).mem = s.mem := by unfold State.chainBroken; split <;> rfl
@[simp] theorem State.issueCmd_mem (s : State) (core : Nat) (q : QEntry) (rt : Bool) :
    (State.issueCmd s core q rt).mem = s.mem := by unfold State.issueCmd; dsimp only; (repeat' split) <;> simp
@[simp] theorem State.consider_mem (s : State) (core : Nat) (e : Nat) (rt : Bool) :
    (State.consider s core e rt).mem = s.mem := by unfold State.consider; dsimp only; (repeat' split) <;> simp
@[simp] theorem State.seedContext_mem (s : State) (n : Nat) :
    (State.seedContext s n).mem = s.mem := by unfold State.seedContext; exact foldl_mem _ (fun t x => by dsimp only; (repeat' split) <;> simp) _ _
@[simp] theorem State.setClass_mem (s : State) (n : Nat) (rt : Bool) :
    (State.setClass s n rt).mem = s.mem := by unfold State.setClass; exact foldl_mem _ (fun t x => by dsimp only; (repeat' split) <;> simp) _ _
@[simp] theorem State.enterTable_mem (s : State) (n : Nat) (lease : Bool) :
    (State.enterTable s n lease).mem = s.mem := by unfold State.enterTable; simp
@[simp] theorem State.recompose_mem (s : State) : (State.recompose s).mem = s.mem := by unfold State.recompose; simp
@[simp] theorem State.ctxStopped_mem (s : State) (n : Nat) : (State.ctxStopped s n).mem = s.mem := by
  unfold State.ctxStopped
  dsimp only
  split
  · rw [State.recompose_mem, State.setCtxState_mem, State.setO_mem, State.setO_mem]
    cases s.mapOf n <;> simp
  · rw [State.setCtxState_mem, State.setO_mem, State.setO_mem]
    cases s.mapOf n <;> simp
@[simp] theorem State.finishStops_mem (s : State) : (State.finishStops s).mem = s.mem := by
  unfold State.finishStops
  exact foldl_mem _ (fun t x => by simp) _ _
@[simp] theorem State.ctxStop_mem (s0 : State) (n : Nat) :
    (State.ctxStop s0 n).1.mem = s0.mem := by unfold State.ctxStop; dsimp only; (repeat' split) <;> simp
@[simp] theorem State.coreFails_mem (s : State) (isNew : Bool) :
    (State.coreFails s isNew).mem = s.mem := by unfold State.coreFails; simp
@[simp] theorem State.countResults_mem (s : State) :
    (State.countResults s).mem = s.mem := by unfold State.countResults; exact foldl_mem _ (fun t x => by dsimp only; (repeat' split) <;> simp) _ _
@[simp] theorem State.countWarm_mem (s : State) : (State.countWarm s).mem = s.mem := by unfold State.countWarm; simp
@[simp] theorem State.counterSelect_mem (s : State) (d : List Byte) : (State.counterSelect s d).1.mem = s.mem := by
  unfold State.counterSelect
  split
  · exact foldl_mem _ (fun t x => by dsimp only; split <;> rfl) _ _
  · rfl
@[simp] theorem State.logLink_mem (s : State) (lane : Nat) :
    (State.logLink s lane).mem = s.mem := by unfold State.logLink; simp
@[simp] theorem State.frameEvent_mem (s : State) (lane : Nat) (kind : Nat) (seq : Nat) :
    (State.frameEvent s lane kind seq).mem = s.mem := by unfold State.frameEvent; simp
@[simp] theorem State.crcError_mem (s : State) (lane : Nat) (seq : Nat) :
    (State.crcError s lane seq).mem = s.mem := by unfold State.crcError; simp
@[simp] theorem State.credit_mem (s : State) (u : Nat) (q : Nat) :
    (State.credit s u q).mem = s.mem := by unfold State.credit; simp
@[simp] theorem State.creditArrival_mem (s : State) (u : Nat) (q : Nat) :
    (State.creditArrival s u q).mem = s.mem := by unfold State.creditArrival; (repeat' split) <;> simp
@[simp] theorem State.rewind_mem (s : State) (n : Nat) : (State.rewind s n).mem = s.mem := by unfold State.rewind; exact foldl_mem _ (fun t x => State.setCore_mem ..) _ _
@[simp] theorem State.ctxRestarted_mem (s : State) (n : Nat) :
    (State.ctxRestarted s n).mem = s.mem := by unfold State.ctxRestarted; simp
@[simp] theorem State.cycleAck_mem (s : State) (v : Nat) :
    (State.cycleAck s v).1.mem = s.mem := by unfold State.cycleAck; (repeat' split) <;> simp
@[simp] theorem State.derivePages_mem (s : State) : (State.derivePages s).mem = s.mem := by unfold State.derivePages; simp
@[simp] theorem State.discardFrame_mem (s : State) (lane : Nat) :
    (State.discardFrame s lane).mem = s.mem := by unfold State.discardFrame; simp
@[simp] theorem State.showTrim_mem (s : State) : (State.showTrim s).mem = s.mem := by unfold State.showTrim; simp
@[simp] theorem State.discipline_mem (s : State) : (State.discipline s).mem = s.mem := by
  unfold State.discipline
  dsimp only
  split
  · simp
  · split <;> simp
@[simp] theorem State.dropRestarting_mem (s : State) :
    (State.dropRestarting s).mem = s.mem := by unfold State.dropRestarting; exact foldl_mem _ (fun t x => by dsimp only; (repeat' split) <;> simp) _ _
@[simp] theorem State.putSent_mem (s : State) (lane : Nat) (typ : Nat) (d : List Byte) :
    (State.putSent s lane typ d).mem = s.mem := by unfold State.putSent; simp
@[simp] theorem State.release_mem (s : State) (lane : Nat) (typ : Nat) (d : List Byte) :
    (State.release s lane typ d).mem = s.mem := by unfold State.release; (repeat' split) <;> simp
@[simp] theorem State.transmit_mem (s : State) (lane : Nat) (typ : Nat) (d : List Byte) :
    (State.transmit s lane typ d).mem = s.mem := by unfold State.transmit; (repeat' split) <;> simp
@[simp] theorem State.echoReply_mem (s : State) (lane : Nat) :
    (State.echoReply s lane).mem = s.mem := by unfold State.echoReply; simp
@[simp] theorem State.endStep_mem (s : State) (x : ResetStep) :
    (State.endStep s x).mem = s.mem := by unfold State.endStep; simp
@[simp] theorem State.endPartitions_mem (s : State) : (State.endPartitions s).mem = s.mem := by
  unfold State.endPartitions
  refine foldl_mem _ (fun t x => ?_) _ _
  dsimp only
  split
  · rfl
  · split
    · exact (foldl_mem _ (fun t x => State.setCore_mem ..) _ _).trans (foldl_mem _ (fun t x => State.setCluster_mem ..) _ _)
    · rw [State.endStep_mem, State.setO_mem]
      exact (foldl_mem _ (fun t x => State.setCore_mem ..) _ _).trans (foldl_mem _ (fun t x => State.setCluster_mem ..) _ _)
@[simp] theorem State.endSession_mem (s : State) (m : Nat) :
    (State.endSession s m).mem = s.mem := by unfold State.endSession; simp
@[simp] theorem State.mapWriter_mem (s : State) (x : PWrite) (f : Flight → Flight) :
    (State.mapWriter s x f).mem = s.mem := by unfold State.mapWriter; simp
@[simp] theorem State.putWrite_mem (s : State) (x : PWrite) :
    (State.putWrite s x).mem = s.mem := by unfold State.putWrite; simp
@[simp] theorem State.endWrite_mem (s : State) (x : PWrite) (st : Nat) :
    (State.endWrite s x st).mem = s.mem := by unfold State.endWrite; simp
@[simp] theorem State.enterWaitSync_mem (s : State) (resume : Option (Nat × Nat)) :
    (State.enterWaitSync s resume).mem = s.mem := by
  unfold State.enterWaitSync
  rw [State.settle_mem, State.withLoop_mem, State.setO_mem]
  exact (foldl_mem _ (fun _ _ => State.setO_mem ..) _ _).trans (foldl_mem _ (fun _ _ => State.setO_mem ..) _ _)
@[simp] theorem State.reuse_mem (s : State) (m : Nat) (tid : Nat) :
    (State.reuse s m tid).mem = s.mem := by unfold State.reuse; simp
@[simp] theorem State.imageSegment_mem (s : State) (k : Nat) (first : Bool) (last : Bool) (d : List Byte) :
    (State.imageSegment s k first last d).mem = s.mem := by unfold State.imageSegment; simp
@[simp] theorem State.putImage_mem (s : State) (i : Nat) (img : List Byte) :
    (State.putImage s i img).mem = s.mem := by unfold State.putImage; simp
@[simp] theorem State.fwSegment_mem (s : State) (i : Nat) (first : Bool) (img : Option (List Byte)) :
    (State.fwSegment s i first img).mem = s.mem := by unfold State.fwSegment; (repeat' split) <;> simp
@[simp] theorem State.setTransfer_mem (s : State) (m : Nat) (tid : Nat) (x : Option Transfer) :
    (State.setTransfer s m tid x).mem = s.mem := by unfold State.setTransfer; simp
@[simp] theorem State.submit_mem (s : State) (n : Nat) (r : List Byte) :
    (State.submit s n r).1.mem = s.mem := by unfold State.submit; dsimp only; (repeat' split) <;> simp
@[simp] theorem State.vocabWrite_mem (s : State) (d : List Byte) (fits : Bool) :
    (State.vocabWrite s d fits).1.mem = s.mem := by unfold State.vocabWrite; (repeat' split) <;> simp
@[simp] theorem State.hubSee_mem (s : State) (own off n : Nat) : (State.hubSee s own off n).mem = s.mem := by unfold State.hubSee; (repeat' split) <;> simp
@[simp] theorem State.readTokRelease_mem (s : State) : (State.readTokRelease s).mem = s.mem := by unfold State.readTokRelease; simp
@[simp] theorem State.textWrite_mem (s : State) (d : List Byte) :
    (State.textWrite s d).1.mem = s.mem := by unfold State.textWrite; (repeat' split) <;> simp
@[simp] theorem State.restage_mem (s : State) : (State.restage s).mem = s.mem := by
  unfold State.restage
  refine (foldl_mem _ (fun t x => by split <;> simp) _ _).trans ?_
  simp
@[simp] theorem State.lock_mem (s : State) (f : Nat) :
    (State.lock s f).mem = s.mem := by unfold State.lock; simp; (repeat' (first | rfl | split | (rw [foldl_mem]) | (intro _) | (simp; done)))
@[simp] theorem State.sessionOpen_mem (s : State) (m : Nat) (d : List Byte) :
    (State.sessionOpen s m d).1.mem = s.mem := by unfold State.sessionOpen; dsimp only; (repeat' split) <;> simp
@[simp] theorem State.provision_mem (s : State) (w : Nat) (r : List Byte) (bad : Bool) :
    (State.provision s w r bad).1.mem = s.mem := by unfold State.provision; dsimp only; (repeat' split) <;> simp
@[simp] theorem State.leaveRefused_mem (s : State) (n : Nat) : (State.leaveRefused s n).mem = s.mem := by unfold State.leaveRefused; simp
@[simp] theorem State.writeDomain_mem (s : State) (m : Nat) (k : Nat) (d : List Byte) (e : Env) :
    (State.writeDomain s m k d e).1.mem = s.mem := by unfold State.writeDomain; dsimp only; (repeat' split) <;> simp
@[simp] theorem State.readObj_mem (s : State) (m : Nat) (k : Nat) :
    (State.readObj s m k).1.mem = s.mem := by unfold State.readObj; dsimp only; (repeat' split) <;> simp [State.fresh]
@[simp] theorem State.readSegment_mem (s : State) (m : Nat) (x : DictMsg) :
    (State.readSegment s m x).1.mem = s.mem := by unfold State.readSegment; dsimp only; (repeat' split) <;> simp
@[simp] theorem State.publishFrom_mem (s : State) (t : Nat) (v : Nat) :
    (State.publishFrom s t v).1.mem = s.mem := by unfold State.publishFrom; (repeat' split) <;> simp
@[simp] theorem State.storeObj_mem (s : State) (k : Nat) (v : Nat) :
    (State.storeObj s k v).mem = s.mem := by unfold State.storeObj; simp; (repeat' (first | rfl | split | (rw [foldl_mem]) | (intro _) | (simp; done)))
@[simp] theorem State.pinWrite_mem (s : State) (k : Nat) (v : Nat) :
    (State.pinWrite s k v).1.mem = s.mem := by unfold State.pinWrite; (repeat' split) <;> simp
@[simp] theorem State.unload_mem (s : State) (k : Nat) :
    (State.unload s k).1.mem = s.mem := by unfold State.unload; (repeat' split) <;> simp
@[simp] theorem State.publish_mem (s : State) (n : Nat) (v : Nat) :
    (State.publish s n v).1.mem = s.mem := by unfold State.publish; dsimp only; (repeat' split) <;> simp
@[simp] theorem State.putQueue_mem (s : State) (u : Nat) (q : Nat) (w0 : Nat) (w1 : Nat) :
    (State.putQueue s u q w0 w1).mem = s.mem := by unfold State.putQueue; simp
@[simp] theorem State.hubForward_mem (s : State) (q : Nat) (t : Option (Nat × Nat)) :
    (State.hubForward s q t).mem = s.mem := by unfold State.hubForward; (repeat' split) <;> simp
@[simp] theorem State.hubLocal_mem (s : State) (q : Nat) (t : Option (Nat × Nat)) :
    (State.hubLocal s q t).mem = s.mem := by unfold State.hubLocal; (repeat' split) <;> simp
@[simp] theorem State.groupQueuesSet_mem (s : State) (g : Nat) :
    (State.groupQueuesSet s g).mem = s.mem := by unfold State.groupQueuesSet; simp
theorem openBuffers_mem (s t : State) (h : s.openBuffers = some t) : t.mem = s.mem := by
  unfold State.openBuffers at h
  extract_lets runs at h
  revert h
  split
  · intro h; rw [← Option.some.inj h]
  · rename_i s0 free used u _
    have h0 : s0.mem = s.mem := State.closeBuffers_mem s
    have hu : u.mem = s.mem := (foldl_mem _ (fun t x => by simp) _ s0).trans h0
    clear_value s0 free u
    split
    · intro h; cases h
    · intro h; rw [← Option.some.inj h]; exact hu
@[simp] theorem State.loopStart_mem (s : State) (resume : Option (Nat × Nat)) :
    (State.loopStart s resume).1.mem = s.mem := by
  unfold State.loopStart
  split
  · rfl
  · split
    · rfl
    · next h =>
      dsimp only
      split
      · rfl
      · split
        · rw [State.enterWaitSync_mem, State.loadPlan_mem, State.admitted_mem, State.setO_mem, foldl_mem _ (fun t x => by simp), openBuffers_mem s _ h]
        · simp
@[simp] theorem State.stopLoop_mem (s : State) :
    (State.stopLoop s).mem = s.mem := by unfold State.stopLoop; simp; (repeat' (first | rfl | split | (rw [foldl_mem]) | (intro _) | (simp; done)))
@[simp] theorem State.loopEnable_mem (s : State) (v : Nat) :
    (State.loopEnable s v).1.mem = s.mem := by unfold State.loopEnable; dsimp only; (repeat' split) <;> simp
@[simp] theorem State.flushWrite_mem (s : State) (v : Nat) : (State.flushWrite s v).1.mem = s.mem := by
  unfold State.flushWrite
  split
  · rfl
  · split <;> rfl
@[simp] theorem State.regionOpen_mem (s : State) (e : Nat) (own : Nat) : (State.regionOpen s e own).1.mem = s.mem := by
  unfold State.regionOpen
  extract_lets c w0 w1 mine new
  clear_value mine new w0 w1
  split
  · rfl
  · split
    · rfl
    · rw [State.rgnChange_mem, State.setO_mem]
@[simp] theorem State.regionClose_mem (s : State) (e : Nat) :
    (State.regionClose s e).mem = s.mem := by unfold State.regionClose; simp
@[simp] theorem State.windowOpen_mem (s : State) (n : Nat) (w0 : W32) (w1 : W32) :
    (State.windowOpen s n w0 w1).mem = s.mem := by unfold State.windowOpen; simp
@[simp] theorem State.windowRequest_mem (s : State) (n : Nat) :
    (State.windowRequest s n).1.mem = s.mem := by unfold State.windowRequest; dsimp only; (repeat' split) <;> simp
@[simp] theorem State.setDevNum_mem (s : State) (v : Nat) :
    (State.setDevNum s v).mem = s.mem := by unfold State.setDevNum; simp; (repeat' (first | rfl | split | (rw [foldl_mem]) | (intro _) | (simp; done)))
@[simp] theorem State.lightLane_mem (s : State) (i : Nat) :
    (State.lightLane s i).mem = s.mem := by unfold State.lightLane; simp
@[simp] theorem State.laneEnable_mem (s : State) (i : Nat) (v : Nat) :
    (State.laneEnable s i v).mem = s.mem := by unfold State.laneEnable; simp
@[simp] theorem State.retrain_mem (s : State) (i : Nat) :
    (State.retrain s i).mem = s.mem := by unfold State.retrain; simp
@[simp] theorem State.switchWrite_mem (s : State) (v : Nat) :
    (State.switchWrite s v).1.mem = s.mem := by unfold State.switchWrite; (repeat' split) <;> simp
@[simp] theorem State.hostMajor_mem (s : State) (m : Nat) (v : Nat) :
    (State.hostMajor s m v).mem = s.mem := by unfold State.hostMajor; simp
@[simp] theorem State.setHolder_mem (s : State) (h : Nat) :
    (State.setHolder s h).mem = s.mem := by unfold State.setHolder; simp
@[simp] theorem State.tokenRequest_mem (s : State) (m : Nat) (v : Nat) :
    (State.tokenRequest s m v).1.mem = s.mem := by unfold State.tokenRequest; (repeat' split) <;> simp
@[simp] theorem State.seize_mem (s : State) (v : Nat) :
    (State.seize s v).1.mem = s.mem := by unfold State.seize; (repeat' split) <;> simp
@[simp] theorem State.restoreDefaults_mem (s : State) (v : Nat) : (State.restoreDefaults s v).1.mem = s.mem := by
  unfold State.restoreDefaults
  split
  · rfl
  · split <;> rfl
@[simp] theorem State.resetRequest_mem (s : State) (v : Nat) :
    (State.resetRequest s v).1.mem = s.mem := by unfold State.resetRequest; dsimp only; (repeat' split) <;> simp
@[simp] theorem State.traceEnable_mem (s : State) (v : Nat) :
    (State.traceEnable s v).mem = s.mem := by unfold State.traceEnable; simp
@[simp] theorem State.fwErase_mem (s : State) (i : Nat) (v : Nat) :
    (State.fwErase s i v).1.mem = s.mem := by unfold State.fwErase; (repeat' split) <;> simp
@[simp] theorem State.lifeRequest_mem (s : State) (v : Nat) (bad : Nat) :
    (State.lifeRequest s v bad).1.mem = s.mem := by unfold State.lifeRequest; dsimp only; (repeat' split) <;> simp
@[simp] theorem State.setFill_mem (s : State) (p : Nat) :
    (State.setFill s p).mem = s.mem := by unfold State.setFill; simp; (repeat' (first | rfl | split | (rw [foldl_mem]) | (intro _) | (simp; done)))
@[simp] theorem State.wakeFor_mem (s : State) (k : Nat) : (State.wakeFor s k).mem = s.mem := by unfold State.wakeFor; simp
@[simp] theorem State.fillAll_mem (s : State) : (State.fillAll s).mem = s.mem := by unfold State.fillAll; exact foldl_mem _ (fun t x => State.setFill_mem ..) _ _
@[simp] theorem State.setClusters_mem (s : State) (p : Nat) (v : Nat) :
    (State.setClusters s p v).mem = s.mem := by
  unfold State.setClusters
  extract_lets gone s1 s2 s3
  have h1 : s1.mem = s.mem := by unfold s1; simp
  have h2 : s2.mem = s.mem := (foldl_mem _ (fun t x => by dsimp only; simp) _ _).trans h1
  have h3 : s3.mem = s.mem := by
    unfold s3
    split
    · exact (foldl_mem _ (fun t x => State.setCore_mem ..) _ _).trans h2
    · exact h2
  clear_value s1 s2 s3
  rw [State.settle_mem]
  exact (foldl_mem _ (fun t x => by split <;> simp) _ _).trans ((State.fillAll_mem _).trans h3)
@[simp] theorem State.setFreq_mem (s : State) (p : Nat) (v : Nat) :
    (State.setFreq s p v).mem = s.mem := by unfold State.setFreq; simp; (repeat' (first | rfl | split | (rw [foldl_mem]) | (intro _) | (simp; done)))
@[simp] theorem State.failLane_mem (s : State) (i : Nat) :
    (State.failLane s i).mem = s.mem := by unfold State.failLane; simp
@[simp] theorem State.sendFences_mem (s : State) (p : Nat) :
    (State.sendFences s p).mem = s.mem := by unfold State.sendFences; simp; (repeat' (first | rfl | split | (rw [foldl_mem]) | (intro _) | (simp; done)))
@[simp] theorem State.fenceRequest_mem (s : State) :
    (State.fenceRequest s).mem = s.mem := by unfold State.fenceRequest; (repeat' split) <;> simp
@[simp] theorem State.raiseGen_mem (s : State) (u : Nat) (q : Nat) :
    (State.raiseGen s u q).mem = s.mem := by unfold State.raiseGen; simp
@[simp] theorem State.flushContext_mem (s : State) (n : Nat) :
    (State.flushContext s n).mem = s.mem := by unfold State.flushContext; simp; (repeat' (first | rfl | split | (rw [foldl_mem]) | (intro _) | (simp; done)))
@[simp] theorem State.forwardArrival_mem (s : State) (u : Nat) (q : Nat) :
    (State.forwardArrival s u q).mem = s.mem := by unfold State.forwardArrival; (repeat' split) <;> simp
@[simp] theorem State.acceptRelease_mem (s : State) (k v : Nat) : (State.acceptRelease s k v).mem = s.mem := by unfold State.acceptRelease; simp
@[simp] theorem State.readRelease_mem (s : State) (k : Nat) :
    (State.readRelease s k).mem = s.mem := by unfold State.readRelease; dsimp only; split <;> simp
@[simp] theorem State.takeLine_mem (s : State) (k : Nat) (f : CamFrame) (h : LineHdr) (d : List Byte) :
    (State.takeLine s k f h d).mem = s.mem := by unfold State.takeLine; simp
@[simp] theorem State.frameBegin_mem (s : State) (k : Nat) (full : Bool) (h : LineHdr) (d : List Byte) :
    (State.frameBegin s k full h d).mem = s.mem := by unfold State.frameBegin; simp
@[simp] theorem State.endCycle_mem (s : State) (core e now : Nat) (pad : Ask) (cm : List Nat) : (State.endCycle s core e now pad cm).mem = s.mem := by unfold State.endCycle; simp
@[simp] theorem State.bankCycle_mem (s : State) (k now : Nat) : (State.bankCycle s k now).mem = s.mem := by
  unfold State.bankCycle
  extract_lets asks pads ptr order ports s1 s2
  have h : s2.mem = s.mem := by unfold s2 s1; simp
  clear_value s2
  exact (foldl_mem _ (fun t x => State.endCycle_mem ..) _ _).trans h
@[simp] theorem State.serveBanks_mem (s : State) (k : Nat) : (State.serveBanks s k).mem = s.mem := by unfold State.serveBanks; simp
@[simp] theorem State.noteHead_mem (s : State) (core e : Nat) : (State.noteHead s core e).mem = s.mem := by unfold State.noteHead; (repeat' split) <;> simp
@[simp] theorem State.beginCycle_mem (s : State) (core : Nat) : (State.beginCycle s core).mem = s.mem := by unfold State.beginCycle; exact foldl_mem _ (fun t x => State.noteHead_mem ..) _ _
@[simp] theorem State.countFill_mem (s : State) (core c : Nat) : (State.countFill s core c).mem = s.mem := by unfold State.countFill; simp
@[simp] theorem State.tickCluster_mem (s : State) (k : Nat) :
    (State.tickCluster s k).mem = s.mem := by
  unfold State.tickCluster
  extract_lets x
  split
  · rfl
  · rename_i f s1 _ s2 _
    have h1 : s1.mem = s.mem := by
      unfold s1
      split
      · exact (foldl_mem _ (fun t x => State.countFill_mem ..) _ _).trans (State.serveBanks_mem ..)
      · rfl
    have h2 : s2.mem = s.mem := by unfold s2; rw [State.setCluster_mem]; exact h1
    clear_value s1 s2
    split
    · exact (foldl_mem _ (fun t x => State.beginCycle_mem ..) _ _).trans h2
    · exact h2
@[simp] theorem State.tick_mem (s : State) :
    (State.tick s).mem = s.mem := by unfold State.tick; simp; (repeat' (first | rfl | split | (rw [foldl_mem]) | (intro _) | (simp; done)))
@[simp] theorem State.frameTick_mem (s : State) (core : Nat) :
    (State.frameTick s core).mem = s.mem := by unfold State.frameTick; simp
@[simp] theorem State.readExtent_mem (s : State) (c : Nat) (x : Extent) : (State.readExtent s c x).1.mem = s.mem := by
  unfold State.readExtent
  exact foldl_fst_mem _ (fun t x => by simp) _ _
@[simp] theorem State.handoffFails_mem (s : State) (cause : Nat) :
    (State.handoffFails s cause).mem = s.mem := by unfold State.handoffFails; simp
@[simp] theorem State.noteCyclic_mem (s : State) (lane : Nat) (seq : Nat) :
    (State.noteCyclic s lane seq).mem = s.mem := by unfold State.noteCyclic; simp
@[simp] theorem State.ignoreTick_mem (s : State) (link : Nat) :
    (State.ignoreTick s link).mem = s.mem := by unfold State.ignoreTick; simp
@[simp] theorem State.oweNotReady_mem (s : State) (link : Nat) :
    (State.oweNotReady s link).mem = s.mem := by unfold State.oweNotReady; simp
@[simp] theorem State.runTick_mem (s : State) (link : Nat) (f : Nat) (start : Nat) (pred : Nat) :
    (State.runTick s link f start pred).mem = s.mem := by unfold State.runTick; simp
@[simp] theorem State.mainTick_mem (s : State) (link : Nat) (f : Nat) :
    (State.mainTick s link f).mem = s.mem := by unfold State.mainTick; (repeat' split) <;> simp
@[simp] theorem State.standbyTick_mem (s : State) (link : Nat) (f : Nat) :
    (State.standbyTick s link f).mem = s.mem := by unfold State.standbyTick; (repeat' split) <;> simp
@[simp] theorem State.onSync_mem (s : State) (link : Nat) (f : Nat) :
    (State.onSync s link f).mem = s.mem := by unfold State.onSync; simp
@[simp] theorem State.sampleRecord_mem (s : State) (accepted : Bool) (n : Nat) (tag : Nat) (d : List Byte) :
    (State.sampleRecord s accepted n tag d).mem = s.mem := by unfold State.sampleRecord; simp
@[simp] theorem State.onSamples_mem (s : State) (link : Nat) (d : List Byte) :
    (State.onSamples s link d).mem = s.mem := by unfold State.onSamples; simp; (repeat' (first | rfl | split | (rw [foldl_mem]) | (intro _) | (simp; done)))
@[simp] theorem State.setSource_mem (s : State) (n : Nat) (x : Source) :
    (State.setSource s n x).mem = s.mem := by unfold State.setSource; simp
@[simp] theorem State.onLine_mem (s : State) (sl : Nat) (full : Bool) (d : List Byte) :
    (State.onLine s sl full d).mem = s.mem := by unfold State.onLine; dsimp only; (repeat' split) <;> simp
@[simp] theorem State.sendAck_mem (s : State) (lane : Nat) (ch : Nat) :
    (State.sendAck s lane ch).mem = s.mem := by unfold State.sendAck; simp
@[simp] theorem State.relReceive_mem (s : State) (lane : Nat) (ch : Nat) (seq : Nat) :
    (State.relReceive s lane ch seq).1.mem = s.mem := by unfold State.relReceive; dsimp only; (repeat' split) <;> simp
@[simp] theorem State.onBulk_mem (s : State) (lane : Nat) (seq : Nat) (d : List Byte) :
    (State.onBulk s lane seq d).mem = s.mem := by unfold State.onBulk; simp
@[simp] theorem State.onAck_mem (s : State) (lane : Nat) (ch : Nat) (next : Nat) :
    (State.onAck s lane ch next).mem = s.mem := by unfold State.onAck; simp
@[simp] theorem State.windowRefused_mem (s : State) (n : Nat) (own : Nat) :
    (State.windowRefused s n own).mem = s.mem := by unfold State.windowRefused; simp
@[simp] theorem State.retried_mem (s : State) (m : Nat) :
    (State.retried s m).mem = s.mem := by unfold State.retried; simp
@[simp] theorem State.moveFrames_mem (s : State) (lost : Nat) (keep : Nat) :
    (State.moveFrames s lost keep).mem = s.mem := by
  unfold State.moveFrames
  exact foldl_mem _ (fun t x => by dsimp only; (repeat' split) <;> simp) _ _
@[simp] theorem State.toOneLane_mem (s : State) (n : Nat) (keep : Nat) :
    (State.toOneLane s n keep).mem = s.mem := by unfold State.toOneLane; simp
@[simp] theorem State.onLaneMode_mem (s : State) (lane : Nat) (mode : Nat) :
    (State.onLaneMode s lane mode).mem = s.mem := by unfold State.onLaneMode; (repeat' split) <;> simp
@[simp] theorem State.onWstatus_mem (s : State) (dev : Nat) (tag : Nat) (n : Nat) (code : Nat) :
    (State.onWstatus s dev tag n code).mem = s.mem := by unfold State.onWstatus; (repeat' split) <;> simp
@[simp] theorem State.onFence_mem (s : State) (n : Nat) (w2 : Nat) :
    (State.onFence s n w2).mem = s.mem := by unfold State.onFence; simp; (repeat' (first | rfl | split | (rw [foldl_mem]) | (intro _) | (simp; done)))
@[simp] theorem State.onPeer_mem (s : State) (lane : Nat) (typ : Nat) (cls : Nat) (seq : Nat) (w2 : Nat) (w3 : Nat) :
    (State.onPeer s lane typ cls seq w2 w3).mem = s.mem := by unfold State.onPeer; simp; (repeat' (first | rfl | split | (rw [foldl_mem]) | (intro _) | (simp; done)))
@[simp] theorem State.laneToUp_mem (s : State) (i : Nat) :
    (State.laneToUp s i).mem = s.mem := by unfold State.laneToUp; simp
@[simp] theorem State.linkUp_mem (s : State) (n : Nat) (mode : Nat) :
    (State.linkUp s n mode).mem = s.mem := by unfold State.linkUp; simp
@[simp] theorem State.pumpLane_mem (s : State) (lane : Nat) : (State.pumpLane s lane).mem = s.mem := by
  unfold State.pumpLane; exact foldl_mem _ (fun t x => by simp) _ _
@[simp] theorem State.peerLaneReady_mem (s : State) (lane : Nat) :
    (State.peerLaneReady s lane).mem = s.mem := by unfold State.peerLaneReady; simp
@[simp] theorem State.onEcho_mem (s : State) (lane : Nat) (reply : Bool) (turn : Nat) (rtt : Nat) :
    (State.onEcho s lane reply turn rtt).mem = s.mem := by unfold State.onEcho; simp
@[simp] theorem State.installQueues_mem (s : State) (own : Nat) (lqs : List LQueue) (qs : List (Nat × Nat × Nat)) :
    (State.installQueues s own lqs qs).mem = s.mem := by unfold State.installQueues; simp; (repeat' (first | rfl | split | (rw [foldl_mem]) | (intro _) | (simp; done)))
@[simp] theorem State.judgeHour_mem (s : State) : (State.judgeHour s).mem = s.mem := by unfold State.judgeHour; simp
@[simp] theorem State.loadSummary_mem (s : State) : (State.loadSummary s).mem = s.mem := by
  unfold State.loadSummary
  dsimp only
  split
  · rfl
  · refine (foldl_mem _ (fun t x => by split <;> simp) _ _).trans ?_
    refine (foldl_mem _ (fun t x => by simp) _ _).trans ?_
    simp
@[simp] theorem State.localRead_mem (s : State) (core : Nat) (off : Nat) (n : Nat) :
    (State.localRead s core off n).1.mem = s.mem := by unfold State.localRead; simp
@[simp] theorem State.mapBanks_mem (s : State) (f : W32 → W32) :
    (State.mapBanks s f).mem = s.mem := by unfold State.mapBanks; simp
@[simp] theorem State.mapSteps_mem (s : State) (p : ResetStep → Bool) (f : ResetStep → ResetStep) :
    (State.mapSteps s p f).mem = s.mem := by unfold State.mapSteps; simp
@[simp] theorem State.meCfgWrite_mem (s : State) (core : Nat) (v : W32) :
    (State.meCfgWrite s core v).mem = s.mem := by unfold State.meCfgWrite; simp
@[simp] theorem State.measure_mem (s : State) (k : Nat) :
    (State.measure s k).mem = s.mem := by unfold State.measure; simp
@[simp] theorem State.mgmtAnswer_mem (s : State) (f : MgmtFrame) (kind : Nat) (d : List Byte) :
    (State.mgmtAnswer s f kind d).mem = s.mem := by unfold State.mgmtAnswer; simp
@[simp] theorem State.mgmtDiscovery_mem (s : State) (f : MgmtFrame) :
    (State.mgmtDiscovery s f).mem = s.mem := by unfold State.mgmtDiscovery; simp
@[simp] theorem State.notReadyReason_mem (s : State) :
    (State.notReadyReason s).2.mem = s.mem := by unfold State.notReadyReason; dsimp only; (repeat' split) <;> simp [State.fresh]
@[simp] theorem State.refuseLane_mem (s : State) (i : Nat) (c : Nat) (sent : Nat) :
    (State.refuseLane s i c sent).mem = s.mem := by unfold State.refuseLane; simp
@[simp] theorem State.onIdent_mem (s : State) (i : Nat) (r : List Byte) :
    (State.onIdent s i r).mem = s.mem := by unfold State.onIdent; simp
@[simp] theorem State.onSwapNotice_mem (s : State) (i : Nat) :
    (State.onSwapNotice s i).mem = s.mem := by unfold State.onSwapNotice; simp
@[simp] theorem State.p2Entry_mem (s : State) (p : Nat) :
    (State.p2Entry s p).mem = s.mem := by unfold State.p2Entry; simp; (repeat' (first | rfl | split | (rw [foldl_mem]) | (intro _) | (simp; done)))
@[simp] theorem State.packageDone_mem (s : State) :
    (State.packageDone s).mem = s.mem := by unfold State.packageDone; dsimp only; (repeat' split) <;> simp
@[simp] theorem State.rgnSettle_mem (s : State) : (State.rgnSettle s).mem = s.mem := by unfold State.rgnSettle; exact foldl_mem _ (fun t x => by split <;> simp) _ _
@[simp] theorem State.resetSlots_mem (s : State) : (State.resetSlots s).mem = s.mem := by
  unfold State.resetSlots
  dsimp only
  refine (foldl_mem _ (fun t x => by split <;> simp) _ _).trans ?_
  exact foldl_mem _ (fun t x => by split <;> simp) _ _
@[simp] theorem State.pllAction_mem (s : State) (i : Nat) : (State.pllAction s i).mem = s.mem := by
  unfold State.pllAction
  split
  · split <;> simp
  · split
    · rw [State.settle_mem]; exact foldl_mem _ (fun t x => by split <;> simp) _ _
    · simp
@[simp] theorem State.serveRequest_mem (s : State) :
    (State.serveRequest s).mem = s.mem := by unfold State.serveRequest; (repeat' split) <;> simp
@[simp] theorem State.pmcReturns_mem (s : State) :
    (State.pmcReturns s).mem = s.mem := by unfold State.pmcReturns; simp; (repeat' (first | rfl | split | (rw [foldl_mem]) | (intro _) | (simp; done)))
@[simp] theorem State.portLost_mem (s : State) (m : Nat) :
    (State.portLost s m).mem = s.mem := by unfold State.portLost; simp
@[simp] theorem State.raiseHang_mem (s : State) (core : Nat) (e : Nat) (ctx : Nat) :
    (State.raiseHang s core e ctx).mem = s.mem := by unfold State.raiseHang; simp
@[simp] theorem State.readDie_mem (s : State) (die : Nat) (t : Int) :
    (State.readDie s die t).mem = s.mem := by unfold State.readDie; simp
@[simp] theorem State.readTemp_mem (s : State) (d : Nat) (t : Int) :
    (State.readTemp s d t).mem = s.mem := by unfold State.readTemp; simp
@[simp] theorem State.readyIn_mem (s : State) (reason : Nat) :
    (State.readyIn s reason).2.mem = s.mem := by unfold State.readyIn; dsimp only; (repeat' split) <;> simp [State.fresh]
@[simp] theorem State.slotFails_mem (s : State) (k : Nat) (err : Nat) :
    (State.slotFails s k err).mem = s.mem := by unfold State.slotFails; simp
@[simp] theorem State.refresh_mem (s : State) (ch : Nat) :
    (State.refresh s ch).mem = s.mem := by unfold State.refresh; simp
@[simp] theorem State.regPut_mem (s : State) (r : HubReg) (v : W32) :
    (State.regPut s r v).mem = s.mem := by unfold State.regPut; (repeat' split) <;> simp
@[simp] theorem State.replaceRetired_mem (s : State) :
    (State.replaceRetired s).mem = s.mem := by unfold State.replaceRetired; simp
@[simp] theorem State.resendRel_mem (s : State) (lane : Nat) (ch : Nat) (t : Nat) :
    (State.resendRel s lane ch t).1.mem = s.mem := by unfold State.resendRel; dsimp only; (repeat' split) <;> simp
@[simp] theorem State.retireChannel_mem (s : State) (ch : Nat) :
    (State.retireChannel s ch).mem = s.mem := by unfold State.retireChannel; simp
@[simp] theorem State.retirePage_mem (s : State) (p : Nat) :
    (State.retirePage s p).mem = s.mem := by unfold State.retirePage; simp
@[simp] theorem State.retireRow_mem (s : State) (ch : Nat) (bank : Nat) (row : Nat) :
    (State.retireRow s ch bank row).mem = s.mem := by
  unfold State.retireRow
  exact foldl_mem _ (fun t x => by simp) _ _
@[simp] theorem State.rgnCloseComplete_mem (s : State) (e : Nat) :
    (State.rgnCloseComplete s e).mem = s.mem := by unfold State.rgnCloseComplete; (repeat' split) <;> simp
@[simp] theorem State.rstIssue_mem (s : State) (core : Nat) (e : Nat) :
    (State.rstIssue s core e).mem = s.mem := by unfold State.rstIssue; dsimp only; (repeat' split) <;> simp
@[simp] theorem State.rstSubmit_mem (s : State) (core : Nat) (e : Nat) (c : Cmd) :
    (State.rstSubmit s core e c).mem = s.mem := by unfold State.rstSubmit; simp
@[simp] theorem State.scanColumn_mem (s : State) (c : Nat) (col : Nat) :
    (State.scanColumn s c col).mem = s.mem := by unfold State.scanColumn; simp
@[simp] theorem State.scrubPassEnd_mem (s : State) (m : Nat) :
    (State.scrubPassEnd s m).mem = s.mem := by unfold State.scrubPassEnd; simp
@[simp] theorem State.seePower_mem (s : State) (i : Nat) (p : Int) :
    (State.seePower s i p).mem = s.mem := by unfold State.seePower; simp
@[simp] theorem State.sendCyclic_mem (s : State) (lane : Nat) (typ : Nat) (d : List Byte) :
    (State.sendCyclic s lane typ d).mem = s.mem := by unfold State.sendCyclic; simp
@[simp] theorem State.sendPacket_mem (s : State) (x : PWrite) (p : PPacket) :
    (State.sendPacket s x p).mem = s.mem := by unfold State.sendPacket; (repeat' split) <;> simp
@[simp] theorem State.sendResults_mem (s : State) :
    (State.sendResults s).mem = s.mem := by unfold State.sendResults; (repeat' split) <;> simp
@[simp] theorem State.sendSparing_mem (s : State) (ch : Nat) (bank : Nat) (row : Nat) (spare : Nat) :
    (State.sendSparing s ch bank row spare).mem = s.mem := by unfold State.sendSparing; simp
@[simp] theorem State.setOIf_mem (s : State) (b : Bool) (k : Nat) (v : Nat) :
    (State.setOIf s b k v).mem = s.mem := by unfold State.setOIf; simp
@[simp] theorem State.settleFrame_mem (s : State) :
    (State.settleFrame s).mem = s.mem := by unfold State.settleFrame; simp
@[simp] theorem State.settleDue_mem (s : State) :
    (State.settleDue s).mem = s.mem := by unfold State.settleDue; (repeat' split) <;> simp
@[simp] theorem State.slotMiss_mem (s : State) (core : Nat) (e : Nat) :
    (State.slotMiss s core e).mem = s.mem := by unfold State.slotMiss; dsimp only; (repeat' split) <;> simp
@[simp] theorem State.spareRow_mem (s : State) (ch : Nat) (bank : Nat) (row : Nat) :
    (State.spareRow s ch bank row).mem = s.mem := by
  unfold State.spareRow
  dsimp only
  split
  · rfl
  · split
    · rfl
    · split
      · simp
      · rw [State.settle_mem, State.logEv_mem, State.setO_mem, State.setChan_mem]
        refine (foldl_mem _ (fun t x => by split <;> simp) _ _).trans ?_
        simp
@[simp] theorem State.streamFaultEnd_mem (s : State) (core : Nat) (e : Nat) :
    (State.streamFaultEnd s core e).mem = s.mem := by unfold State.streamFaultEnd; (repeat' split) <;> simp
@[simp] theorem State.swapDue_mem (s : State) (i : Nat) :
    (State.swapDue s i).mem = s.mem := by unfold State.swapDue; simp
@[simp] theorem State.takeSpare_mem (s : State) (i : Nat) (bias : Nat) :
    (State.takeSpare s i bias).mem = s.mem := by unfold State.takeSpare; simp
@[simp] theorem State.swapLaser_mem (s : State) (i : Nat) (bias : Nat) :
    (State.swapLaser s i bias).mem = s.mem := by unfold State.swapLaser; simp
@[simp] theorem State.takeTrace_mem (s : State) (n : Nat) :
    (State.takeTrace s n).2.mem = s.mem := by unfold State.takeTrace; simp
@[simp] theorem State.spareDue_mem (s : State) : (State.spareDue s).mem = s.mem := by unfold State.spareDue; exact foldl_mem _ (fun t x => State.spareRow_mem ..) _ _
@[simp] theorem State.testsDone_mem (s : State) :
    (State.testsDone s).mem = s.mem := by unfold State.testsDone; simp; (repeat' (first | rfl | split | (rw [foldl_mem]) | (intro _) | (simp; done)))
@[simp] theorem State.watchdog_mem (s : State) (core : Nat) (e : Nat) :
    (State.watchdog s core e).mem = s.mem := by unfold State.watchdog; dsimp only; (repeat' split) <;> simp
@[simp] theorem State.withFront_mem (s : State) (c : Instr) :
    (State.withFront s c).mem = s.mem := by unfold State.withFront; simp
@[simp] theorem State.withFetchWord_mem (s : State) (nbits : Nat) (w : Nat) :
    (State.withFetchWord s nbits w).mem = s.mem := by unfold State.withFetchWord; (repeat' split) <;> simp
@[simp] theorem handleEffect_mem (core : Nat) (s : State) (f : Flight) : (handleEffect core s f).1.mem = s.mem := by
  unfold handleEffect
  split <;> rfl
@[simp] theorem markEffect_mem (core : Nat) (s : State) (f : Flight) :
    (markEffect core s f).1.mem = s.mem := by unfold markEffect; (repeat' split) <;> simp
@[simp] theorem readRunStep_mem (r : Requester) (acc : State × Nat × List Byte) (m : Nat × Nat × Nat) :
    (readRunStep r acc m).1.mem = acc.1.mem := by
  unfold readRunStep
  split
  · exact State.farReadRun_mem ..
  · rfl
@[simp] theorem State.farRetried_mem (s : State) (runs : List (Nat × Nat)) : (State.farRetried s runs).mem = s.mem := by unfold State.farRetried; (repeat' split) <;> simp
theorem streamEnd_mem (s0 s : State) (f : Flight) (r : State × Nat) (runs : List (Nat × Nat)) (code unit n : Nat)
    (h : r.1.mem = s0.mem) (hs : s.mem = s0.mem) : (streamEnd s f r runs code unit n).1.mem = s0.mem := by
  unfold streamEnd
  split
  · exact (State.farRetried_mem ..).trans hs
  · split <;> exact (State.event_mem ..).trans h
@[simp] theorem State.spoilBank_mem (s : State) (core bank : Nat) : (State.spoilBank s core bank).mem = s.mem := by unfold State.spoilBank; simp
@[simp] theorem restoreStep_mem (r : Requester) (ctx : Nat) (acc : State × Nat × List Byte) (c : Nat × Nat) : (restoreStep r ctx acc c).1.mem = acc.1.mem := by unfold restoreStep; (repeat' split) <;> simp
@[simp] theorem restoreEffect_mem (core : Nat) (s : State) (f : Flight) : (restoreEffect core s f).1.mem = s.mem := by
  unfold restoreEffect
  extract_lets b
  split
  · rfl
  · rename_i r runs q bank x5 t _
    have hq : q.1.mem = s.mem := foldl_fst_mem (restoreStep r f.cmd.ctx) (fun t x => restoreStep_mem ..) runs (s, 0, [])
    have ht : t.mem = s.mem := by
      unfold t
      clear_value q
      split
      · exact (State.spoilBank_mem ..).trans hq
      · split
        · exact hq
        · exact (State.setCore_mem ..).trans hq
    clear_value t q
    exact streamEnd_mem s _ f (t, q.2.1) _ _ _ _ ht rfl
@[simp] theorem scaleSwapEffect_mem (s : State) (f : Flight) :
    (scaleSwapEffect s f).1.mem = s.mem := by unfold scaleSwapEffect; simp
@[simp] theorem scaleUpdateEffect_mem (core : Nat) (s : State) (f : Flight) :
    (scaleUpdateEffect core s f).1.mem = s.mem := by unfold scaleUpdateEffect; simp
@[simp] theorem seqEffect_mem (core : Nat) (g : PredBank → Cmd → PredBank) (s : State) (f : Flight) :
    (seqEffect core g s f).1.mem = s.mem := by unfold seqEffect; (repeat' split) <;> simp
@[simp] theorem State.clearLeased_mem (s : State) (n : Nat) (lease : Bool) : (State.clearLeased s n lease).mem = s.mem := by
  unfold State.clearLeased
  split
  · exact foldl_mem _ (fun t x => State.setCore_mem ..) _ _
  · rfl
@[simp] theorem State.pointSave_mem (s : State) (n core r a : Nat) : (State.pointSave s n core r a).mem = s.mem := by unfold State.pointSave; simp
@[simp] theorem State.coreSaved_mem (s : State) (n core : Nat) : (State.coreSaved s n core).mem = s.mem := by unfold State.coreSaved; simp
@[simp] theorem State.saveNext_mem (s : State) (n core : Nat) : (State.saveNext s n core).mem = s.mem := by unfold State.saveNext; (repeat' split) <;> simp
@[simp] theorem State.saveStep_mem (s : State) (core : Nat) (ok : Bool) : (State.saveStep s core ok).mem = s.mem := by unfold State.saveStep; (repeat' split) <;> simp
@[simp] theorem State.saveGoesOn_mem (t s : State) (core : Nat) (ok : Bool) : (State.saveGoesOn t s core ok).mem = t.mem := by unfold State.saveGoesOn; (repeat' split) <;> simp
@[simp] theorem beginSave_mem (n core : Nat) (r : State × Nat) : (beginSave n core r).mem = r.1.mem := by unfold beginSave; simp
@[simp] theorem restoreEnd_mem (core : Nat) (rec_ : List Byte) (r : State × Nat) : (restoreEnd core rec_ r).1.mem = r.1.mem := by unfold restoreEnd; (repeat' split) <;> simp
@[simp] theorem State.holdResume_mem (s : State) (n : Nat) : (State.holdResume s n).mem = s.mem := by unfold State.holdResume; simp
@[simp] theorem State.swapsDue_mem (s : State) : (State.swapsDue s).mem = s.mem := by unfold State.swapsDue; exact foldl_mem _ (fun t x => by split <;> simp) _ _
@[simp] theorem State.localRetried_mem (s : State) (core : Nat) (b : Bound) : (State.localRetried s core b).mem = s.mem := by unfold State.localRetried; (repeat' split) <;> simp
@[simp] theorem State.recordRepair_mem (t s : State) : (State.recordRepair t s).mem = t.mem := by unfold State.recordRepair; simp
@[simp] theorem State.gather_mem (s : State) (c : Nat) (l : List Extent) : (State.gather s c l).1.mem = s.mem := by
  unfold State.gather
  exact foldl_mem _ (fun t x => State.readExtent_mem ..) _ _
@[simp] theorem State.vectorReads_mem (s : State) (core : Nat) (b : Bound) (hostMode : Nat) :
    (State.vectorReads s core b hostMode).1.mem = s.mem := by
  unfold State.vectorReads
  split <;> dsimp only <;> simp
@[simp] theorem State.noteSegment_mem (s : State) (core : Nat) (c : Cmd) : (State.noteSegment s core c).mem = s.mem := by
  unfold State.noteSegment
  dsimp only
  (repeat' split) <;> simp
@[simp] theorem State.appendInTurn_mem (s : State) (core : Nat) (eng : Eng) (c : Cmd) (y : Engine) :
    (State.appendInTurn s core eng c y).mem = s.mem := by
  unfold State.appendInTurn
  extract_lets e t
  have h : t.mem = s.mem := by
    unfold t
    rw [State.noteSegment_mem, State.append_mem]
    exact State.setCore_mem ..
  clear_value t
  split
  · exact h
  · exact (State.setCore_mem ..).trans h
end Sys2Proof.Machine
end

