-- ==== Sys2Proof/Laws/Tbl.lean ====
section
/-! SUPPORT. The laws of the sparse table: a read after a write, and its canonical form. -/

namespace Sys2Proof.Machine

variable {α : Type} [DecidableEq α]

/-- A read of the key just set gives the value set. -/
@[simp] theorem Tbl.get_set_same (d : α) (t : Tbl α) (k : Nat) (v : α) : Tbl.get d (Tbl.set d t k v) k = v := by
  induction t with
  | nil => by_cases e : v = d <;> simp [Tbl.set, Tbl.get, e]
  | cons x r ih =>
    obtain ⟨k', v'⟩ := x
    by_cases e : v = d
    · by_cases h2 : k = k'
      · simp only [Tbl.set, e, h2, if_true]
        simpa only [e, h2] using ih
      · simp only [Tbl.set, e, h2, if_true, if_false, Tbl.get, Ne.symm h2]
        simpa only [e] using ih
    · by_cases h1 : k < k'
      · simp [Tbl.set, e, h1, Tbl.get]
      · by_cases h2 : k = k'
        · simp [Tbl.set, e, h2, Tbl.get]
        · simp [Tbl.set, e, h1, h2, Tbl.get, ih, Ne.symm h2]

/-- A write leaves every other key alone. -/
@[simp] theorem Tbl.get_set_other (d : α) (t : Tbl α) (k j : Nat) (v : α) (h : j ≠ k) :
    Tbl.get d (Tbl.set d t k v) j = Tbl.get d t j := by
  induction t with
  | nil => by_cases e : v = d <;> simp [Tbl.set, Tbl.get, e, Ne.symm h]
  | cons x r ih =>
    obtain ⟨k', v'⟩ := x
    by_cases e : v = d
    · by_cases h2 : k = k'
      · subst h2
        simp [Tbl.set, e, Tbl.get, Ne.symm h, ← ih]
      · simp [Tbl.set, e, h2, Tbl.get, ← ih]
    · by_cases h1 : k < k'
      · simp [Tbl.set, e, h1, Tbl.get, Ne.symm h]
      · by_cases h2 : k = k'
        · subst h2
          simp [Tbl.set, e, Tbl.get, Ne.symm h]
        · simp [Tbl.set, e, h1, h2, Tbl.get, ih]

/-- A read after a write. -/
theorem Tbl.get_set (d : α) (t : Tbl α) (k j : Nat) (v : α) :
    Tbl.get d (Tbl.set d t k v) j = if j = k then v else Tbl.get d t j := by
  by_cases h : j = k
  · subst h; simp
  · simp [h]

/-- A table without some of its entries keeps the canonical form. -/
theorem Tbl.wf_filter (d : α) (p : Nat × α → Bool) (t : Tbl α) (h : Tbl.wf d t = true) :
    Tbl.wf d (t.filter p) = true := by
  have ab : ∀ (l : Tbl α) (j : Nat), Tbl.above j l = true → Tbl.wf d l = true → Tbl.above j (l.filter p) = true := by
    intro l
    induction l with
    | nil => intros; rfl
    | cons y s ih =>
      obtain ⟨ky, vy⟩ := y
      intro j ha hw
      simp only [Tbl.above, decide_eq_true_eq] at ha
      simp only [Tbl.wf, Bool.and_eq_true, decide_eq_true_eq] at hw
      by_cases hp : p (ky, vy) = true
      · simp [hp, Tbl.above, ha]
      · simp only [List.filter_cons, hp]
        refine ih j ?_ hw.2
        cases s with
        | nil => rfl
        | cons z u =>
          obtain ⟨kz, vz⟩ := z
          have hz := hw.1.2
          simp only [Tbl.above, decide_eq_true_eq] at hz ⊢
          omega
  induction t with
  | nil => rfl
  | cons x r ih =>
    obtain ⟨k', v'⟩ := x
    simp only [Tbl.wf, Bool.and_eq_true, decide_eq_true_eq] at h
    by_cases hp : p (k', v') = true
    · simp only [List.filter_cons, hp, if_true, Tbl.wf, Bool.and_eq_true, decide_eq_true_eq]
      exact ⟨⟨h.1.1, ab r k' h.1.2 h.2⟩, ih h.2⟩
    · simpa [List.filter_cons, hp] using ih h.2

/-- Keys above `j` stay above it when a key above it is set. -/
theorem Tbl.above_set (d : α) (t : Tbl α) (j k : Nat) (v : α) (h : Tbl.above j t = true) (hk : j < k)
    (hw : Tbl.wf d t = true) : Tbl.above j (Tbl.set d t k v) = true := by
  induction t with
  | nil => by_cases e : v = d <;> simp [Tbl.set, Tbl.above, e, hk]
  | cons x r ih =>
    obtain ⟨k', v'⟩ := x
    simp only [Tbl.above, decide_eq_true_eq] at h
    simp only [Tbl.wf, Bool.and_eq_true, decide_eq_true_eq] at hw
    have hr : Tbl.above j r = true := by
      cases r with
      | nil => rfl
      | cons y s =>
        obtain ⟨ky, vy⟩ := y
        have hy := hw.1.2
        simp only [Tbl.above, decide_eq_true_eq] at hy ⊢
        omega
    by_cases e : v = d
    · by_cases h2 : k = k'
      · simp only [Tbl.set, e, h2, if_true]
        simpa only [e, h2] using ih hr hw.2
      · simp [Tbl.set, e, h2, Tbl.above, h]
    · by_cases h1 : k < k'
      · simp [Tbl.set, e, h1, Tbl.above, hk]
      · by_cases h2 : k = k' <;> simp [Tbl.set, e, h1, h2, Tbl.above, h]

/-- A write keeps the canonical form. -/
theorem Tbl.wf_set (d : α) (t : Tbl α) (k : Nat) (v : α) (h : Tbl.wf d t = true) : Tbl.wf d (Tbl.set d t k v) = true := by
  induction t with
  | nil => by_cases e : v = d <;> simp [Tbl.set, Tbl.wf, Tbl.above, e]
  | cons x r ih =>
    obtain ⟨k', v'⟩ := x
    have h0 := h
    simp only [Tbl.wf, Bool.and_eq_true, decide_eq_true_eq] at h
    by_cases e : v = d
    · by_cases h2 : k = k'
      · simp only [Tbl.set, e, h2, if_true]
        simpa only [e, h2] using ih h.2
      · have hf : ∀ (l : Tbl α) (j : Nat), Tbl.above j l = true → Tbl.wf d l = true →
            Tbl.above j (Tbl.set d l k d) = true := by
          intro l
          induction l with
          | nil => intros; simp [Tbl.set, Tbl.above]
          | cons y s ih2 =>
            obtain ⟨ky, vy⟩ := y
            intro j ha hw
            simp only [Tbl.above, decide_eq_true_eq] at ha
            simp only [Tbl.wf, Bool.and_eq_true, decide_eq_true_eq] at hw
            by_cases h3 : k = ky
            · simp only [Tbl.set, h3, if_true]
              rw [← h3]
              refine ih2 j ?_ hw.2
              cases s with
              | nil => rfl
              | cons z u =>
                obtain ⟨kz, vz⟩ := z
                have hz := hw.1.2
                simp only [Tbl.above, decide_eq_true_eq] at hz ⊢
                omega
            · simp [Tbl.set, h3, Tbl.above, ha]
        simp only [Tbl.set, e, h2, if_true, if_false, Tbl.wf, Bool.and_eq_true, decide_eq_true_eq]
        exact ⟨⟨h.1.1, hf r k' h.1.2 h.2⟩, by simpa only [e] using ih h.2⟩
    · by_cases h1 : k < k'
      · simp only [Tbl.set, h1, e, if_true, if_false, Tbl.wf, Bool.and_eq_true, decide_eq_true_eq]
        exact ⟨⟨e, decide_eq_true h1⟩, h⟩
      · by_cases h2 : k = k'
        · subst h2
          simp [Tbl.set, e, Tbl.wf, h]
        · have hl : k' < k := by omega
          simp only [Tbl.set, e, h1, h2, if_false, Tbl.wf, Bool.and_eq_true, decide_eq_true_eq]
          exact ⟨⟨h.1.1, Tbl.above_set d r k' k v h.1.2 hl h.2⟩, ih h.2⟩

/-- A clear keeps the canonical form. -/
theorem Tbl.wf_clear (d : α) (t : Tbl α) (a n : Nat) (h : Tbl.wf d t = true) : Tbl.wf d (Tbl.clear t a n) = true :=
  Tbl.wf_filter d _ t h

/-- Writes of consecutive keys keep the canonical form. -/
theorem Tbl.wf_setList (d : α) (l : List α) : ∀ (t : Tbl α) (k : Nat), Tbl.wf d t = true → Tbl.wf d (Tbl.setList d t k l) = true := by
  induction l with
  | nil => intro t k h; exact h
  | cons v r ih => intro t k h; exact ih _ _ (Tbl.wf_set d t k v h)

/-- Writes of consecutive keys leave the keys before and after them alone. -/
theorem Tbl.get_setList_other (d : α) (l : List α) : ∀ (t : Tbl α) (k j : Nat), j < k ∨ k + l.length ≤ j →
    Tbl.get d (Tbl.setList d t k l) j = Tbl.get d t j := by
  induction l with
  | nil => intros; rfl
  | cons v r ih =>
    intro t k j h
    simp only [List.length_cons] at h
    rw [Tbl.setList, ih _ _ _ (by omega), Tbl.get_set_other _ _ _ _ _ (by omega)]

/-- A key just written reads back. -/
theorem Tbl.get_setList_at (d : α) (l : List α) : ∀ (t : Tbl α) (k i : Nat), i < l.length →
    Tbl.get d (Tbl.setList d t k l) (k + i) = l.getD i d := by
  induction l with
  | nil => intro t k i h; simp at h
  | cons v r ih =>
    intro t k i h
    cases i with
    | zero => rw [Tbl.setList, Tbl.get_setList_other _ _ _ _ _ (by omega)]; simp
    | succ i =>
      rw [Tbl.setList, show k + (i + 1) = k + 1 + i by omega, ih _ _ _ (by simpa using h)]
      rfl

/-- The keys just written read back. -/
theorem Tbl.getList_setList (d : α) (l : List α) : ∀ (t : Tbl α) (k : Nat),
    Tbl.getList d (Tbl.setList d t k l) k l.length = l := by
  induction l with
  | nil => intros; rfl
  | cons v r ih =>
    intro t k
    simp only [List.length_cons, Tbl.getList, Tbl.setList]
    rw [ih, Tbl.get_setList_other _ _ _ _ _ (by omega), Tbl.get_set_same]

end Sys2Proof.Machine
end

