-- ==== Sys2Proof/Laws/State.lean ====
section
/-! SUPPORT. What each basic update of the state leaves alone, field by field, and what is read back after it. -/

namespace Sys2Proof.Machine

/-! ### setCore -/
@[simp] theorem State.setCore_pending (s : State) (c : Nat) (x : Core) : (s.setCore c x).pending = s.pending := rfl
@[simp] theorem State.setCore_free (s : State) (c : Nat) (x : Core) : (s.setCore c x).free = s.free := rfl
@[simp] theorem State.setCore_clk (s : State) (c : Nat) (x : Core) : (s.setCore c x).clk = s.clk := rfl
@[simp] theorem State.setCore_clusters (s : State) (c : Nat) (x : Core) : (s.setCore c x).clusters = s.clusters := rfl
@[simp] theorem State.setCore_hqs (s : State) (c : Nat) (x : Core) : (s.setCore c x).hqs = s.hqs := rfl
@[simp] theorem State.setCore_forwards (s : State) (c : Nat) (x : Core) : (s.setCore c x).forwards = s.forwards := rfl
@[simp] theorem State.setCore_credits (s : State) (c : Nat) (x : Core) : (s.setCore c x).credits = s.credits := rfl
@[simp] theorem State.setCore_ecc (s : State) (c : Nat) (x : Core) : (s.setCore c x).ecc = s.ecc := rfl
@[simp] theorem State.setCore_line (s : State) (c : Nat) (x : Core) : (s.setCore c x).line = s.line := rfl
@[simp] theorem State.setCore_omap (s : State) (c : Nat) (x : Core) : (s.setCore c x).omap = s.omap := rfl
@[simp] theorem State.setCore_wins (s : State) (c : Nat) (x : Core) : (s.setCore c x).wins = s.wins := rfl
@[simp] theorem State.setCore_closingWins (s : State) (c : Nat) (x : Core) : (s.setCore c x).closingWins = s.closingWins := rfl
@[simp] theorem State.setCore_rgns (s : State) (c : Nat) (x : Core) : (s.setCore c x).rgns = s.rgns := rfl
@[simp] theorem State.setCore_rgnNext (s : State) (c : Nat) (x : Core) : (s.setCore c x).rgnNext = s.rgnNext := rfl
@[simp] theorem State.setCore_holders (s : State) (c : Nat) (x : Core) : (s.setCore c x).holders = s.holders := rfl
@[simp] theorem State.setCore_retiredPages (s : State) (c : Nat) (x : Core) : (s.setCore c x).retiredPages = s.retiredPages := rfl
@[simp] theorem State.setCore_ctxTab (s : State) (c : Nat) (x : Core) : (s.setCore c x).ctxTab = s.ctxTab := rfl
@[simp] theorem State.setCore_obj (s : State) (c : Nat) (x : Core) : (s.setCore c x).obj = s.obj := rfl
@[simp] theorem State.setCore_dom (s : State) (c : Nat) (x : Core) : (s.setCore c x).dom = s.dom := rfl
@[simp] theorem State.setCore_obs (s : State) (c : Nat) (x : Core) : (s.setCore c x).obs = s.obs := rfl
@[simp] theorem State.setCore_chans (s : State) (c : Nat) (x : Core) : (s.setCore c x).chans = s.chans := rfl
@[simp] theorem State.setCore_reply (s : State) (c : Nat) (x : Core) : (s.setCore c x).reply = s.reply := rfl
@[simp] theorem State.setCore_loop (s : State) (c : Nat) (x : Core) : (s.setCore c x).loop = s.loop := rfl
@[simp] theorem State.setCore_sources (s : State) (c : Nat) (x : Core) : (s.setCore c x).sources = s.sources := rfl
@[simp] theorem State.setCore_boot (s : State) (c : Nat) (x : Core) : (s.setCore c x).boot = s.boot := rfl
@[simp] theorem State.setCore_lanes (s : State) (c : Nat) (x : Core) : (s.setCore c x).lanes = s.lanes := rfl
@[simp] theorem State.setCore_rels (s : State) (c : Nat) (x : Core) : (s.setCore c x).rels = s.rels := rfl
@[simp] theorem State.setCore_sent (s : State) (c : Nat) (x : Core) : (s.setCore c x).sent = s.sent := rfl
@[simp] theorem State.setCore_cyclic (s : State) (c : Nat) (x : Core) : (s.setCore c x).cyclic = s.cyclic := rfl
@[simp] theorem State.setCore_peers (s : State) (c : Nat) (x : Core) : (s.setCore c x).peers = s.peers := rfl
@[simp] theorem State.setCore_writes (s : State) (c : Nat) (x : Core) : (s.setCore c x).writes = s.writes := rfl
@[simp] theorem State.setCore_inWrites (s : State) (c : Nat) (x : Core) : (s.setCore c x).inWrites = s.inWrites := rfl
@[simp] theorem State.setCore_attn (s : State) (c : Nat) (x : Core) : (s.setCore c x).attn = s.attn := rfl
@[simp] theorem State.setCore_reqs (s : State) (c : Nat) (x : Core) : (s.setCore c x).reqs = s.reqs := rfl
@[simp] theorem State.setCore_steps (s : State) (c : Nat) (x : Core) : (s.setCore c x).steps = s.steps := rfl
@[simp] theorem State.setCore_stepLog (s : State) (c : Nat) (x : Core) : (s.setCore c x).stepLog = s.stepLog := rfl
@[simp] theorem State.setCore_inject (s : State) (c : Nat) (x : Core) : (s.setCore c x).inject = s.inject := rfl
@[simp] theorem State.setCore_masters (s : State) (c : Nat) (x : Core) : (s.setCore c x).masters = s.masters := rfl
@[simp] theorem State.setCore_transfers (s : State) (c : Nat) (x : Core) : (s.setCore c x).transfers = s.transfers := rfl
@[simp] theorem State.setCore_aborted (s : State) (c : Nat) (x : Core) : (s.setCore c x).aborted = s.aborted := rfl
@[simp] theorem State.setCore_maps (s : State) (c : Nat) (x : Core) : (s.setCore c x).maps = s.maps := rfl
@[simp] theorem State.setCore_invocations (s : State) (c : Nat) (x : Core) : (s.setCore c x).invocations = s.invocations := rfl
@[simp] theorem State.setCore_saved (s : State) (c : Nat) (x : Core) : (s.setCore c x).saved = s.saved := rfl
@[simp] theorem State.setCore_stoppingCtx (s : State) (c : Nat) (x : Core) : (s.setCore c x).stoppingCtx = s.stoppingCtx := rfl
@[simp] theorem State.setCore_pins (s : State) (c : Nat) (x : Core) : (s.setCore c x).pins = s.pins := rfl
@[simp] theorem State.setCore_fw (s : State) (c : Nat) (x : Core) : (s.setCore c x).fw = s.fw := rfl
@[simp] theorem State.setCore_fuses (s : State) (c : Nat) (x : Core) : (s.setCore c x).fuses = s.fuses := rfl
@[simp] theorem State.setCore_power (s : State) (c : Nat) (x : Core) : (s.setCore c x).power = s.power := rfl
@[simp] theorem State.setCore_flash (s : State) (c : Nat) (x : Core) : (s.setCore c x).flash = s.flash := rfl
@[simp] theorem State.setCore_repairs (s : State) (c : Nat) (x : Core) : (s.setCore c x).repairs = s.repairs := rfl
@[simp] theorem State.setCore_adapts (s : State) (c : Nat) (x : Core) : (s.setCore c x).adapts = s.adapts := rfl
@[simp] theorem State.setCore_submissions (s : State) (c : Nat) (x : Core) : (s.setCore c x).submissions = s.submissions := rfl
@[simp] theorem State.setCore_cameras (s : State) (c : Nat) (x : Core) : (s.setCore c x).cameras = s.cameras := rfl
@[simp] theorem State.setCore_tokenizer (s : State) (c : Nat) (x : Core) : (s.setCore c x).tokenizer = s.tokenizer := rfl
@[simp] theorem State.setCore_responses (s : State) (c : Nat) (x : Core) : (s.setCore c x).responses = s.responses := rfl
@[simp] theorem State.setCore_owned (s : State) (c : Nat) (x : Core) : (s.setCore c x).owned = s.owned := rfl

/-! ### setCluster -/
@[simp] theorem State.setCluster_pending (s : State) (k : Nat) (x : Cluster) : (s.setCluster k x).pending = s.pending := rfl
@[simp] theorem State.setCluster_free (s : State) (k : Nat) (x : Cluster) : (s.setCluster k x).free = s.free := rfl
@[simp] theorem State.setCluster_clk (s : State) (k : Nat) (x : Cluster) : (s.setCluster k x).clk = s.clk := rfl
@[simp] theorem State.setCluster_cores (s : State) (k : Nat) (x : Cluster) : (s.setCluster k x).cores = s.cores := rfl
@[simp] theorem State.setCluster_hqs (s : State) (k : Nat) (x : Cluster) : (s.setCluster k x).hqs = s.hqs := rfl
@[simp] theorem State.setCluster_forwards (s : State) (k : Nat) (x : Cluster) : (s.setCluster k x).forwards = s.forwards := rfl
@[simp] theorem State.setCluster_credits (s : State) (k : Nat) (x : Cluster) : (s.setCluster k x).credits = s.credits := rfl
@[simp] theorem State.setCluster_ecc (s : State) (k : Nat) (x : Cluster) : (s.setCluster k x).ecc = s.ecc := rfl
@[simp] theorem State.setCluster_line (s : State) (k : Nat) (x : Cluster) : (s.setCluster k x).line = s.line := rfl
@[simp] theorem State.setCluster_omap (s : State) (k : Nat) (x : Cluster) : (s.setCluster k x).omap = s.omap := rfl
@[simp] theorem State.setCluster_wins (s : State) (k : Nat) (x : Cluster) : (s.setCluster k x).wins = s.wins := rfl
@[simp] theorem State.setCluster_closingWins (s : State) (k : Nat) (x : Cluster) : (s.setCluster k x).closingWins = s.closingWins := rfl
@[simp] theorem State.setCluster_rgns (s : State) (k : Nat) (x : Cluster) : (s.setCluster k x).rgns = s.rgns := rfl
@[simp] theorem State.setCluster_rgnNext (s : State) (k : Nat) (x : Cluster) : (s.setCluster k x).rgnNext = s.rgnNext := rfl
@[simp] theorem State.setCluster_holders (s : State) (k : Nat) (x : Cluster) : (s.setCluster k x).holders = s.holders := rfl
@[simp] theorem State.setCluster_retiredPages (s : State) (k : Nat) (x : Cluster) : (s.setCluster k x).retiredPages = s.retiredPages := rfl
@[simp] theorem State.setCluster_ctxTab (s : State) (k : Nat) (x : Cluster) : (s.setCluster k x).ctxTab = s.ctxTab := rfl
@[simp] theorem State.setCluster_obj (s : State) (k : Nat) (x : Cluster) : (s.setCluster k x).obj = s.obj := rfl
@[simp] theorem State.setCluster_dom (s : State) (k : Nat) (x : Cluster) : (s.setCluster k x).dom = s.dom := rfl
@[simp] theorem State.setCluster_obs (s : State) (k : Nat) (x : Cluster) : (s.setCluster k x).obs = s.obs := rfl
@[simp] theorem State.setCluster_chans (s : State) (k : Nat) (x : Cluster) : (s.setCluster k x).chans = s.chans := rfl
@[simp] theorem State.setCluster_reply (s : State) (k : Nat) (x : Cluster) : (s.setCluster k x).reply = s.reply := rfl
@[simp] theorem State.setCluster_loop (s : State) (k : Nat) (x : Cluster) : (s.setCluster k x).loop = s.loop := rfl
@[simp] theorem State.setCluster_sources (s : State) (k : Nat) (x : Cluster) : (s.setCluster k x).sources = s.sources := rfl
@[simp] theorem State.setCluster_boot (s : State) (k : Nat) (x : Cluster) : (s.setCluster k x).boot = s.boot := rfl
@[simp] theorem State.setCluster_lanes (s : State) (k : Nat) (x : Cluster) : (s.setCluster k x).lanes = s.lanes := rfl
@[simp] theorem State.setCluster_rels (s : State) (k : Nat) (x : Cluster) : (s.setCluster k x).rels = s.rels := rfl
@[simp] theorem State.setCluster_sent (s : State) (k : Nat) (x : Cluster) : (s.setCluster k x).sent = s.sent := rfl
@[simp] theorem State.setCluster_cyclic (s : State) (k : Nat) (x : Cluster) : (s.setCluster k x).cyclic = s.cyclic := rfl
@[simp] theorem State.setCluster_peers (s : State) (k : Nat) (x : Cluster) : (s.setCluster k x).peers = s.peers := rfl
@[simp] theorem State.setCluster_writes (s : State) (k : Nat) (x : Cluster) : (s.setCluster k x).writes = s.writes := rfl
@[simp] theorem State.setCluster_inWrites (s : State) (k : Nat) (x : Cluster) : (s.setCluster k x).inWrites = s.inWrites := rfl
@[simp] theorem State.setCluster_attn (s : State) (k : Nat) (x : Cluster) : (s.setCluster k x).attn = s.attn := rfl
@[simp] theorem State.setCluster_reqs (s : State) (k : Nat) (x : Cluster) : (s.setCluster k x).reqs = s.reqs := rfl
@[simp] theorem State.setCluster_steps (s : State) (k : Nat) (x : Cluster) : (s.setCluster k x).steps = s.steps := rfl
@[simp] theorem State.setCluster_stepLog (s : State) (k : Nat) (x : Cluster) : (s.setCluster k x).stepLog = s.stepLog := rfl
@[simp] theorem State.setCluster_inject (s : State) (k : Nat) (x : Cluster) : (s.setCluster k x).inject = s.inject := rfl
@[simp] theorem State.setCluster_masters (s : State) (k : Nat) (x : Cluster) : (s.setCluster k x).masters = s.masters := rfl
@[simp] theorem State.setCluster_transfers (s : State) (k : Nat) (x : Cluster) : (s.setCluster k x).transfers = s.transfers := rfl
@[simp] theorem State.setCluster_aborted (s : State) (k : Nat) (x : Cluster) : (s.setCluster k x).aborted = s.aborted := rfl
@[simp] theorem State.setCluster_maps (s : State) (k : Nat) (x : Cluster) : (s.setCluster k x).maps = s.maps := rfl
@[simp] theorem State.setCluster_invocations (s : State) (k : Nat) (x : Cluster) : (s.setCluster k x).invocations = s.invocations := rfl
@[simp] theorem State.setCluster_saved (s : State) (k : Nat) (x : Cluster) : (s.setCluster k x).saved = s.saved := rfl
@[simp] theorem State.setCluster_stoppingCtx (s : State) (k : Nat) (x : Cluster) : (s.setCluster k x).stoppingCtx = s.stoppingCtx := rfl
@[simp] theorem State.setCluster_pins (s : State) (k : Nat) (x : Cluster) : (s.setCluster k x).pins = s.pins := rfl
@[simp] theorem State.setCluster_fw (s : State) (k : Nat) (x : Cluster) : (s.setCluster k x).fw = s.fw := rfl
@[simp] theorem State.setCluster_fuses (s : State) (k : Nat) (x : Cluster) : (s.setCluster k x).fuses = s.fuses := rfl
@[simp] theorem State.setCluster_power (s : State) (k : Nat) (x : Cluster) : (s.setCluster k x).power = s.power := rfl
@[simp] theorem State.setCluster_flash (s : State) (k : Nat) (x : Cluster) : (s.setCluster k x).flash = s.flash := rfl
@[simp] theorem State.setCluster_repairs (s : State) (k : Nat) (x : Cluster) : (s.setCluster k x).repairs = s.repairs := rfl
@[simp] theorem State.setCluster_adapts (s : State) (k : Nat) (x : Cluster) : (s.setCluster k x).adapts = s.adapts := rfl
@[simp] theorem State.setCluster_submissions (s : State) (k : Nat) (x : Cluster) : (s.setCluster k x).submissions = s.submissions := rfl
@[simp] theorem State.setCluster_cameras (s : State) (k : Nat) (x : Cluster) : (s.setCluster k x).cameras = s.cameras := rfl
@[simp] theorem State.setCluster_tokenizer (s : State) (k : Nat) (x : Cluster) : (s.setCluster k x).tokenizer = s.tokenizer := rfl
@[simp] theorem State.setCluster_responses (s : State) (k : Nat) (x : Cluster) : (s.setCluster k x).responses = s.responses := rfl
@[simp] theorem State.setCluster_owned (s : State) (k : Nat) (x : Cluster) : (s.setCluster k x).owned = s.owned := rfl

/-! ### setHq -/
@[simp] theorem State.setHq_pending (s : State) (u q : Nat) (x : HQueue) : (s.setHq u q x).pending = s.pending := rfl
@[simp] theorem State.setHq_free (s : State) (u q : Nat) (x : HQueue) : (s.setHq u q x).free = s.free := rfl
@[simp] theorem State.setHq_clk (s : State) (u q : Nat) (x : HQueue) : (s.setHq u q x).clk = s.clk := rfl
@[simp] theorem State.setHq_cores (s : State) (u q : Nat) (x : HQueue) : (s.setHq u q x).cores = s.cores := rfl
@[simp] theorem State.setHq_clusters (s : State) (u q : Nat) (x : HQueue) : (s.setHq u q x).clusters = s.clusters := rfl
@[simp] theorem State.setHq_forwards (s : State) (u q : Nat) (x : HQueue) : (s.setHq u q x).forwards = s.forwards := rfl
@[simp] theorem State.setHq_credits (s : State) (u q : Nat) (x : HQueue) : (s.setHq u q x).credits = s.credits := rfl
@[simp] theorem State.setHq_ecc (s : State) (u q : Nat) (x : HQueue) : (s.setHq u q x).ecc = s.ecc := rfl
@[simp] theorem State.setHq_line (s : State) (u q : Nat) (x : HQueue) : (s.setHq u q x).line = s.line := rfl
@[simp] theorem State.setHq_omap (s : State) (u q : Nat) (x : HQueue) : (s.setHq u q x).omap = s.omap := rfl
@[simp] theorem State.setHq_wins (s : State) (u q : Nat) (x : HQueue) : (s.setHq u q x).wins = s.wins := rfl
@[simp] theorem State.setHq_closingWins (s : State) (u q : Nat) (x : HQueue) : (s.setHq u q x).closingWins = s.closingWins := rfl
@[simp] theorem State.setHq_rgns (s : State) (u q : Nat) (x : HQueue) : (s.setHq u q x).rgns = s.rgns := rfl
@[simp] theorem State.setHq_rgnNext (s : State) (u q : Nat) (x : HQueue) : (s.setHq u q x).rgnNext = s.rgnNext := rfl
@[simp] theorem State.setHq_holders (s : State) (u q : Nat) (x : HQueue) : (s.setHq u q x).holders = s.holders := rfl
@[simp] theorem State.setHq_retiredPages (s : State) (u q : Nat) (x : HQueue) : (s.setHq u q x).retiredPages = s.retiredPages := rfl
@[simp] theorem State.setHq_ctxTab (s : State) (u q : Nat) (x : HQueue) : (s.setHq u q x).ctxTab = s.ctxTab := rfl
@[simp] theorem State.setHq_obj (s : State) (u q : Nat) (x : HQueue) : (s.setHq u q x).obj = s.obj := rfl
@[simp] theorem State.setHq_dom (s : State) (u q : Nat) (x : HQueue) : (s.setHq u q x).dom = s.dom := rfl
@[simp] theorem State.setHq_obs (s : State) (u q : Nat) (x : HQueue) : (s.setHq u q x).obs = s.obs := rfl
@[simp] theorem State.setHq_chans (s : State) (u q : Nat) (x : HQueue) : (s.setHq u q x).chans = s.chans := rfl
@[simp] theorem State.setHq_reply (s : State) (u q : Nat) (x : HQueue) : (s.setHq u q x).reply = s.reply := rfl
@[simp] theorem State.setHq_loop (s : State) (u q : Nat) (x : HQueue) : (s.setHq u q x).loop = s.loop := rfl
@[simp] theorem State.setHq_sources (s : State) (u q : Nat) (x : HQueue) : (s.setHq u q x).sources = s.sources := rfl
@[simp] theorem State.setHq_boot (s : State) (u q : Nat) (x : HQueue) : (s.setHq u q x).boot = s.boot := rfl
@[simp] theorem State.setHq_lanes (s : State) (u q : Nat) (x : HQueue) : (s.setHq u q x).lanes = s.lanes := rfl
@[simp] theorem State.setHq_rels (s : State) (u q : Nat) (x : HQueue) : (s.setHq u q x).rels = s.rels := rfl
@[simp] theorem State.setHq_sent (s : State) (u q : Nat) (x : HQueue) : (s.setHq u q x).sent = s.sent := rfl
@[simp] theorem State.setHq_cyclic (s : State) (u q : Nat) (x : HQueue) : (s.setHq u q x).cyclic = s.cyclic := rfl
@[simp] theorem State.setHq_peers (s : State) (u q : Nat) (x : HQueue) : (s.setHq u q x).peers = s.peers := rfl
@[simp] theorem State.setHq_writes (s : State) (u q : Nat) (x : HQueue) : (s.setHq u q x).writes = s.writes := rfl
@[simp] theorem State.setHq_inWrites (s : State) (u q : Nat) (x : HQueue) : (s.setHq u q x).inWrites = s.inWrites := rfl
@[simp] theorem State.setHq_attn (s : State) (u q : Nat) (x : HQueue) : (s.setHq u q x).attn = s.attn := rfl
@[simp] theorem State.setHq_reqs (s : State) (u q : Nat) (x : HQueue) : (s.setHq u q x).reqs = s.reqs := rfl
@[simp] theorem State.setHq_steps (s : State) (u q : Nat) (x : HQueue) : (s.setHq u q x).steps = s.steps := rfl
@[simp] theorem State.setHq_stepLog (s : State) (u q : Nat) (x : HQueue) : (s.setHq u q x).stepLog = s.stepLog := rfl
@[simp] theorem State.setHq_inject (s : State) (u q : Nat) (x : HQueue) : (s.setHq u q x).inject = s.inject := rfl
@[simp] theorem State.setHq_masters (s : State) (u q : Nat) (x : HQueue) : (s.setHq u q x).masters = s.masters := rfl
@[simp] theorem State.setHq_transfers (s : State) (u q : Nat) (x : HQueue) : (s.setHq u q x).transfers = s.transfers := rfl
@[simp] theorem State.setHq_aborted (s : State) (u q : Nat) (x : HQueue) : (s.setHq u q x).aborted = s.aborted := rfl
@[simp] theorem State.setHq_maps (s : State) (u q : Nat) (x : HQueue) : (s.setHq u q x).maps = s.maps := rfl
@[simp] theorem State.setHq_invocations (s : State) (u q : Nat) (x : HQueue) : (s.setHq u q x).invocations = s.invocations := rfl
@[simp] theorem State.setHq_saved (s : State) (u q : Nat) (x : HQueue) : (s.setHq u q x).saved = s.saved := rfl
@[simp] theorem State.setHq_stoppingCtx (s : State) (u q : Nat) (x : HQueue) : (s.setHq u q x).stoppingCtx = s.stoppingCtx := rfl
@[simp] theorem State.setHq_pins (s : State) (u q : Nat) (x : HQueue) : (s.setHq u q x).pins = s.pins := rfl
@[simp] theorem State.setHq_fw (s : State) (u q : Nat) (x : HQueue) : (s.setHq u q x).fw = s.fw := rfl
@[simp] theorem State.setHq_fuses (s : State) (u q : Nat) (x : HQueue) : (s.setHq u q x).fuses = s.fuses := rfl
@[simp] theorem State.setHq_power (s : State) (u q : Nat) (x : HQueue) : (s.setHq u q x).power = s.power := rfl
@[simp] theorem State.setHq_flash (s : State) (u q : Nat) (x : HQueue) : (s.setHq u q x).flash = s.flash := rfl
@[simp] theorem State.setHq_repairs (s : State) (u q : Nat) (x : HQueue) : (s.setHq u q x).repairs = s.repairs := rfl
@[simp] theorem State.setHq_adapts (s : State) (u q : Nat) (x : HQueue) : (s.setHq u q x).adapts = s.adapts := rfl
@[simp] theorem State.setHq_submissions (s : State) (u q : Nat) (x : HQueue) : (s.setHq u q x).submissions = s.submissions := rfl
@[simp] theorem State.setHq_cameras (s : State) (u q : Nat) (x : HQueue) : (s.setHq u q x).cameras = s.cameras := rfl
@[simp] theorem State.setHq_tokenizer (s : State) (u q : Nat) (x : HQueue) : (s.setHq u q x).tokenizer = s.tokenizer := rfl
@[simp] theorem State.setHq_responses (s : State) (u q : Nat) (x : HQueue) : (s.setHq u q x).responses = s.responses := rfl
@[simp] theorem State.setHq_owned (s : State) (u q : Nat) (x : HQueue) : (s.setHq u q x).owned = s.owned := rfl

/-! ### setO -/
@[simp] theorem State.setO_pending (s : State) (k v : Nat) : (s.setO k v).pending = s.pending := rfl
@[simp] theorem State.setO_free (s : State) (k v : Nat) : (s.setO k v).free = s.free := rfl
@[simp] theorem State.setO_clk (s : State) (k v : Nat) : (s.setO k v).clk = s.clk := rfl
@[simp] theorem State.setO_cores (s : State) (k v : Nat) : (s.setO k v).cores = s.cores := rfl
@[simp] theorem State.setO_clusters (s : State) (k v : Nat) : (s.setO k v).clusters = s.clusters := rfl
@[simp] theorem State.setO_hqs (s : State) (k v : Nat) : (s.setO k v).hqs = s.hqs := rfl
@[simp] theorem State.setO_forwards (s : State) (k v : Nat) : (s.setO k v).forwards = s.forwards := rfl
@[simp] theorem State.setO_credits (s : State) (k v : Nat) : (s.setO k v).credits = s.credits := rfl
@[simp] theorem State.setO_ecc (s : State) (k v : Nat) : (s.setO k v).ecc = s.ecc := rfl
@[simp] theorem State.setO_line (s : State) (k v : Nat) : (s.setO k v).line = s.line := rfl
@[simp] theorem State.setO_omap (s : State) (k v : Nat) : (s.setO k v).omap = s.omap := rfl
@[simp] theorem State.setO_wins (s : State) (k v : Nat) : (s.setO k v).wins = s.wins := rfl
@[simp] theorem State.setO_closingWins (s : State) (k v : Nat) : (s.setO k v).closingWins = s.closingWins := rfl
@[simp] theorem State.setO_rgns (s : State) (k v : Nat) : (s.setO k v).rgns = s.rgns := rfl
@[simp] theorem State.setO_rgnNext (s : State) (k v : Nat) : (s.setO k v).rgnNext = s.rgnNext := rfl
@[simp] theorem State.setO_holders (s : State) (k v : Nat) : (s.setO k v).holders = s.holders := rfl
@[simp] theorem State.setO_retiredPages (s : State) (k v : Nat) : (s.setO k v).retiredPages = s.retiredPages := rfl
@[simp] theorem State.setO_ctxTab (s : State) (k v : Nat) : (s.setO k v).ctxTab = s.ctxTab := rfl
@[simp] theorem State.setO_dom (s : State) (k v : Nat) : (s.setO k v).dom = s.dom := rfl
@[simp] theorem State.setO_obs (s : State) (k v : Nat) : (s.setO k v).obs = s.obs := rfl
@[simp] theorem State.setO_chans (s : State) (k v : Nat) : (s.setO k v).chans = s.chans := rfl
@[simp] theorem State.setO_reply (s : State) (k v : Nat) : (s.setO k v).reply = s.reply := rfl
@[simp] theorem State.setO_loop (s : State) (k v : Nat) : (s.setO k v).loop = s.loop := rfl
@[simp] theorem State.setO_sources (s : State) (k v : Nat) : (s.setO k v).sources = s.sources := rfl
@[simp] theorem State.setO_boot (s : State) (k v : Nat) : (s.setO k v).boot = s.boot := rfl
@[simp] theorem State.setO_lanes (s : State) (k v : Nat) : (s.setO k v).lanes = s.lanes := rfl
@[simp] theorem State.setO_rels (s : State) (k v : Nat) : (s.setO k v).rels = s.rels := rfl
@[simp] theorem State.setO_sent (s : State) (k v : Nat) : (s.setO k v).sent = s.sent := rfl
@[simp] theorem State.setO_cyclic (s : State) (k v : Nat) : (s.setO k v).cyclic = s.cyclic := rfl
@[simp] theorem State.setO_peers (s : State) (k v : Nat) : (s.setO k v).peers = s.peers := rfl
@[simp] theorem State.setO_writes (s : State) (k v : Nat) : (s.setO k v).writes = s.writes := rfl
@[simp] theorem State.setO_inWrites (s : State) (k v : Nat) : (s.setO k v).inWrites = s.inWrites := rfl
@[simp] theorem State.setO_attn (s : State) (k v : Nat) : (s.setO k v).attn = s.attn := rfl
@[simp] theorem State.setO_reqs (s : State) (k v : Nat) : (s.setO k v).reqs = s.reqs := rfl
@[simp] theorem State.setO_steps (s : State) (k v : Nat) : (s.setO k v).steps = s.steps := rfl
@[simp] theorem State.setO_stepLog (s : State) (k v : Nat) : (s.setO k v).stepLog = s.stepLog := rfl
@[simp] theorem State.setO_inject (s : State) (k v : Nat) : (s.setO k v).inject = s.inject := rfl
@[simp] theorem State.setO_masters (s : State) (k v : Nat) : (s.setO k v).masters = s.masters := rfl
@[simp] theorem State.setO_transfers (s : State) (k v : Nat) : (s.setO k v).transfers = s.transfers := rfl
@[simp] theorem State.setO_aborted (s : State) (k v : Nat) : (s.setO k v).aborted = s.aborted := rfl
@[simp] theorem State.setO_maps (s : State) (k v : Nat) : (s.setO k v).maps = s.maps := rfl
@[simp] theorem State.setO_invocations (s : State) (k v : Nat) : (s.setO k v).invocations = s.invocations := rfl
@[simp] theorem State.setO_saved (s : State) (k v : Nat) : (s.setO k v).saved = s.saved := rfl
@[simp] theorem State.setO_stoppingCtx (s : State) (k v : Nat) : (s.setO k v).stoppingCtx = s.stoppingCtx := rfl
@[simp] theorem State.setO_pins (s : State) (k v : Nat) : (s.setO k v).pins = s.pins := rfl
@[simp] theorem State.setO_fw (s : State) (k v : Nat) : (s.setO k v).fw = s.fw := rfl
@[simp] theorem State.setO_fuses (s : State) (k v : Nat) : (s.setO k v).fuses = s.fuses := rfl
@[simp] theorem State.setO_power (s : State) (k v : Nat) : (s.setO k v).power = s.power := rfl
@[simp] theorem State.setO_flash (s : State) (k v : Nat) : (s.setO k v).flash = s.flash := rfl
@[simp] theorem State.setO_repairs (s : State) (k v : Nat) : (s.setO k v).repairs = s.repairs := rfl
@[simp] theorem State.setO_adapts (s : State) (k v : Nat) : (s.setO k v).adapts = s.adapts := rfl
@[simp] theorem State.setO_submissions (s : State) (k v : Nat) : (s.setO k v).submissions = s.submissions := rfl
@[simp] theorem State.setO_cameras (s : State) (k v : Nat) : (s.setO k v).cameras = s.cameras := rfl
@[simp] theorem State.setO_tokenizer (s : State) (k v : Nat) : (s.setO k v).tokenizer = s.tokenizer := rfl
@[simp] theorem State.setO_responses (s : State) (k v : Nat) : (s.setO k v).responses = s.responses := rfl
@[simp] theorem State.setO_owned (s : State) (k v : Nat) : (s.setO k v).owned = s.owned := rfl

/-! ### setD -/
@[simp] theorem State.setD_pending (s : State) (k : Nat) (v : List Byte) : (s.setD k v).pending = s.pending := rfl
@[simp] theorem State.setD_free (s : State) (k : Nat) (v : List Byte) : (s.setD k v).free = s.free := rfl
@[simp] theorem State.setD_clk (s : State) (k : Nat) (v : List Byte) : (s.setD k v).clk = s.clk := rfl
@[simp] theorem State.setD_cores (s : State) (k : Nat) (v : List Byte) : (s.setD k v).cores = s.cores := rfl
@[simp] theorem State.setD_clusters (s : State) (k : Nat) (v : List Byte) : (s.setD k v).clusters = s.clusters := rfl
@[simp] theorem State.setD_hqs (s : State) (k : Nat) (v : List Byte) : (s.setD k v).hqs = s.hqs := rfl
@[simp] theorem State.setD_forwards (s : State) (k : Nat) (v : List Byte) : (s.setD k v).forwards = s.forwards := rfl
@[simp] theorem State.setD_credits (s : State) (k : Nat) (v : List Byte) : (s.setD k v).credits = s.credits := rfl
@[simp] theorem State.setD_ecc (s : State) (k : Nat) (v : List Byte) : (s.setD k v).ecc = s.ecc := rfl
@[simp] theorem State.setD_line (s : State) (k : Nat) (v : List Byte) : (s.setD k v).line = s.line := rfl
@[simp] theorem State.setD_omap (s : State) (k : Nat) (v : List Byte) : (s.setD k v).omap = s.omap := rfl
@[simp] theorem State.setD_wins (s : State) (k : Nat) (v : List Byte) : (s.setD k v).wins = s.wins := rfl
@[simp] theorem State.setD_closingWins (s : State) (k : Nat) (v : List Byte) : (s.setD k v).closingWins = s.closingWins := rfl
@[simp] theorem State.setD_rgns (s : State) (k : Nat) (v : List Byte) : (s.setD k v).rgns = s.rgns := rfl
@[simp] theorem State.setD_rgnNext (s : State) (k : Nat) (v : List Byte) : (s.setD k v).rgnNext = s.rgnNext := rfl
@[simp] theorem State.setD_holders (s : State) (k : Nat) (v : List Byte) : (s.setD k v).holders = s.holders := rfl
@[simp] theorem State.setD_retiredPages (s : State) (k : Nat) (v : List Byte) : (s.setD k v).retiredPages = s.retiredPages := rfl
@[simp] theorem State.setD_ctxTab (s : State) (k : Nat) (v : List Byte) : (s.setD k v).ctxTab = s.ctxTab := rfl
@[simp] theorem State.setD_obj (s : State) (k : Nat) (v : List Byte) : (s.setD k v).obj = s.obj := rfl
@[simp] theorem State.setD_obs (s : State) (k : Nat) (v : List Byte) : (s.setD k v).obs = s.obs := rfl
@[simp] theorem State.setD_chans (s : State) (k : Nat) (v : List Byte) : (s.setD k v).chans = s.chans := rfl
@[simp] theorem State.setD_reply (s : State) (k : Nat) (v : List Byte) : (s.setD k v).reply = s.reply := rfl
@[simp] theorem State.setD_loop (s : State) (k : Nat) (v : List Byte) : (s.setD k v).loop = s.loop := rfl
@[simp] theorem State.setD_sources (s : State) (k : Nat) (v : List Byte) : (s.setD k v).sources = s.sources := rfl
@[simp] theorem State.setD_boot (s : State) (k : Nat) (v : List Byte) : (s.setD k v).boot = s.boot := rfl
@[simp] theorem State.setD_lanes (s : State) (k : Nat) (v : List Byte) : (s.setD k v).lanes = s.lanes := rfl
@[simp] theorem State.setD_rels (s : State) (k : Nat) (v : List Byte) : (s.setD k v).rels = s.rels := rfl
@[simp] theorem State.setD_sent (s : State) (k : Nat) (v : List Byte) : (s.setD k v).sent = s.sent := rfl
@[simp] theorem State.setD_cyclic (s : State) (k : Nat) (v : List Byte) : (s.setD k v).cyclic = s.cyclic := rfl
@[simp] theorem State.setD_peers (s : State) (k : Nat) (v : List Byte) : (s.setD k v).peers = s.peers := rfl
@[simp] theorem State.setD_writes (s : State) (k : Nat) (v : List Byte) : (s.setD k v).writes = s.writes := rfl
@[simp] theorem State.setD_inWrites (s : State) (k : Nat) (v : List Byte) : (s.setD k v).inWrites = s.inWrites := rfl
@[simp] theorem State.setD_attn (s : State) (k : Nat) (v : List Byte) : (s.setD k v).attn = s.attn := rfl
@[simp] theorem State.setD_reqs (s : State) (k : Nat) (v : List Byte) : (s.setD k v).reqs = s.reqs := rfl
@[simp] theorem State.setD_steps (s : State) (k : Nat) (v : List Byte) : (s.setD k v).steps = s.steps := rfl
@[simp] theorem State.setD_stepLog (s : State) (k : Nat) (v : List Byte) : (s.setD k v).stepLog = s.stepLog := rfl
@[simp] theorem State.setD_inject (s : State) (k : Nat) (v : List Byte) : (s.setD k v).inject = s.inject := rfl
@[simp] theorem State.setD_masters (s : State) (k : Nat) (v : List Byte) : (s.setD k v).masters = s.masters := rfl
@[simp] theorem State.setD_transfers (s : State) (k : Nat) (v : List Byte) : (s.setD k v).transfers = s.transfers := rfl
@[simp] theorem State.setD_aborted (s : State) (k : Nat) (v : List Byte) : (s.setD k v).aborted = s.aborted := rfl
@[simp] theorem State.setD_maps (s : State) (k : Nat) (v : List Byte) : (s.setD k v).maps = s.maps := rfl
@[simp] theorem State.setD_invocations (s : State) (k : Nat) (v : List Byte) : (s.setD k v).invocations = s.invocations := rfl
@[simp] theorem State.setD_saved (s : State) (k : Nat) (v : List Byte) : (s.setD k v).saved = s.saved := rfl
@[simp] theorem State.setD_stoppingCtx (s : State) (k : Nat) (v : List Byte) : (s.setD k v).stoppingCtx = s.stoppingCtx := rfl
@[simp] theorem State.setD_pins (s : State) (k : Nat) (v : List Byte) : (s.setD k v).pins = s.pins := rfl
@[simp] theorem State.setD_fw (s : State) (k : Nat) (v : List Byte) : (s.setD k v).fw = s.fw := rfl
@[simp] theorem State.setD_fuses (s : State) (k : Nat) (v : List Byte) : (s.setD k v).fuses = s.fuses := rfl
@[simp] theorem State.setD_power (s : State) (k : Nat) (v : List Byte) : (s.setD k v).power = s.power := rfl
@[simp] theorem State.setD_flash (s : State) (k : Nat) (v : List Byte) : (s.setD k v).flash = s.flash := rfl
@[simp] theorem State.setD_repairs (s : State) (k : Nat) (v : List Byte) : (s.setD k v).repairs = s.repairs := rfl
@[simp] theorem State.setD_adapts (s : State) (k : Nat) (v : List Byte) : (s.setD k v).adapts = s.adapts := rfl
@[simp] theorem State.setD_submissions (s : State) (k : Nat) (v : List Byte) : (s.setD k v).submissions = s.submissions := rfl
@[simp] theorem State.setD_cameras (s : State) (k : Nat) (v : List Byte) : (s.setD k v).cameras = s.cameras := rfl
@[simp] theorem State.setD_tokenizer (s : State) (k : Nat) (v : List Byte) : (s.setD k v).tokenizer = s.tokenizer := rfl
@[simp] theorem State.setD_responses (s : State) (k : Nat) (v : List Byte) : (s.setD k v).responses = s.responses := rfl
@[simp] theorem State.setD_owned (s : State) (k : Nat) (v : List Byte) : (s.setD k v).owned = s.owned := rfl

/-! ### poke -/
@[simp] theorem State.poke_pending (s : State) (a : Nat) (l : List Byte) : (s.poke a l).pending = s.pending := rfl
@[simp] theorem State.poke_free (s : State) (a : Nat) (l : List Byte) : (s.poke a l).free = s.free := rfl
@[simp] theorem State.poke_clk (s : State) (a : Nat) (l : List Byte) : (s.poke a l).clk = s.clk := rfl
@[simp] theorem State.poke_cores (s : State) (a : Nat) (l : List Byte) : (s.poke a l).cores = s.cores := rfl
@[simp] theorem State.poke_clusters (s : State) (a : Nat) (l : List Byte) : (s.poke a l).clusters = s.clusters := rfl
@[simp] theorem State.poke_hqs (s : State) (a : Nat) (l : List Byte) : (s.poke a l).hqs = s.hqs := rfl
@[simp] theorem State.poke_forwards (s : State) (a : Nat) (l : List Byte) : (s.poke a l).forwards = s.forwards := rfl
@[simp] theorem State.poke_credits (s : State) (a : Nat) (l : List Byte) : (s.poke a l).credits = s.credits := rfl
@[simp] theorem State.poke_ecc (s : State) (a : Nat) (l : List Byte) : (s.poke a l).ecc = s.ecc := rfl
@[simp] theorem State.poke_line (s : State) (a : Nat) (l : List Byte) : (s.poke a l).line = s.line := rfl
@[simp] theorem State.poke_omap (s : State) (a : Nat) (l : List Byte) : (s.poke a l).omap = s.omap := rfl
@[simp] theorem State.poke_wins (s : State) (a : Nat) (l : List Byte) : (s.poke a l).wins = s.wins := rfl
@[simp] theorem State.poke_closingWins (s : State) (a : Nat) (l : List Byte) : (s.poke a l).closingWins = s.closingWins := rfl
@[simp] theorem State.poke_rgns (s : State) (a : Nat) (l : List Byte) : (s.poke a l).rgns = s.rgns := rfl
@[simp] theorem State.poke_rgnNext (s : State) (a : Nat) (l : List Byte) : (s.poke a l).rgnNext = s.rgnNext := rfl
@[simp] theorem State.poke_holders (s : State) (a : Nat) (l : List Byte) : (s.poke a l).holders = s.holders := rfl
@[simp] theorem State.poke_retiredPages (s : State) (a : Nat) (l : List Byte) : (s.poke a l).retiredPages = s.retiredPages := rfl
@[simp] theorem State.poke_ctxTab (s : State) (a : Nat) (l : List Byte) : (s.poke a l).ctxTab = s.ctxTab := rfl
@[simp] theorem State.poke_obj (s : State) (a : Nat) (l : List Byte) : (s.poke a l).obj = s.obj := rfl
@[simp] theorem State.poke_dom (s : State) (a : Nat) (l : List Byte) : (s.poke a l).dom = s.dom := rfl
@[simp] theorem State.poke_obs (s : State) (a : Nat) (l : List Byte) : (s.poke a l).obs = s.obs := rfl
@[simp] theorem State.poke_chans (s : State) (a : Nat) (l : List Byte) : (s.poke a l).chans = s.chans := rfl
@[simp] theorem State.poke_reply (s : State) (a : Nat) (l : List Byte) : (s.poke a l).reply = s.reply := rfl
@[simp] theorem State.poke_loop (s : State) (a : Nat) (l : List Byte) : (s.poke a l).loop = s.loop := rfl
@[simp] theorem State.poke_sources (s : State) (a : Nat) (l : List Byte) : (s.poke a l).sources = s.sources := rfl
@[simp] theorem State.poke_boot (s : State) (a : Nat) (l : List Byte) : (s.poke a l).boot = s.boot := rfl
@[simp] theorem State.poke_lanes (s : State) (a : Nat) (l : List Byte) : (s.poke a l).lanes = s.lanes := rfl
@[simp] theorem State.poke_rels (s : State) (a : Nat) (l : List Byte) : (s.poke a l).rels = s.rels := rfl
@[simp] theorem State.poke_sent (s : State) (a : Nat) (l : List Byte) : (s.poke a l).sent = s.sent := rfl
@[simp] theorem State.poke_cyclic (s : State) (a : Nat) (l : List Byte) : (s.poke a l).cyclic = s.cyclic := rfl
@[simp] theorem State.poke_peers (s : State) (a : Nat) (l : List Byte) : (s.poke a l).peers = s.peers := rfl
@[simp] theorem State.poke_writes (s : State) (a : Nat) (l : List Byte) : (s.poke a l).writes = s.writes := rfl
@[simp] theorem State.poke_inWrites (s : State) (a : Nat) (l : List Byte) : (s.poke a l).inWrites = s.inWrites := rfl
@[simp] theorem State.poke_attn (s : State) (a : Nat) (l : List Byte) : (s.poke a l).attn = s.attn := rfl
@[simp] theorem State.poke_reqs (s : State) (a : Nat) (l : List Byte) : (s.poke a l).reqs = s.reqs := rfl
@[simp] theorem State.poke_steps (s : State) (a : Nat) (l : List Byte) : (s.poke a l).steps = s.steps := rfl
@[simp] theorem State.poke_stepLog (s : State) (a : Nat) (l : List Byte) : (s.poke a l).stepLog = s.stepLog := rfl
@[simp] theorem State.poke_inject (s : State) (a : Nat) (l : List Byte) : (s.poke a l).inject = s.inject := rfl
@[simp] theorem State.poke_masters (s : State) (a : Nat) (l : List Byte) : (s.poke a l).masters = s.masters := rfl
@[simp] theorem State.poke_transfers (s : State) (a : Nat) (l : List Byte) : (s.poke a l).transfers = s.transfers := rfl
@[simp] theorem State.poke_aborted (s : State) (a : Nat) (l : List Byte) : (s.poke a l).aborted = s.aborted := rfl
@[simp] theorem State.poke_maps (s : State) (a : Nat) (l : List Byte) : (s.poke a l).maps = s.maps := rfl
@[simp] theorem State.poke_invocations (s : State) (a : Nat) (l : List Byte) : (s.poke a l).invocations = s.invocations := rfl
@[simp] theorem State.poke_saved (s : State) (a : Nat) (l : List Byte) : (s.poke a l).saved = s.saved := rfl
@[simp] theorem State.poke_stoppingCtx (s : State) (a : Nat) (l : List Byte) : (s.poke a l).stoppingCtx = s.stoppingCtx := rfl
@[simp] theorem State.poke_pins (s : State) (a : Nat) (l : List Byte) : (s.poke a l).pins = s.pins := rfl
@[simp] theorem State.poke_fw (s : State) (a : Nat) (l : List Byte) : (s.poke a l).fw = s.fw := rfl
@[simp] theorem State.poke_fuses (s : State) (a : Nat) (l : List Byte) : (s.poke a l).fuses = s.fuses := rfl
@[simp] theorem State.poke_power (s : State) (a : Nat) (l : List Byte) : (s.poke a l).power = s.power := rfl
@[simp] theorem State.poke_flash (s : State) (a : Nat) (l : List Byte) : (s.poke a l).flash = s.flash := rfl
@[simp] theorem State.poke_repairs (s : State) (a : Nat) (l : List Byte) : (s.poke a l).repairs = s.repairs := rfl
@[simp] theorem State.poke_adapts (s : State) (a : Nat) (l : List Byte) : (s.poke a l).adapts = s.adapts := rfl
@[simp] theorem State.poke_submissions (s : State) (a : Nat) (l : List Byte) : (s.poke a l).submissions = s.submissions := rfl
@[simp] theorem State.poke_cameras (s : State) (a : Nat) (l : List Byte) : (s.poke a l).cameras = s.cameras := rfl
@[simp] theorem State.poke_tokenizer (s : State) (a : Nat) (l : List Byte) : (s.poke a l).tokenizer = s.tokenizer := rfl
@[simp] theorem State.poke_responses (s : State) (a : Nat) (l : List Byte) : (s.poke a l).responses = s.responses := rfl
@[simp] theorem State.poke_owned (s : State) (a : Nat) (l : List Byte) : (s.poke a l).owned = s.owned := rfl

/-! ### event -/
@[simp] theorem State.event_pending (s : State) (code unit k : Nat) : (s.event code unit k).pending = s.pending := rfl
@[simp] theorem State.event_free (s : State) (code unit k : Nat) : (s.event code unit k).free = s.free := rfl
@[simp] theorem State.event_clk (s : State) (code unit k : Nat) : (s.event code unit k).clk = s.clk := rfl
@[simp] theorem State.event_cores (s : State) (code unit k : Nat) : (s.event code unit k).cores = s.cores := rfl
@[simp] theorem State.event_clusters (s : State) (code unit k : Nat) : (s.event code unit k).clusters = s.clusters := rfl
@[simp] theorem State.event_hqs (s : State) (code unit k : Nat) : (s.event code unit k).hqs = s.hqs := rfl
@[simp] theorem State.event_forwards (s : State) (code unit k : Nat) : (s.event code unit k).forwards = s.forwards := rfl
@[simp] theorem State.event_credits (s : State) (code unit k : Nat) : (s.event code unit k).credits = s.credits := rfl
@[simp] theorem State.event_ecc (s : State) (code unit k : Nat) : (s.event code unit k).ecc = s.ecc := rfl
@[simp] theorem State.event_line (s : State) (code unit k : Nat) : (s.event code unit k).line = s.line := rfl
@[simp] theorem State.event_omap (s : State) (code unit k : Nat) : (s.event code unit k).omap = s.omap := rfl
@[simp] theorem State.event_wins (s : State) (code unit k : Nat) : (s.event code unit k).wins = s.wins := rfl
@[simp] theorem State.event_closingWins (s : State) (code unit k : Nat) : (s.event code unit k).closingWins = s.closingWins := rfl
@[simp] theorem State.event_rgns (s : State) (code unit k : Nat) : (s.event code unit k).rgns = s.rgns := rfl
@[simp] theorem State.event_rgnNext (s : State) (code unit k : Nat) : (s.event code unit k).rgnNext = s.rgnNext := rfl
@[simp] theorem State.event_holders (s : State) (code unit k : Nat) : (s.event code unit k).holders = s.holders := rfl
@[simp] theorem State.event_retiredPages (s : State) (code unit k : Nat) : (s.event code unit k).retiredPages = s.retiredPages := rfl
@[simp] theorem State.event_ctxTab (s : State) (code unit k : Nat) : (s.event code unit k).ctxTab = s.ctxTab := rfl
@[simp] theorem State.event_obj (s : State) (code unit k : Nat) : (s.event code unit k).obj = s.obj := rfl
@[simp] theorem State.event_dom (s : State) (code unit k : Nat) : (s.event code unit k).dom = s.dom := rfl
@[simp] theorem State.event_chans (s : State) (code unit k : Nat) : (s.event code unit k).chans = s.chans := rfl
@[simp] theorem State.event_reply (s : State) (code unit k : Nat) : (s.event code unit k).reply = s.reply := rfl
@[simp] theorem State.event_loop (s : State) (code unit k : Nat) : (s.event code unit k).loop = s.loop := rfl
@[simp] theorem State.event_sources (s : State) (code unit k : Nat) : (s.event code unit k).sources = s.sources := rfl
@[simp] theorem State.event_boot (s : State) (code unit k : Nat) : (s.event code unit k).boot = s.boot := rfl
@[simp] theorem State.event_lanes (s : State) (code unit k : Nat) : (s.event code unit k).lanes = s.lanes := rfl
@[simp] theorem State.event_rels (s : State) (code unit k : Nat) : (s.event code unit k).rels = s.rels := rfl
@[simp] theorem State.event_sent (s : State) (code unit k : Nat) : (s.event code unit k).sent = s.sent := rfl
@[simp] theorem State.event_cyclic (s : State) (code unit k : Nat) : (s.event code unit k).cyclic = s.cyclic := rfl
@[simp] theorem State.event_peers (s : State) (code unit k : Nat) : (s.event code unit k).peers = s.peers := rfl
@[simp] theorem State.event_writes (s : State) (code unit k : Nat) : (s.event code unit k).writes = s.writes := rfl
@[simp] theorem State.event_inWrites (s : State) (code unit k : Nat) : (s.event code unit k).inWrites = s.inWrites := rfl
@[simp] theorem State.event_attn (s : State) (code unit k : Nat) : (s.event code unit k).attn = s.attn := rfl
@[simp] theorem State.event_reqs (s : State) (code unit k : Nat) : (s.event code unit k).reqs = s.reqs := rfl
@[simp] theorem State.event_steps (s : State) (code unit k : Nat) : (s.event code unit k).steps = s.steps := rfl
@[simp] theorem State.event_stepLog (s : State) (code unit k : Nat) : (s.event code unit k).stepLog = s.stepLog := rfl
@[simp] theorem State.event_inject (s : State) (code unit k : Nat) : (s.event code unit k).inject = s.inject := rfl
@[simp] theorem State.event_masters (s : State) (code unit k : Nat) : (s.event code unit k).masters = s.masters := rfl
@[simp] theorem State.event_transfers (s : State) (code unit k : Nat) : (s.event code unit k).transfers = s.transfers := rfl
@[simp] theorem State.event_aborted (s : State) (code unit k : Nat) : (s.event code unit k).aborted = s.aborted := rfl
@[simp] theorem State.event_maps (s : State) (code unit k : Nat) : (s.event code unit k).maps = s.maps := rfl
@[simp] theorem State.event_invocations (s : State) (code unit k : Nat) : (s.event code unit k).invocations = s.invocations := rfl
@[simp] theorem State.event_saved (s : State) (code unit k : Nat) : (s.event code unit k).saved = s.saved := rfl
@[simp] theorem State.event_stoppingCtx (s : State) (code unit k : Nat) : (s.event code unit k).stoppingCtx = s.stoppingCtx := rfl
@[simp] theorem State.event_pins (s : State) (code unit k : Nat) : (s.event code unit k).pins = s.pins := rfl
@[simp] theorem State.event_fw (s : State) (code unit k : Nat) : (s.event code unit k).fw = s.fw := rfl
@[simp] theorem State.event_fuses (s : State) (code unit k : Nat) : (s.event code unit k).fuses = s.fuses := rfl
@[simp] theorem State.event_power (s : State) (code unit k : Nat) : (s.event code unit k).power = s.power := rfl
@[simp] theorem State.event_flash (s : State) (code unit k : Nat) : (s.event code unit k).flash = s.flash := rfl
@[simp] theorem State.event_repairs (s : State) (code unit k : Nat) : (s.event code unit k).repairs = s.repairs := rfl
@[simp] theorem State.event_adapts (s : State) (code unit k : Nat) : (s.event code unit k).adapts = s.adapts := rfl
@[simp] theorem State.event_submissions (s : State) (code unit k : Nat) : (s.event code unit k).submissions = s.submissions := rfl
@[simp] theorem State.event_cameras (s : State) (code unit k : Nat) : (s.event code unit k).cameras = s.cameras := rfl
@[simp] theorem State.event_tokenizer (s : State) (code unit k : Nat) : (s.event code unit k).tokenizer = s.tokenizer := rfl
@[simp] theorem State.event_responses (s : State) (code unit k : Nat) : (s.event code unit k).responses = s.responses := rfl
@[simp] theorem State.event_owned (s : State) (code unit k : Nat) : (s.event code unit k).owned = s.owned := rfl

/-! ### setChan -/
@[simp] theorem State.setChan_pending (s : State) (c : Nat) (x : Channel) : (s.setChan c x).pending = s.pending := rfl
@[simp] theorem State.setChan_free (s : State) (c : Nat) (x : Channel) : (s.setChan c x).free = s.free := rfl
@[simp] theorem State.setChan_clk (s : State) (c : Nat) (x : Channel) : (s.setChan c x).clk = s.clk := rfl
@[simp] theorem State.setChan_cores (s : State) (c : Nat) (x : Channel) : (s.setChan c x).cores = s.cores := rfl
@[simp] theorem State.setChan_clusters (s : State) (c : Nat) (x : Channel) : (s.setChan c x).clusters = s.clusters := rfl
@[simp] theorem State.setChan_hqs (s : State) (c : Nat) (x : Channel) : (s.setChan c x).hqs = s.hqs := rfl
@[simp] theorem State.setChan_forwards (s : State) (c : Nat) (x : Channel) : (s.setChan c x).forwards = s.forwards := rfl
@[simp] theorem State.setChan_credits (s : State) (c : Nat) (x : Channel) : (s.setChan c x).credits = s.credits := rfl
@[simp] theorem State.setChan_ecc (s : State) (c : Nat) (x : Channel) : (s.setChan c x).ecc = s.ecc := rfl
@[simp] theorem State.setChan_line (s : State) (c : Nat) (x : Channel) : (s.setChan c x).line = s.line := rfl
@[simp] theorem State.setChan_omap (s : State) (c : Nat) (x : Channel) : (s.setChan c x).omap = s.omap := rfl
@[simp] theorem State.setChan_wins (s : State) (c : Nat) (x : Channel) : (s.setChan c x).wins = s.wins := rfl
@[simp] theorem State.setChan_closingWins (s : State) (c : Nat) (x : Channel) : (s.setChan c x).closingWins = s.closingWins := rfl
@[simp] theorem State.setChan_rgns (s : State) (c : Nat) (x : Channel) : (s.setChan c x).rgns = s.rgns := rfl
@[simp] theorem State.setChan_rgnNext (s : State) (c : Nat) (x : Channel) : (s.setChan c x).rgnNext = s.rgnNext := rfl
@[simp] theorem State.setChan_holders (s : State) (c : Nat) (x : Channel) : (s.setChan c x).holders = s.holders := rfl
@[simp] theorem State.setChan_retiredPages (s : State) (c : Nat) (x : Channel) : (s.setChan c x).retiredPages = s.retiredPages := rfl
@[simp] theorem State.setChan_ctxTab (s : State) (c : Nat) (x : Channel) : (s.setChan c x).ctxTab = s.ctxTab := rfl
@[simp] theorem State.setChan_obj (s : State) (c : Nat) (x : Channel) : (s.setChan c x).obj = s.obj := rfl
@[simp] theorem State.setChan_dom (s : State) (c : Nat) (x : Channel) : (s.setChan c x).dom = s.dom := rfl
@[simp] theorem State.setChan_obs (s : State) (c : Nat) (x : Channel) : (s.setChan c x).obs = s.obs := rfl
@[simp] theorem State.setChan_reply (s : State) (c : Nat) (x : Channel) : (s.setChan c x).reply = s.reply := rfl
@[simp] theorem State.setChan_loop (s : State) (c : Nat) (x : Channel) : (s.setChan c x).loop = s.loop := rfl
@[simp] theorem State.setChan_sources (s : State) (c : Nat) (x : Channel) : (s.setChan c x).sources = s.sources := rfl
@[simp] theorem State.setChan_boot (s : State) (c : Nat) (x : Channel) : (s.setChan c x).boot = s.boot := rfl
@[simp] theorem State.setChan_lanes (s : State) (c : Nat) (x : Channel) : (s.setChan c x).lanes = s.lanes := rfl
@[simp] theorem State.setChan_rels (s : State) (c : Nat) (x : Channel) : (s.setChan c x).rels = s.rels := rfl
@[simp] theorem State.setChan_sent (s : State) (c : Nat) (x : Channel) : (s.setChan c x).sent = s.sent := rfl
@[simp] theorem State.setChan_cyclic (s : State) (c : Nat) (x : Channel) : (s.setChan c x).cyclic = s.cyclic := rfl
@[simp] theorem State.setChan_peers (s : State) (c : Nat) (x : Channel) : (s.setChan c x).peers = s.peers := rfl
@[simp] theorem State.setChan_writes (s : State) (c : Nat) (x : Channel) : (s.setChan c x).writes = s.writes := rfl
@[simp] theorem State.setChan_inWrites (s : State) (c : Nat) (x : Channel) : (s.setChan c x).inWrites = s.inWrites := rfl
@[simp] theorem State.setChan_attn (s : State) (c : Nat) (x : Channel) : (s.setChan c x).attn = s.attn := rfl
@[simp] theorem State.setChan_reqs (s : State) (c : Nat) (x : Channel) : (s.setChan c x).reqs = s.reqs := rfl
@[simp] theorem State.setChan_steps (s : State) (c : Nat) (x : Channel) : (s.setChan c x).steps = s.steps := rfl
@[simp] theorem State.setChan_stepLog (s : State) (c : Nat) (x : Channel) : (s.setChan c x).stepLog = s.stepLog := rfl
@[simp] theorem State.setChan_inject (s : State) (c : Nat) (x : Channel) : (s.setChan c x).inject = s.inject := rfl
@[simp] theorem State.setChan_masters (s : State) (c : Nat) (x : Channel) : (s.setChan c x).masters = s.masters := rfl
@[simp] theorem State.setChan_transfers (s : State) (c : Nat) (x : Channel) : (s.setChan c x).transfers = s.transfers := rfl
@[simp] theorem State.setChan_aborted (s : State) (c : Nat) (x : Channel) : (s.setChan c x).aborted = s.aborted := rfl
@[simp] theorem State.setChan_maps (s : State) (c : Nat) (x : Channel) : (s.setChan c x).maps = s.maps := rfl
@[simp] theorem State.setChan_invocations (s : State) (c : Nat) (x : Channel) : (s.setChan c x).invocations = s.invocations := rfl
@[simp] theorem State.setChan_saved (s : State) (c : Nat) (x : Channel) : (s.setChan c x).saved = s.saved := rfl
@[simp] theorem State.setChan_stoppingCtx (s : State) (c : Nat) (x : Channel) : (s.setChan c x).stoppingCtx = s.stoppingCtx := rfl
@[simp] theorem State.setChan_pins (s : State) (c : Nat) (x : Channel) : (s.setChan c x).pins = s.pins := rfl
@[simp] theorem State.setChan_fw (s : State) (c : Nat) (x : Channel) : (s.setChan c x).fw = s.fw := rfl
@[simp] theorem State.setChan_fuses (s : State) (c : Nat) (x : Channel) : (s.setChan c x).fuses = s.fuses := rfl
@[simp] theorem State.setChan_power (s : State) (c : Nat) (x : Channel) : (s.setChan c x).power = s.power := rfl
@[simp] theorem State.setChan_flash (s : State) (c : Nat) (x : Channel) : (s.setChan c x).flash = s.flash := rfl
@[simp] theorem State.setChan_repairs (s : State) (c : Nat) (x : Channel) : (s.setChan c x).repairs = s.repairs := rfl
@[simp] theorem State.setChan_adapts (s : State) (c : Nat) (x : Channel) : (s.setChan c x).adapts = s.adapts := rfl
@[simp] theorem State.setChan_submissions (s : State) (c : Nat) (x : Channel) : (s.setChan c x).submissions = s.submissions := rfl
@[simp] theorem State.setChan_cameras (s : State) (c : Nat) (x : Channel) : (s.setChan c x).cameras = s.cameras := rfl
@[simp] theorem State.setChan_tokenizer (s : State) (c : Nat) (x : Channel) : (s.setChan c x).tokenizer = s.tokenizer := rfl
@[simp] theorem State.setChan_responses (s : State) (c : Nat) (x : Channel) : (s.setChan c x).responses = s.responses := rfl
@[simp] theorem State.setChan_owned (s : State) (c : Nat) (x : Channel) : (s.setChan c x).owned = s.owned := rfl

/-! ### putLane -/
@[simp] theorem State.putLane_pending (s : State) (i : Nat) (x : Lane) : (s.putLane i x).pending = s.pending := rfl
@[simp] theorem State.putLane_free (s : State) (i : Nat) (x : Lane) : (s.putLane i x).free = s.free := rfl
@[simp] theorem State.putLane_clk (s : State) (i : Nat) (x : Lane) : (s.putLane i x).clk = s.clk := rfl
@[simp] theorem State.putLane_cores (s : State) (i : Nat) (x : Lane) : (s.putLane i x).cores = s.cores := rfl
@[simp] theorem State.putLane_clusters (s : State) (i : Nat) (x : Lane) : (s.putLane i x).clusters = s.clusters := rfl
@[simp] theorem State.putLane_hqs (s : State) (i : Nat) (x : Lane) : (s.putLane i x).hqs = s.hqs := rfl
@[simp] theorem State.putLane_forwards (s : State) (i : Nat) (x : Lane) : (s.putLane i x).forwards = s.forwards := rfl
@[simp] theorem State.putLane_credits (s : State) (i : Nat) (x : Lane) : (s.putLane i x).credits = s.credits := rfl
@[simp] theorem State.putLane_ecc (s : State) (i : Nat) (x : Lane) : (s.putLane i x).ecc = s.ecc := rfl
@[simp] theorem State.putLane_line (s : State) (i : Nat) (x : Lane) : (s.putLane i x).line = s.line := rfl
@[simp] theorem State.putLane_omap (s : State) (i : Nat) (x : Lane) : (s.putLane i x).omap = s.omap := rfl
@[simp] theorem State.putLane_wins (s : State) (i : Nat) (x : Lane) : (s.putLane i x).wins = s.wins := rfl
@[simp] theorem State.putLane_closingWins (s : State) (i : Nat) (x : Lane) : (s.putLane i x).closingWins = s.closingWins := rfl
@[simp] theorem State.putLane_rgns (s : State) (i : Nat) (x : Lane) : (s.putLane i x).rgns = s.rgns := rfl
@[simp] theorem State.putLane_rgnNext (s : State) (i : Nat) (x : Lane) : (s.putLane i x).rgnNext = s.rgnNext := rfl
@[simp] theorem State.putLane_holders (s : State) (i : Nat) (x : Lane) : (s.putLane i x).holders = s.holders := rfl
@[simp] theorem State.putLane_retiredPages (s : State) (i : Nat) (x : Lane) : (s.putLane i x).retiredPages = s.retiredPages := rfl
@[simp] theorem State.putLane_ctxTab (s : State) (i : Nat) (x : Lane) : (s.putLane i x).ctxTab = s.ctxTab := rfl
@[simp] theorem State.putLane_obj (s : State) (i : Nat) (x : Lane) : (s.putLane i x).obj = s.obj := rfl
@[simp] theorem State.putLane_dom (s : State) (i : Nat) (x : Lane) : (s.putLane i x).dom = s.dom := rfl
@[simp] theorem State.putLane_obs (s : State) (i : Nat) (x : Lane) : (s.putLane i x).obs = s.obs := rfl
@[simp] theorem State.putLane_chans (s : State) (i : Nat) (x : Lane) : (s.putLane i x).chans = s.chans := rfl
@[simp] theorem State.putLane_reply (s : State) (i : Nat) (x : Lane) : (s.putLane i x).reply = s.reply := rfl
@[simp] theorem State.putLane_loop (s : State) (i : Nat) (x : Lane) : (s.putLane i x).loop = s.loop := rfl
@[simp] theorem State.putLane_sources (s : State) (i : Nat) (x : Lane) : (s.putLane i x).sources = s.sources := rfl
@[simp] theorem State.putLane_boot (s : State) (i : Nat) (x : Lane) : (s.putLane i x).boot = s.boot := rfl
@[simp] theorem State.putLane_rels (s : State) (i : Nat) (x : Lane) : (s.putLane i x).rels = s.rels := rfl
@[simp] theorem State.putLane_sent (s : State) (i : Nat) (x : Lane) : (s.putLane i x).sent = s.sent := rfl
@[simp] theorem State.putLane_cyclic (s : State) (i : Nat) (x : Lane) : (s.putLane i x).cyclic = s.cyclic := rfl
@[simp] theorem State.putLane_peers (s : State) (i : Nat) (x : Lane) : (s.putLane i x).peers = s.peers := rfl
@[simp] theorem State.putLane_writes (s : State) (i : Nat) (x : Lane) : (s.putLane i x).writes = s.writes := rfl
@[simp] theorem State.putLane_inWrites (s : State) (i : Nat) (x : Lane) : (s.putLane i x).inWrites = s.inWrites := rfl
@[simp] theorem State.putLane_attn (s : State) (i : Nat) (x : Lane) : (s.putLane i x).attn = s.attn := rfl
@[simp] theorem State.putLane_reqs (s : State) (i : Nat) (x : Lane) : (s.putLane i x).reqs = s.reqs := rfl
@[simp] theorem State.putLane_steps (s : State) (i : Nat) (x : Lane) : (s.putLane i x).steps = s.steps := rfl
@[simp] theorem State.putLane_stepLog (s : State) (i : Nat) (x : Lane) : (s.putLane i x).stepLog = s.stepLog := rfl
@[simp] theorem State.putLane_inject (s : State) (i : Nat) (x : Lane) : (s.putLane i x).inject = s.inject := rfl
@[simp] theorem State.putLane_masters (s : State) (i : Nat) (x : Lane) : (s.putLane i x).masters = s.masters := rfl
@[simp] theorem State.putLane_transfers (s : State) (i : Nat) (x : Lane) : (s.putLane i x).transfers = s.transfers := rfl
@[simp] theorem State.putLane_aborted (s : State) (i : Nat) (x : Lane) : (s.putLane i x).aborted = s.aborted := rfl
@[simp] theorem State.putLane_maps (s : State) (i : Nat) (x : Lane) : (s.putLane i x).maps = s.maps := rfl
@[simp] theorem State.putLane_invocations (s : State) (i : Nat) (x : Lane) : (s.putLane i x).invocations = s.invocations := rfl
@[simp] theorem State.putLane_saved (s : State) (i : Nat) (x : Lane) : (s.putLane i x).saved = s.saved := rfl
@[simp] theorem State.putLane_stoppingCtx (s : State) (i : Nat) (x : Lane) : (s.putLane i x).stoppingCtx = s.stoppingCtx := rfl
@[simp] theorem State.putLane_pins (s : State) (i : Nat) (x : Lane) : (s.putLane i x).pins = s.pins := rfl
@[simp] theorem State.putLane_fw (s : State) (i : Nat) (x : Lane) : (s.putLane i x).fw = s.fw := rfl
@[simp] theorem State.putLane_fuses (s : State) (i : Nat) (x : Lane) : (s.putLane i x).fuses = s.fuses := rfl
@[simp] theorem State.putLane_power (s : State) (i : Nat) (x : Lane) : (s.putLane i x).power = s.power := rfl
@[simp] theorem State.putLane_flash (s : State) (i : Nat) (x : Lane) : (s.putLane i x).flash = s.flash := rfl
@[simp] theorem State.putLane_repairs (s : State) (i : Nat) (x : Lane) : (s.putLane i x).repairs = s.repairs := rfl
@[simp] theorem State.putLane_adapts (s : State) (i : Nat) (x : Lane) : (s.putLane i x).adapts = s.adapts := rfl
@[simp] theorem State.putLane_submissions (s : State) (i : Nat) (x : Lane) : (s.putLane i x).submissions = s.submissions := rfl
@[simp] theorem State.putLane_cameras (s : State) (i : Nat) (x : Lane) : (s.putLane i x).cameras = s.cameras := rfl
@[simp] theorem State.putLane_tokenizer (s : State) (i : Nat) (x : Lane) : (s.putLane i x).tokenizer = s.tokenizer := rfl
@[simp] theorem State.putLane_responses (s : State) (i : Nat) (x : Lane) : (s.putLane i x).responses = s.responses := rfl
@[simp] theorem State.putLane_owned (s : State) (i : Nat) (x : Lane) : (s.putLane i x).owned = s.owned := rfl

/-! ### setRel -/
@[simp] theorem State.setRel_pending (s : State) (lane ch : Nat) (x : RelChan) : (s.setRel lane ch x).pending = s.pending := rfl
@[simp] theorem State.setRel_free (s : State) (lane ch : Nat) (x : RelChan) : (s.setRel lane ch x).free = s.free := rfl
@[simp] theorem State.setRel_clk (s : State) (lane ch : Nat) (x : RelChan) : (s.setRel lane ch x).clk = s.clk := rfl
@[simp] theorem State.setRel_cores (s : State) (lane ch : Nat) (x : RelChan) : (s.setRel lane ch x).cores = s.cores := rfl
@[simp] theorem State.setRel_clusters (s : State) (lane ch : Nat) (x : RelChan) : (s.setRel lane ch x).clusters = s.clusters := rfl
@[simp] theorem State.setRel_hqs (s : State) (lane ch : Nat) (x : RelChan) : (s.setRel lane ch x).hqs = s.hqs := rfl
@[simp] theorem State.setRel_forwards (s : State) (lane ch : Nat) (x : RelChan) : (s.setRel lane ch x).forwards = s.forwards := rfl
@[simp] theorem State.setRel_credits (s : State) (lane ch : Nat) (x : RelChan) : (s.setRel lane ch x).credits = s.credits := rfl
@[simp] theorem State.setRel_ecc (s : State) (lane ch : Nat) (x : RelChan) : (s.setRel lane ch x).ecc = s.ecc := rfl
@[simp] theorem State.setRel_line (s : State) (lane ch : Nat) (x : RelChan) : (s.setRel lane ch x).line = s.line := rfl
@[simp] theorem State.setRel_omap (s : State) (lane ch : Nat) (x : RelChan) : (s.setRel lane ch x).omap = s.omap := rfl
@[simp] theorem State.setRel_wins (s : State) (lane ch : Nat) (x : RelChan) : (s.setRel lane ch x).wins = s.wins := rfl
@[simp] theorem State.setRel_closingWins (s : State) (lane ch : Nat) (x : RelChan) : (s.setRel lane ch x).closingWins = s.closingWins := rfl
@[simp] theorem State.setRel_rgns (s : State) (lane ch : Nat) (x : RelChan) : (s.setRel lane ch x).rgns = s.rgns := rfl
@[simp] theorem State.setRel_rgnNext (s : State) (lane ch : Nat) (x : RelChan) : (s.setRel lane ch x).rgnNext = s.rgnNext := rfl
@[simp] theorem State.setRel_holders (s : State) (lane ch : Nat) (x : RelChan) : (s.setRel lane ch x).holders = s.holders := rfl
@[simp] theorem State.setRel_retiredPages (s : State) (lane ch : Nat) (x : RelChan) : (s.setRel lane ch x).retiredPages = s.retiredPages := rfl
@[simp] theorem State.setRel_ctxTab (s : State) (lane ch : Nat) (x : RelChan) : (s.setRel lane ch x).ctxTab = s.ctxTab := rfl
@[simp] theorem State.setRel_obj (s : State) (lane ch : Nat) (x : RelChan) : (s.setRel lane ch x).obj = s.obj := rfl
@[simp] theorem State.setRel_dom (s : State) (lane ch : Nat) (x : RelChan) : (s.setRel lane ch x).dom = s.dom := rfl
@[simp] theorem State.setRel_obs (s : State) (lane ch : Nat) (x : RelChan) : (s.setRel lane ch x).obs = s.obs := rfl
@[simp] theorem State.setRel_chans (s : State) (lane ch : Nat) (x : RelChan) : (s.setRel lane ch x).chans = s.chans := rfl
@[simp] theorem State.setRel_reply (s : State) (lane ch : Nat) (x : RelChan) : (s.setRel lane ch x).reply = s.reply := rfl
@[simp] theorem State.setRel_loop (s : State) (lane ch : Nat) (x : RelChan) : (s.setRel lane ch x).loop = s.loop := rfl
@[simp] theorem State.setRel_sources (s : State) (lane ch : Nat) (x : RelChan) : (s.setRel lane ch x).sources = s.sources := rfl
@[simp] theorem State.setRel_boot (s : State) (lane ch : Nat) (x : RelChan) : (s.setRel lane ch x).boot = s.boot := rfl
@[simp] theorem State.setRel_lanes (s : State) (lane ch : Nat) (x : RelChan) : (s.setRel lane ch x).lanes = s.lanes := rfl
@[simp] theorem State.setRel_sent (s : State) (lane ch : Nat) (x : RelChan) : (s.setRel lane ch x).sent = s.sent := rfl
@[simp] theorem State.setRel_cyclic (s : State) (lane ch : Nat) (x : RelChan) : (s.setRel lane ch x).cyclic = s.cyclic := rfl
@[simp] theorem State.setRel_peers (s : State) (lane ch : Nat) (x : RelChan) : (s.setRel lane ch x).peers = s.peers := rfl
@[simp] theorem State.setRel_writes (s : State) (lane ch : Nat) (x : RelChan) : (s.setRel lane ch x).writes = s.writes := rfl
@[simp] theorem State.setRel_inWrites (s : State) (lane ch : Nat) (x : RelChan) : (s.setRel lane ch x).inWrites = s.inWrites := rfl
@[simp] theorem State.setRel_attn (s : State) (lane ch : Nat) (x : RelChan) : (s.setRel lane ch x).attn = s.attn := rfl
@[simp] theorem State.setRel_reqs (s : State) (lane ch : Nat) (x : RelChan) : (s.setRel lane ch x).reqs = s.reqs := rfl
@[simp] theorem State.setRel_steps (s : State) (lane ch : Nat) (x : RelChan) : (s.setRel lane ch x).steps = s.steps := rfl
@[simp] theorem State.setRel_stepLog (s : State) (lane ch : Nat) (x : RelChan) : (s.setRel lane ch x).stepLog = s.stepLog := rfl
@[simp] theorem State.setRel_inject (s : State) (lane ch : Nat) (x : RelChan) : (s.setRel lane ch x).inject = s.inject := rfl
@[simp] theorem State.setRel_masters (s : State) (lane ch : Nat) (x : RelChan) : (s.setRel lane ch x).masters = s.masters := rfl
@[simp] theorem State.setRel_transfers (s : State) (lane ch : Nat) (x : RelChan) : (s.setRel lane ch x).transfers = s.transfers := rfl
@[simp] theorem State.setRel_aborted (s : State) (lane ch : Nat) (x : RelChan) : (s.setRel lane ch x).aborted = s.aborted := rfl
@[simp] theorem State.setRel_maps (s : State) (lane ch : Nat) (x : RelChan) : (s.setRel lane ch x).maps = s.maps := rfl
@[simp] theorem State.setRel_invocations (s : State) (lane ch : Nat) (x : RelChan) : (s.setRel lane ch x).invocations = s.invocations := rfl
@[simp] theorem State.setRel_saved (s : State) (lane ch : Nat) (x : RelChan) : (s.setRel lane ch x).saved = s.saved := rfl
@[simp] theorem State.setRel_stoppingCtx (s : State) (lane ch : Nat) (x : RelChan) : (s.setRel lane ch x).stoppingCtx = s.stoppingCtx := rfl
@[simp] theorem State.setRel_pins (s : State) (lane ch : Nat) (x : RelChan) : (s.setRel lane ch x).pins = s.pins := rfl
@[simp] theorem State.setRel_fw (s : State) (lane ch : Nat) (x : RelChan) : (s.setRel lane ch x).fw = s.fw := rfl
@[simp] theorem State.setRel_fuses (s : State) (lane ch : Nat) (x : RelChan) : (s.setRel lane ch x).fuses = s.fuses := rfl
@[simp] theorem State.setRel_power (s : State) (lane ch : Nat) (x : RelChan) : (s.setRel lane ch x).power = s.power := rfl
@[simp] theorem State.setRel_flash (s : State) (lane ch : Nat) (x : RelChan) : (s.setRel lane ch x).flash = s.flash := rfl
@[simp] theorem State.setRel_repairs (s : State) (lane ch : Nat) (x : RelChan) : (s.setRel lane ch x).repairs = s.repairs := rfl
@[simp] theorem State.setRel_adapts (s : State) (lane ch : Nat) (x : RelChan) : (s.setRel lane ch x).adapts = s.adapts := rfl
@[simp] theorem State.setRel_submissions (s : State) (lane ch : Nat) (x : RelChan) : (s.setRel lane ch x).submissions = s.submissions := rfl
@[simp] theorem State.setRel_cameras (s : State) (lane ch : Nat) (x : RelChan) : (s.setRel lane ch x).cameras = s.cameras := rfl
@[simp] theorem State.setRel_tokenizer (s : State) (lane ch : Nat) (x : RelChan) : (s.setRel lane ch x).tokenizer = s.tokenizer := rfl
@[simp] theorem State.setRel_responses (s : State) (lane ch : Nat) (x : RelChan) : (s.setRel lane ch x).responses = s.responses := rfl
@[simp] theorem State.setRel_owned (s : State) (lane ch : Nat) (x : RelChan) : (s.setRel lane ch x).owned = s.owned := rfl

/-! ### setPeer -/
@[simp] theorem State.setPeer_pending (s : State) (n : Nat) (x : PeerLink) : (s.setPeer n x).pending = s.pending := rfl
@[simp] theorem State.setPeer_free (s : State) (n : Nat) (x : PeerLink) : (s.setPeer n x).free = s.free := rfl
@[simp] theorem State.setPeer_clk (s : State) (n : Nat) (x : PeerLink) : (s.setPeer n x).clk = s.clk := rfl
@[simp] theorem State.setPeer_cores (s : State) (n : Nat) (x : PeerLink) : (s.setPeer n x).cores = s.cores := rfl
@[simp] theorem State.setPeer_clusters (s : State) (n : Nat) (x : PeerLink) : (s.setPeer n x).clusters = s.clusters := rfl
@[simp] theorem State.setPeer_hqs (s : State) (n : Nat) (x : PeerLink) : (s.setPeer n x).hqs = s.hqs := rfl
@[simp] theorem State.setPeer_forwards (s : State) (n : Nat) (x : PeerLink) : (s.setPeer n x).forwards = s.forwards := rfl
@[simp] theorem State.setPeer_credits (s : State) (n : Nat) (x : PeerLink) : (s.setPeer n x).credits = s.credits := rfl
@[simp] theorem State.setPeer_ecc (s : State) (n : Nat) (x : PeerLink) : (s.setPeer n x).ecc = s.ecc := rfl
@[simp] theorem State.setPeer_line (s : State) (n : Nat) (x : PeerLink) : (s.setPeer n x).line = s.line := rfl
@[simp] theorem State.setPeer_omap (s : State) (n : Nat) (x : PeerLink) : (s.setPeer n x).omap = s.omap := rfl
@[simp] theorem State.setPeer_wins (s : State) (n : Nat) (x : PeerLink) : (s.setPeer n x).wins = s.wins := rfl
@[simp] theorem State.setPeer_closingWins (s : State) (n : Nat) (x : PeerLink) : (s.setPeer n x).closingWins = s.closingWins := rfl
@[simp] theorem State.setPeer_rgns (s : State) (n : Nat) (x : PeerLink) : (s.setPeer n x).rgns = s.rgns := rfl
@[simp] theorem State.setPeer_rgnNext (s : State) (n : Nat) (x : PeerLink) : (s.setPeer n x).rgnNext = s.rgnNext := rfl
@[simp] theorem State.setPeer_holders (s : State) (n : Nat) (x : PeerLink) : (s.setPeer n x).holders = s.holders := rfl
@[simp] theorem State.setPeer_retiredPages (s : State) (n : Nat) (x : PeerLink) : (s.setPeer n x).retiredPages = s.retiredPages := rfl
@[simp] theorem State.setPeer_ctxTab (s : State) (n : Nat) (x : PeerLink) : (s.setPeer n x).ctxTab = s.ctxTab := rfl
@[simp] theorem State.setPeer_obj (s : State) (n : Nat) (x : PeerLink) : (s.setPeer n x).obj = s.obj := rfl
@[simp] theorem State.setPeer_dom (s : State) (n : Nat) (x : PeerLink) : (s.setPeer n x).dom = s.dom := rfl
@[simp] theorem State.setPeer_obs (s : State) (n : Nat) (x : PeerLink) : (s.setPeer n x).obs = s.obs := rfl
@[simp] theorem State.setPeer_chans (s : State) (n : Nat) (x : PeerLink) : (s.setPeer n x).chans = s.chans := rfl
@[simp] theorem State.setPeer_reply (s : State) (n : Nat) (x : PeerLink) : (s.setPeer n x).reply = s.reply := rfl
@[simp] theorem State.setPeer_loop (s : State) (n : Nat) (x : PeerLink) : (s.setPeer n x).loop = s.loop := rfl
@[simp] theorem State.setPeer_sources (s : State) (n : Nat) (x : PeerLink) : (s.setPeer n x).sources = s.sources := rfl
@[simp] theorem State.setPeer_boot (s : State) (n : Nat) (x : PeerLink) : (s.setPeer n x).boot = s.boot := rfl
@[simp] theorem State.setPeer_lanes (s : State) (n : Nat) (x : PeerLink) : (s.setPeer n x).lanes = s.lanes := rfl
@[simp] theorem State.setPeer_rels (s : State) (n : Nat) (x : PeerLink) : (s.setPeer n x).rels = s.rels := rfl
@[simp] theorem State.setPeer_sent (s : State) (n : Nat) (x : PeerLink) : (s.setPeer n x).sent = s.sent := rfl
@[simp] theorem State.setPeer_cyclic (s : State) (n : Nat) (x : PeerLink) : (s.setPeer n x).cyclic = s.cyclic := rfl
@[simp] theorem State.setPeer_writes (s : State) (n : Nat) (x : PeerLink) : (s.setPeer n x).writes = s.writes := rfl
@[simp] theorem State.setPeer_inWrites (s : State) (n : Nat) (x : PeerLink) : (s.setPeer n x).inWrites = s.inWrites := rfl
@[simp] theorem State.setPeer_attn (s : State) (n : Nat) (x : PeerLink) : (s.setPeer n x).attn = s.attn := rfl
@[simp] theorem State.setPeer_reqs (s : State) (n : Nat) (x : PeerLink) : (s.setPeer n x).reqs = s.reqs := rfl
@[simp] theorem State.setPeer_steps (s : State) (n : Nat) (x : PeerLink) : (s.setPeer n x).steps = s.steps := rfl
@[simp] theorem State.setPeer_stepLog (s : State) (n : Nat) (x : PeerLink) : (s.setPeer n x).stepLog = s.stepLog := rfl
@[simp] theorem State.setPeer_inject (s : State) (n : Nat) (x : PeerLink) : (s.setPeer n x).inject = s.inject := rfl
@[simp] theorem State.setPeer_masters (s : State) (n : Nat) (x : PeerLink) : (s.setPeer n x).masters = s.masters := rfl
@[simp] theorem State.setPeer_transfers (s : State) (n : Nat) (x : PeerLink) : (s.setPeer n x).transfers = s.transfers := rfl
@[simp] theorem State.setPeer_aborted (s : State) (n : Nat) (x : PeerLink) : (s.setPeer n x).aborted = s.aborted := rfl
@[simp] theorem State.setPeer_maps (s : State) (n : Nat) (x : PeerLink) : (s.setPeer n x).maps = s.maps := rfl
@[simp] theorem State.setPeer_invocations (s : State) (n : Nat) (x : PeerLink) : (s.setPeer n x).invocations = s.invocations := rfl
@[simp] theorem State.setPeer_saved (s : State) (n : Nat) (x : PeerLink) : (s.setPeer n x).saved = s.saved := rfl
@[simp] theorem State.setPeer_stoppingCtx (s : State) (n : Nat) (x : PeerLink) : (s.setPeer n x).stoppingCtx = s.stoppingCtx := rfl
@[simp] theorem State.setPeer_pins (s : State) (n : Nat) (x : PeerLink) : (s.setPeer n x).pins = s.pins := rfl
@[simp] theorem State.setPeer_fw (s : State) (n : Nat) (x : PeerLink) : (s.setPeer n x).fw = s.fw := rfl
@[simp] theorem State.setPeer_fuses (s : State) (n : Nat) (x : PeerLink) : (s.setPeer n x).fuses = s.fuses := rfl
@[simp] theorem State.setPeer_power (s : State) (n : Nat) (x : PeerLink) : (s.setPeer n x).power = s.power := rfl
@[simp] theorem State.setPeer_flash (s : State) (n : Nat) (x : PeerLink) : (s.setPeer n x).flash = s.flash := rfl
@[simp] theorem State.setPeer_repairs (s : State) (n : Nat) (x : PeerLink) : (s.setPeer n x).repairs = s.repairs := rfl
@[simp] theorem State.setPeer_adapts (s : State) (n : Nat) (x : PeerLink) : (s.setPeer n x).adapts = s.adapts := rfl
@[simp] theorem State.setPeer_submissions (s : State) (n : Nat) (x : PeerLink) : (s.setPeer n x).submissions = s.submissions := rfl
@[simp] theorem State.setPeer_cameras (s : State) (n : Nat) (x : PeerLink) : (s.setPeer n x).cameras = s.cameras := rfl
@[simp] theorem State.setPeer_tokenizer (s : State) (n : Nat) (x : PeerLink) : (s.setPeer n x).tokenizer = s.tokenizer := rfl
@[simp] theorem State.setPeer_responses (s : State) (n : Nat) (x : PeerLink) : (s.setPeer n x).responses = s.responses := rfl
@[simp] theorem State.setPeer_owned (s : State) (n : Nat) (x : PeerLink) : (s.setPeer n x).owned = s.owned := rfl

/-! ### withLoop -/
@[simp] theorem State.withLoop_pending (s : State) (f : Loop → Loop) : (s.withLoop f).pending = s.pending := rfl
@[simp] theorem State.withLoop_free (s : State) (f : Loop → Loop) : (s.withLoop f).free = s.free := rfl
@[simp] theorem State.withLoop_clk (s : State) (f : Loop → Loop) : (s.withLoop f).clk = s.clk := rfl
@[simp] theorem State.withLoop_cores (s : State) (f : Loop → Loop) : (s.withLoop f).cores = s.cores := rfl
@[simp] theorem State.withLoop_clusters (s : State) (f : Loop → Loop) : (s.withLoop f).clusters = s.clusters := rfl
@[simp] theorem State.withLoop_hqs (s : State) (f : Loop → Loop) : (s.withLoop f).hqs = s.hqs := rfl
@[simp] theorem State.withLoop_forwards (s : State) (f : Loop → Loop) : (s.withLoop f).forwards = s.forwards := rfl
@[simp] theorem State.withLoop_credits (s : State) (f : Loop → Loop) : (s.withLoop f).credits = s.credits := rfl
@[simp] theorem State.withLoop_ecc (s : State) (f : Loop → Loop) : (s.withLoop f).ecc = s.ecc := rfl
@[simp] theorem State.withLoop_line (s : State) (f : Loop → Loop) : (s.withLoop f).line = s.line := rfl
@[simp] theorem State.withLoop_omap (s : State) (f : Loop → Loop) : (s.withLoop f).omap = s.omap := rfl
@[simp] theorem State.withLoop_wins (s : State) (f : Loop → Loop) : (s.withLoop f).wins = s.wins := rfl
@[simp] theorem State.withLoop_closingWins (s : State) (f : Loop → Loop) : (s.withLoop f).closingWins = s.closingWins := rfl
@[simp] theorem State.withLoop_rgns (s : State) (f : Loop → Loop) : (s.withLoop f).rgns = s.rgns := rfl
@[simp] theorem State.withLoop_rgnNext (s : State) (f : Loop → Loop) : (s.withLoop f).rgnNext = s.rgnNext := rfl
@[simp] theorem State.withLoop_holders (s : State) (f : Loop → Loop) : (s.withLoop f).holders = s.holders := rfl
@[simp] theorem State.withLoop_retiredPages (s : State) (f : Loop → Loop) : (s.withLoop f).retiredPages = s.retiredPages := rfl
@[simp] theorem State.withLoop_ctxTab (s : State) (f : Loop → Loop) : (s.withLoop f).ctxTab = s.ctxTab := rfl
@[simp] theorem State.withLoop_obj (s : State) (f : Loop → Loop) : (s.withLoop f).obj = s.obj := rfl
@[simp] theorem State.withLoop_dom (s : State) (f : Loop → Loop) : (s.withLoop f).dom = s.dom := rfl
@[simp] theorem State.withLoop_obs (s : State) (f : Loop → Loop) : (s.withLoop f).obs = s.obs := rfl
@[simp] theorem State.withLoop_chans (s : State) (f : Loop → Loop) : (s.withLoop f).chans = s.chans := rfl
@[simp] theorem State.withLoop_reply (s : State) (f : Loop → Loop) : (s.withLoop f).reply = s.reply := rfl
@[simp] theorem State.withLoop_sources (s : State) (f : Loop → Loop) : (s.withLoop f).sources = s.sources := rfl
@[simp] theorem State.withLoop_boot (s : State) (f : Loop → Loop) : (s.withLoop f).boot = s.boot := rfl
@[simp] theorem State.withLoop_lanes (s : State) (f : Loop → Loop) : (s.withLoop f).lanes = s.lanes := rfl
@[simp] theorem State.withLoop_rels (s : State) (f : Loop → Loop) : (s.withLoop f).rels = s.rels := rfl
@[simp] theorem State.withLoop_sent (s : State) (f : Loop → Loop) : (s.withLoop f).sent = s.sent := rfl
@[simp] theorem State.withLoop_cyclic (s : State) (f : Loop → Loop) : (s.withLoop f).cyclic = s.cyclic := rfl
@[simp] theorem State.withLoop_peers (s : State) (f : Loop → Loop) : (s.withLoop f).peers = s.peers := rfl
@[simp] theorem State.withLoop_writes (s : State) (f : Loop → Loop) : (s.withLoop f).writes = s.writes := rfl
@[simp] theorem State.withLoop_inWrites (s : State) (f : Loop → Loop) : (s.withLoop f).inWrites = s.inWrites := rfl
@[simp] theorem State.withLoop_attn (s : State) (f : Loop → Loop) : (s.withLoop f).attn = s.attn := rfl
@[simp] theorem State.withLoop_reqs (s : State) (f : Loop → Loop) : (s.withLoop f).reqs = s.reqs := rfl
@[simp] theorem State.withLoop_steps (s : State) (f : Loop → Loop) : (s.withLoop f).steps = s.steps := rfl
@[simp] theorem State.withLoop_stepLog (s : State) (f : Loop → Loop) : (s.withLoop f).stepLog = s.stepLog := rfl
@[simp] theorem State.withLoop_inject (s : State) (f : Loop → Loop) : (s.withLoop f).inject = s.inject := rfl
@[simp] theorem State.withLoop_masters (s : State) (f : Loop → Loop) : (s.withLoop f).masters = s.masters := rfl
@[simp] theorem State.withLoop_transfers (s : State) (f : Loop → Loop) : (s.withLoop f).transfers = s.transfers := rfl
@[simp] theorem State.withLoop_aborted (s : State) (f : Loop → Loop) : (s.withLoop f).aborted = s.aborted := rfl
@[simp] theorem State.withLoop_maps (s : State) (f : Loop → Loop) : (s.withLoop f).maps = s.maps := rfl
@[simp] theorem State.withLoop_invocations (s : State) (f : Loop → Loop) : (s.withLoop f).invocations = s.invocations := rfl
@[simp] theorem State.withLoop_saved (s : State) (f : Loop → Loop) : (s.withLoop f).saved = s.saved := rfl
@[simp] theorem State.withLoop_stoppingCtx (s : State) (f : Loop → Loop) : (s.withLoop f).stoppingCtx = s.stoppingCtx := rfl
@[simp] theorem State.withLoop_pins (s : State) (f : Loop → Loop) : (s.withLoop f).pins = s.pins := rfl
@[simp] theorem State.withLoop_fw (s : State) (f : Loop → Loop) : (s.withLoop f).fw = s.fw := rfl
@[simp] theorem State.withLoop_fuses (s : State) (f : Loop → Loop) : (s.withLoop f).fuses = s.fuses := rfl
@[simp] theorem State.withLoop_power (s : State) (f : Loop → Loop) : (s.withLoop f).power = s.power := rfl
@[simp] theorem State.withLoop_flash (s : State) (f : Loop → Loop) : (s.withLoop f).flash = s.flash := rfl
@[simp] theorem State.withLoop_repairs (s : State) (f : Loop → Loop) : (s.withLoop f).repairs = s.repairs := rfl
@[simp] theorem State.withLoop_adapts (s : State) (f : Loop → Loop) : (s.withLoop f).adapts = s.adapts := rfl
@[simp] theorem State.withLoop_submissions (s : State) (f : Loop → Loop) : (s.withLoop f).submissions = s.submissions := rfl
@[simp] theorem State.withLoop_cameras (s : State) (f : Loop → Loop) : (s.withLoop f).cameras = s.cameras := rfl
@[simp] theorem State.withLoop_tokenizer (s : State) (f : Loop → Loop) : (s.withLoop f).tokenizer = s.tokenizer := rfl
@[simp] theorem State.withLoop_responses (s : State) (f : Loop → Loop) : (s.withLoop f).responses = s.responses := rfl
@[simp] theorem State.withLoop_owned (s : State) (f : Loop → Loop) : (s.withLoop f).owned = s.owned := rfl

/-! ### setMaster -/
@[simp] theorem State.setMaster_pending (s : State) (m : Nat) (x : Master) : (s.setMaster m x).pending = s.pending := rfl
@[simp] theorem State.setMaster_free (s : State) (m : Nat) (x : Master) : (s.setMaster m x).free = s.free := rfl
@[simp] theorem State.setMaster_clk (s : State) (m : Nat) (x : Master) : (s.setMaster m x).clk = s.clk := rfl
@[simp] theorem State.setMaster_cores (s : State) (m : Nat) (x : Master) : (s.setMaster m x).cores = s.cores := rfl
@[simp] theorem State.setMaster_clusters (s : State) (m : Nat) (x : Master) : (s.setMaster m x).clusters = s.clusters := rfl
@[simp] theorem State.setMaster_hqs (s : State) (m : Nat) (x : Master) : (s.setMaster m x).hqs = s.hqs := rfl
@[simp] theorem State.setMaster_forwards (s : State) (m : Nat) (x : Master) : (s.setMaster m x).forwards = s.forwards := rfl
@[simp] theorem State.setMaster_credits (s : State) (m : Nat) (x : Master) : (s.setMaster m x).credits = s.credits := rfl
@[simp] theorem State.setMaster_ecc (s : State) (m : Nat) (x : Master) : (s.setMaster m x).ecc = s.ecc := rfl
@[simp] theorem State.setMaster_line (s : State) (m : Nat) (x : Master) : (s.setMaster m x).line = s.line := rfl
@[simp] theorem State.setMaster_omap (s : State) (m : Nat) (x : Master) : (s.setMaster m x).omap = s.omap := rfl
@[simp] theorem State.setMaster_wins (s : State) (m : Nat) (x : Master) : (s.setMaster m x).wins = s.wins := rfl
@[simp] theorem State.setMaster_closingWins (s : State) (m : Nat) (x : Master) : (s.setMaster m x).closingWins = s.closingWins := rfl
@[simp] theorem State.setMaster_rgns (s : State) (m : Nat) (x : Master) : (s.setMaster m x).rgns = s.rgns := rfl
@[simp] theorem State.setMaster_rgnNext (s : State) (m : Nat) (x : Master) : (s.setMaster m x).rgnNext = s.rgnNext := rfl
@[simp] theorem State.setMaster_holders (s : State) (m : Nat) (x : Master) : (s.setMaster m x).holders = s.holders := rfl
@[simp] theorem State.setMaster_retiredPages (s : State) (m : Nat) (x : Master) : (s.setMaster m x).retiredPages = s.retiredPages := rfl
@[simp] theorem State.setMaster_ctxTab (s : State) (m : Nat) (x : Master) : (s.setMaster m x).ctxTab = s.ctxTab := rfl
@[simp] theorem State.setMaster_obj (s : State) (m : Nat) (x : Master) : (s.setMaster m x).obj = s.obj := rfl
@[simp] theorem State.setMaster_dom (s : State) (m : Nat) (x : Master) : (s.setMaster m x).dom = s.dom := rfl
@[simp] theorem State.setMaster_obs (s : State) (m : Nat) (x : Master) : (s.setMaster m x).obs = s.obs := rfl
@[simp] theorem State.setMaster_chans (s : State) (m : Nat) (x : Master) : (s.setMaster m x).chans = s.chans := rfl
@[simp] theorem State.setMaster_reply (s : State) (m : Nat) (x : Master) : (s.setMaster m x).reply = s.reply := rfl
@[simp] theorem State.setMaster_loop (s : State) (m : Nat) (x : Master) : (s.setMaster m x).loop = s.loop := rfl
@[simp] theorem State.setMaster_sources (s : State) (m : Nat) (x : Master) : (s.setMaster m x).sources = s.sources := rfl
@[simp] theorem State.setMaster_boot (s : State) (m : Nat) (x : Master) : (s.setMaster m x).boot = s.boot := rfl
@[simp] theorem State.setMaster_lanes (s : State) (m : Nat) (x : Master) : (s.setMaster m x).lanes = s.lanes := rfl
@[simp] theorem State.setMaster_rels (s : State) (m : Nat) (x : Master) : (s.setMaster m x).rels = s.rels := rfl
@[simp] theorem State.setMaster_sent (s : State) (m : Nat) (x : Master) : (s.setMaster m x).sent = s.sent := rfl
@[simp] theorem State.setMaster_cyclic (s : State) (m : Nat) (x : Master) : (s.setMaster m x).cyclic = s.cyclic := rfl
@[simp] theorem State.setMaster_peers (s : State) (m : Nat) (x : Master) : (s.setMaster m x).peers = s.peers := rfl
@[simp] theorem State.setMaster_writes (s : State) (m : Nat) (x : Master) : (s.setMaster m x).writes = s.writes := rfl
@[simp] theorem State.setMaster_inWrites (s : State) (m : Nat) (x : Master) : (s.setMaster m x).inWrites = s.inWrites := rfl
@[simp] theorem State.setMaster_attn (s : State) (m : Nat) (x : Master) : (s.setMaster m x).attn = s.attn := rfl
@[simp] theorem State.setMaster_reqs (s : State) (m : Nat) (x : Master) : (s.setMaster m x).reqs = s.reqs := rfl
@[simp] theorem State.setMaster_steps (s : State) (m : Nat) (x : Master) : (s.setMaster m x).steps = s.steps := rfl
@[simp] theorem State.setMaster_stepLog (s : State) (m : Nat) (x : Master) : (s.setMaster m x).stepLog = s.stepLog := rfl
@[simp] theorem State.setMaster_inject (s : State) (m : Nat) (x : Master) : (s.setMaster m x).inject = s.inject := rfl
@[simp] theorem State.setMaster_transfers (s : State) (m : Nat) (x : Master) : (s.setMaster m x).transfers = s.transfers := rfl
@[simp] theorem State.setMaster_aborted (s : State) (m : Nat) (x : Master) : (s.setMaster m x).aborted = s.aborted := rfl
@[simp] theorem State.setMaster_maps (s : State) (m : Nat) (x : Master) : (s.setMaster m x).maps = s.maps := rfl
@[simp] theorem State.setMaster_invocations (s : State) (m : Nat) (x : Master) : (s.setMaster m x).invocations = s.invocations := rfl
@[simp] theorem State.setMaster_saved (s : State) (m : Nat) (x : Master) : (s.setMaster m x).saved = s.saved := rfl
@[simp] theorem State.setMaster_stoppingCtx (s : State) (m : Nat) (x : Master) : (s.setMaster m x).stoppingCtx = s.stoppingCtx := rfl
@[simp] theorem State.setMaster_pins (s : State) (m : Nat) (x : Master) : (s.setMaster m x).pins = s.pins := rfl
@[simp] theorem State.setMaster_fw (s : State) (m : Nat) (x : Master) : (s.setMaster m x).fw = s.fw := rfl
@[simp] theorem State.setMaster_fuses (s : State) (m : Nat) (x : Master) : (s.setMaster m x).fuses = s.fuses := rfl
@[simp] theorem State.setMaster_power (s : State) (m : Nat) (x : Master) : (s.setMaster m x).power = s.power := rfl
@[simp] theorem State.setMaster_flash (s : State) (m : Nat) (x : Master) : (s.setMaster m x).flash = s.flash := rfl
@[simp] theorem State.setMaster_repairs (s : State) (m : Nat) (x : Master) : (s.setMaster m x).repairs = s.repairs := rfl
@[simp] theorem State.setMaster_adapts (s : State) (m : Nat) (x : Master) : (s.setMaster m x).adapts = s.adapts := rfl
@[simp] theorem State.setMaster_submissions (s : State) (m : Nat) (x : Master) : (s.setMaster m x).submissions = s.submissions := rfl
@[simp] theorem State.setMaster_cameras (s : State) (m : Nat) (x : Master) : (s.setMaster m x).cameras = s.cameras := rfl
@[simp] theorem State.setMaster_tokenizer (s : State) (m : Nat) (x : Master) : (s.setMaster m x).tokenizer = s.tokenizer := rfl
@[simp] theorem State.setMaster_responses (s : State) (m : Nat) (x : Master) : (s.setMaster m x).responses = s.responses := rfl
@[simp] theorem State.setMaster_owned (s : State) (m : Nat) (x : Master) : (s.setMaster m x).owned = s.owned := rfl

/-! ### answer -/
@[simp] theorem State.answer_pending (s : State) (n : Nat) (d : List Byte) : (s.answer n d).pending = s.pending := rfl
@[simp] theorem State.answer_free (s : State) (n : Nat) (d : List Byte) : (s.answer n d).free = s.free := rfl
@[simp] theorem State.answer_clk (s : State) (n : Nat) (d : List Byte) : (s.answer n d).clk = s.clk := rfl
@[simp] theorem State.answer_cores (s : State) (n : Nat) (d : List Byte) : (s.answer n d).cores = s.cores := rfl
@[simp] theorem State.answer_clusters (s : State) (n : Nat) (d : List Byte) : (s.answer n d).clusters = s.clusters := rfl
@[simp] theorem State.answer_hqs (s : State) (n : Nat) (d : List Byte) : (s.answer n d).hqs = s.hqs := rfl
@[simp] theorem State.answer_forwards (s : State) (n : Nat) (d : List Byte) : (s.answer n d).forwards = s.forwards := rfl
@[simp] theorem State.answer_credits (s : State) (n : Nat) (d : List Byte) : (s.answer n d).credits = s.credits := rfl
@[simp] theorem State.answer_ecc (s : State) (n : Nat) (d : List Byte) : (s.answer n d).ecc = s.ecc := rfl
@[simp] theorem State.answer_line (s : State) (n : Nat) (d : List Byte) : (s.answer n d).line = s.line := rfl
@[simp] theorem State.answer_omap (s : State) (n : Nat) (d : List Byte) : (s.answer n d).omap = s.omap := rfl
@[simp] theorem State.answer_wins (s : State) (n : Nat) (d : List Byte) : (s.answer n d).wins = s.wins := rfl
@[simp] theorem State.answer_closingWins (s : State) (n : Nat) (d : List Byte) : (s.answer n d).closingWins = s.closingWins := rfl
@[simp] theorem State.answer_rgns (s : State) (n : Nat) (d : List Byte) : (s.answer n d).rgns = s.rgns := rfl
@[simp] theorem State.answer_rgnNext (s : State) (n : Nat) (d : List Byte) : (s.answer n d).rgnNext = s.rgnNext := rfl
@[simp] theorem State.answer_holders (s : State) (n : Nat) (d : List Byte) : (s.answer n d).holders = s.holders := rfl
@[simp] theorem State.answer_retiredPages (s : State) (n : Nat) (d : List Byte) : (s.answer n d).retiredPages = s.retiredPages := rfl
@[simp] theorem State.answer_ctxTab (s : State) (n : Nat) (d : List Byte) : (s.answer n d).ctxTab = s.ctxTab := rfl
@[simp] theorem State.answer_obj (s : State) (n : Nat) (d : List Byte) : (s.answer n d).obj = s.obj := rfl
@[simp] theorem State.answer_dom (s : State) (n : Nat) (d : List Byte) : (s.answer n d).dom = s.dom := rfl
@[simp] theorem State.answer_obs (s : State) (n : Nat) (d : List Byte) : (s.answer n d).obs = s.obs := rfl
@[simp] theorem State.answer_chans (s : State) (n : Nat) (d : List Byte) : (s.answer n d).chans = s.chans := rfl
@[simp] theorem State.answer_loop (s : State) (n : Nat) (d : List Byte) : (s.answer n d).loop = s.loop := rfl
@[simp] theorem State.answer_sources (s : State) (n : Nat) (d : List Byte) : (s.answer n d).sources = s.sources := rfl
@[simp] theorem State.answer_boot (s : State) (n : Nat) (d : List Byte) : (s.answer n d).boot = s.boot := rfl
@[simp] theorem State.answer_lanes (s : State) (n : Nat) (d : List Byte) : (s.answer n d).lanes = s.lanes := rfl
@[simp] theorem State.answer_rels (s : State) (n : Nat) (d : List Byte) : (s.answer n d).rels = s.rels := rfl
@[simp] theorem State.answer_sent (s : State) (n : Nat) (d : List Byte) : (s.answer n d).sent = s.sent := rfl
@[simp] theorem State.answer_cyclic (s : State) (n : Nat) (d : List Byte) : (s.answer n d).cyclic = s.cyclic := rfl
@[simp] theorem State.answer_peers (s : State) (n : Nat) (d : List Byte) : (s.answer n d).peers = s.peers := rfl
@[simp] theorem State.answer_writes (s : State) (n : Nat) (d : List Byte) : (s.answer n d).writes = s.writes := rfl
@[simp] theorem State.answer_inWrites (s : State) (n : Nat) (d : List Byte) : (s.answer n d).inWrites = s.inWrites := rfl
@[simp] theorem State.answer_attn (s : State) (n : Nat) (d : List Byte) : (s.answer n d).attn = s.attn := rfl
@[simp] theorem State.answer_reqs (s : State) (n : Nat) (d : List Byte) : (s.answer n d).reqs = s.reqs := rfl
@[simp] theorem State.answer_steps (s : State) (n : Nat) (d : List Byte) : (s.answer n d).steps = s.steps := rfl
@[simp] theorem State.answer_stepLog (s : State) (n : Nat) (d : List Byte) : (s.answer n d).stepLog = s.stepLog := rfl
@[simp] theorem State.answer_inject (s : State) (n : Nat) (d : List Byte) : (s.answer n d).inject = s.inject := rfl
@[simp] theorem State.answer_masters (s : State) (n : Nat) (d : List Byte) : (s.answer n d).masters = s.masters := rfl
@[simp] theorem State.answer_transfers (s : State) (n : Nat) (d : List Byte) : (s.answer n d).transfers = s.transfers := rfl
@[simp] theorem State.answer_aborted (s : State) (n : Nat) (d : List Byte) : (s.answer n d).aborted = s.aborted := rfl
@[simp] theorem State.answer_maps (s : State) (n : Nat) (d : List Byte) : (s.answer n d).maps = s.maps := rfl
@[simp] theorem State.answer_invocations (s : State) (n : Nat) (d : List Byte) : (s.answer n d).invocations = s.invocations := rfl
@[simp] theorem State.answer_saved (s : State) (n : Nat) (d : List Byte) : (s.answer n d).saved = s.saved := rfl
@[simp] theorem State.answer_stoppingCtx (s : State) (n : Nat) (d : List Byte) : (s.answer n d).stoppingCtx = s.stoppingCtx := rfl
@[simp] theorem State.answer_pins (s : State) (n : Nat) (d : List Byte) : (s.answer n d).pins = s.pins := rfl
@[simp] theorem State.answer_fw (s : State) (n : Nat) (d : List Byte) : (s.answer n d).fw = s.fw := rfl
@[simp] theorem State.answer_fuses (s : State) (n : Nat) (d : List Byte) : (s.answer n d).fuses = s.fuses := rfl
@[simp] theorem State.answer_power (s : State) (n : Nat) (d : List Byte) : (s.answer n d).power = s.power := rfl
@[simp] theorem State.answer_flash (s : State) (n : Nat) (d : List Byte) : (s.answer n d).flash = s.flash := rfl
@[simp] theorem State.answer_repairs (s : State) (n : Nat) (d : List Byte) : (s.answer n d).repairs = s.repairs := rfl
@[simp] theorem State.answer_adapts (s : State) (n : Nat) (d : List Byte) : (s.answer n d).adapts = s.adapts := rfl
@[simp] theorem State.answer_submissions (s : State) (n : Nat) (d : List Byte) : (s.answer n d).submissions = s.submissions := rfl
@[simp] theorem State.answer_cameras (s : State) (n : Nat) (d : List Byte) : (s.answer n d).cameras = s.cameras := rfl
@[simp] theorem State.answer_tokenizer (s : State) (n : Nat) (d : List Byte) : (s.answer n d).tokenizer = s.tokenizer := rfl
@[simp] theorem State.answer_responses (s : State) (n : Nat) (d : List Byte) : (s.answer n d).responses = s.responses := rfl
@[simp] theorem State.answer_owned (s : State) (n : Nat) (d : List Byte) : (s.answer n d).owned = s.owned := rfl

/-! ### raise -/
@[simp] theorem State.raise_pending (s : State) (r : ResetReq) : (s.raise r).pending = s.pending := rfl
@[simp] theorem State.raise_free (s : State) (r : ResetReq) : (s.raise r).free = s.free := rfl
@[simp] theorem State.raise_clk (s : State) (r : ResetReq) : (s.raise r).clk = s.clk := rfl
@[simp] theorem State.raise_cores (s : State) (r : ResetReq) : (s.raise r).cores = s.cores := rfl
@[simp] theorem State.raise_clusters (s : State) (r : ResetReq) : (s.raise r).clusters = s.clusters := rfl
@[simp] theorem State.raise_hqs (s : State) (r : ResetReq) : (s.raise r).hqs = s.hqs := rfl
@[simp] theorem State.raise_forwards (s : State) (r : ResetReq) : (s.raise r).forwards = s.forwards := rfl
@[simp] theorem State.raise_credits (s : State) (r : ResetReq) : (s.raise r).credits = s.credits := rfl
@[simp] theorem State.raise_ecc (s : State) (r : ResetReq) : (s.raise r).ecc = s.ecc := rfl
@[simp] theorem State.raise_line (s : State) (r : ResetReq) : (s.raise r).line = s.line := rfl
@[simp] theorem State.raise_omap (s : State) (r : ResetReq) : (s.raise r).omap = s.omap := rfl
@[simp] theorem State.raise_wins (s : State) (r : ResetReq) : (s.raise r).wins = s.wins := rfl
@[simp] theorem State.raise_closingWins (s : State) (r : ResetReq) : (s.raise r).closingWins = s.closingWins := rfl
@[simp] theorem State.raise_rgns (s : State) (r : ResetReq) : (s.raise r).rgns = s.rgns := rfl
@[simp] theorem State.raise_rgnNext (s : State) (r : ResetReq) : (s.raise r).rgnNext = s.rgnNext := rfl
@[simp] theorem State.raise_holders (s : State) (r : ResetReq) : (s.raise r).holders = s.holders := rfl
@[simp] theorem State.raise_retiredPages (s : State) (r : ResetReq) : (s.raise r).retiredPages = s.retiredPages := rfl
@[simp] theorem State.raise_ctxTab (s : State) (r : ResetReq) : (s.raise r).ctxTab = s.ctxTab := rfl
@[simp] theorem State.raise_obj (s : State) (r : ResetReq) : (s.raise r).obj = s.obj := rfl
@[simp] theorem State.raise_dom (s : State) (r : ResetReq) : (s.raise r).dom = s.dom := rfl
@[simp] theorem State.raise_obs (s : State) (r : ResetReq) : (s.raise r).obs = s.obs := rfl
@[simp] theorem State.raise_chans (s : State) (r : ResetReq) : (s.raise r).chans = s.chans := rfl
@[simp] theorem State.raise_reply (s : State) (r : ResetReq) : (s.raise r).reply = s.reply := rfl
@[simp] theorem State.raise_loop (s : State) (r : ResetReq) : (s.raise r).loop = s.loop := rfl
@[simp] theorem State.raise_sources (s : State) (r : ResetReq) : (s.raise r).sources = s.sources := rfl
@[simp] theorem State.raise_boot (s : State) (r : ResetReq) : (s.raise r).boot = s.boot := rfl
@[simp] theorem State.raise_lanes (s : State) (r : ResetReq) : (s.raise r).lanes = s.lanes := rfl
@[simp] theorem State.raise_rels (s : State) (r : ResetReq) : (s.raise r).rels = s.rels := rfl
@[simp] theorem State.raise_sent (s : State) (r : ResetReq) : (s.raise r).sent = s.sent := rfl
@[simp] theorem State.raise_cyclic (s : State) (r : ResetReq) : (s.raise r).cyclic = s.cyclic := rfl
@[simp] theorem State.raise_peers (s : State) (r : ResetReq) : (s.raise r).peers = s.peers := rfl
@[simp] theorem State.raise_writes (s : State) (r : ResetReq) : (s.raise r).writes = s.writes := rfl
@[simp] theorem State.raise_inWrites (s : State) (r : ResetReq) : (s.raise r).inWrites = s.inWrites := rfl
@[simp] theorem State.raise_attn (s : State) (r : ResetReq) : (s.raise r).attn = s.attn := rfl
@[simp] theorem State.raise_steps (s : State) (r : ResetReq) : (s.raise r).steps = s.steps := rfl
@[simp] theorem State.raise_stepLog (s : State) (r : ResetReq) : (s.raise r).stepLog = s.stepLog := rfl
@[simp] theorem State.raise_inject (s : State) (r : ResetReq) : (s.raise r).inject = s.inject := rfl
@[simp] theorem State.raise_masters (s : State) (r : ResetReq) : (s.raise r).masters = s.masters := rfl
@[simp] theorem State.raise_transfers (s : State) (r : ResetReq) : (s.raise r).transfers = s.transfers := rfl
@[simp] theorem State.raise_aborted (s : State) (r : ResetReq) : (s.raise r).aborted = s.aborted := rfl
@[simp] theorem State.raise_maps (s : State) (r : ResetReq) : (s.raise r).maps = s.maps := rfl
@[simp] theorem State.raise_invocations (s : State) (r : ResetReq) : (s.raise r).invocations = s.invocations := rfl
@[simp] theorem State.raise_saved (s : State) (r : ResetReq) : (s.raise r).saved = s.saved := rfl
@[simp] theorem State.raise_stoppingCtx (s : State) (r : ResetReq) : (s.raise r).stoppingCtx = s.stoppingCtx := rfl
@[simp] theorem State.raise_pins (s : State) (r : ResetReq) : (s.raise r).pins = s.pins := rfl
@[simp] theorem State.raise_fw (s : State) (r : ResetReq) : (s.raise r).fw = s.fw := rfl
@[simp] theorem State.raise_fuses (s : State) (r : ResetReq) : (s.raise r).fuses = s.fuses := rfl
@[simp] theorem State.raise_power (s : State) (r : ResetReq) : (s.raise r).power = s.power := rfl
@[simp] theorem State.raise_flash (s : State) (r : ResetReq) : (s.raise r).flash = s.flash := rfl
@[simp] theorem State.raise_repairs (s : State) (r : ResetReq) : (s.raise r).repairs = s.repairs := rfl
@[simp] theorem State.raise_adapts (s : State) (r : ResetReq) : (s.raise r).adapts = s.adapts := rfl
@[simp] theorem State.raise_submissions (s : State) (r : ResetReq) : (s.raise r).submissions = s.submissions := rfl
@[simp] theorem State.raise_cameras (s : State) (r : ResetReq) : (s.raise r).cameras = s.cameras := rfl
@[simp] theorem State.raise_tokenizer (s : State) (r : ResetReq) : (s.raise r).tokenizer = s.tokenizer := rfl
@[simp] theorem State.raise_responses (s : State) (r : ResetReq) : (s.raise r).responses = s.responses := rfl
@[simp] theorem State.raise_owned (s : State) (r : ResetReq) : (s.raise r).owned = s.owned := rfl

/-! ### What is read after a basic update -/

@[simp] theorem State.setCore_cluster (s : State) (c : Nat) (x : Core) (k : Nat) : (s.setCore c x).cluster k = s.cluster k := rfl
@[simp] theorem State.setCore_hq (s : State) (c : Nat) (x : Core) (u q : Nat) : (s.setCore c x).hq u q = s.hq u q := rfl
@[simp] theorem State.setCore_o (s : State) (c : Nat) (x : Core) (k : Nat) : (s.setCore c x).o k = s.o k := rfl
@[simp] theorem State.setCore_oBit (s : State) (c : Nat) (x : Core) (k i : Nat) : (s.setCore c x).oBit k i = s.oBit k i := rfl
@[simp] theorem State.setCore_d (s : State) (c : Nat) (x : Core) (k : Nat) : (s.setCore c x).d k = s.d k := rfl
@[simp] theorem State.setCore_byte (s : State) (c : Nat) (x : Core) (a : Nat) : (s.setCore c x).byte a = s.byte a := rfl
@[simp] theorem State.setCore_bytes (s : State) (c : Nat) (x : Core) (a n : Nat) : (s.setCore c x).bytes a n = s.bytes a n := rfl
@[simp] theorem State.setCore_now (s : State) (c : Nat) (x : Core) : (s.setCore c x).now = s.now := rfl
@[simp] theorem State.setCore_unitCycle (s : State) (c : Nat) (x : Core) (u : Nat) : (s.setCore c x).unitCycle u = s.unitCycle u := rfl
@[simp] theorem State.setCore_coreCycle (s : State) (c : Nat) (x : Core) (c' : Nat) : (s.setCore c x).coreCycle c' = s.coreCycle c' := rfl
@[simp] theorem State.setCore_chan (s : State) (c : Nat) (x : Core) (c' : Nat) : (s.setCore c x).chan c' = s.chan c' := rfl
@[simp] theorem State.setCore_lane (s : State) (c : Nat) (x : Core) (i : Nat) : (s.setCore c x).lane i = s.lane i := rfl
@[simp] theorem State.setCore_laneState (s : State) (c : Nat) (x : Core) (i : Nat) : (s.setCore c x).laneState i = s.laneState i := rfl
@[simp] theorem State.setCore_laneUp (s : State) (c : Nat) (x : Core) (i : Nat) : (s.setCore c x).laneUp i = s.laneUp i := rfl
@[simp] theorem State.setCore_rel (s : State) (c : Nat) (x : Core) (l c' : Nat) : (s.setCore c x).rel l c' = s.rel l c' := rfl
@[simp] theorem State.setCore_peer (s : State) (c : Nat) (x : Core) (n : Nat) : (s.setCore c x).peer n = s.peer n := rfl
@[simp] theorem State.setCore_master (s : State) (c : Nat) (x : Core) (m : Nat) : (s.setCore c x).master m = s.master m := rfl
@[simp] theorem State.setCore_adapt (s : State) (c : Nat) (x : Core) (n : Nat) : (s.setCore c x).adapt n = s.adapt n := rfl
@[simp] theorem State.setCore_camera (s : State) (c : Nat) (x : Core) (k : Nat) : (s.setCore c x).camera k = s.camera k := rfl
@[simp] theorem State.setCore_lineOf (s : State) (c : Nat) (x : Core) (a : Nat) : (s.setCore c x).lineOf a = s.lineOf a := rfl
@[simp] theorem State.setCore_rgn (s : State) (c : Nat) (x : Core) (e w : Nat) : (s.setCore c x).rgn e w = s.rgn e w := rfl
@[simp] theorem State.setCore_win (s : State) (c : Nat) (x : Core) (n w : Nat) : (s.setCore c x).win n w = s.win n w := rfl
@[simp] theorem State.setCluster_core (s : State) (k : Nat) (x : Cluster) (c : Nat) : (s.setCluster k x).core c = s.core c := rfl
@[simp] theorem State.setCluster_engine (s : State) (k : Nat) (x : Cluster) (c e : Nat) : (s.setCluster k x).engine c e = s.engine c e := rfl
@[simp] theorem State.setCluster_hq (s : State) (k : Nat) (x : Cluster) (u q : Nat) : (s.setCluster k x).hq u q = s.hq u q := rfl
@[simp] theorem State.setCluster_o (s : State) (k : Nat) (x : Cluster) (k' : Nat) : (s.setCluster k x).o k' = s.o k' := rfl
@[simp] theorem State.setCluster_oBit (s : State) (k : Nat) (x : Cluster) (k' i : Nat) : (s.setCluster k x).oBit k' i = s.oBit k' i := rfl
@[simp] theorem State.setCluster_d (s : State) (k : Nat) (x : Cluster) (k' : Nat) : (s.setCluster k x).d k' = s.d k' := rfl
@[simp] theorem State.setCluster_byte (s : State) (k : Nat) (x : Cluster) (a : Nat) : (s.setCluster k x).byte a = s.byte a := rfl
@[simp] theorem State.setCluster_bytes (s : State) (k : Nat) (x : Cluster) (a n : Nat) : (s.setCluster k x).bytes a n = s.bytes a n := rfl
@[simp] theorem State.setCluster_now (s : State) (k : Nat) (x : Cluster) : (s.setCluster k x).now = s.now := rfl
@[simp] theorem State.setCluster_chan (s : State) (k : Nat) (x : Cluster) (c : Nat) : (s.setCluster k x).chan c = s.chan c := rfl
@[simp] theorem State.setCluster_lane (s : State) (k : Nat) (x : Cluster) (i : Nat) : (s.setCluster k x).lane i = s.lane i := rfl
@[simp] theorem State.setCluster_laneState (s : State) (k : Nat) (x : Cluster) (i : Nat) : (s.setCluster k x).laneState i = s.laneState i := rfl
@[simp] theorem State.setCluster_laneUp (s : State) (k : Nat) (x : Cluster) (i : Nat) : (s.setCluster k x).laneUp i = s.laneUp i := rfl
@[simp] theorem State.setCluster_rel (s : State) (k : Nat) (x : Cluster) (l c : Nat) : (s.setCluster k x).rel l c = s.rel l c := rfl
@[simp] theorem State.setCluster_peer (s : State) (k : Nat) (x : Cluster) (n : Nat) : (s.setCluster k x).peer n = s.peer n := rfl
@[simp] theorem State.setCluster_master (s : State) (k : Nat) (x : Cluster) (m : Nat) : (s.setCluster k x).master m = s.master m := rfl
@[simp] theorem State.setCluster_adapt (s : State) (k : Nat) (x : Cluster) (n : Nat) : (s.setCluster k x).adapt n = s.adapt n := rfl
@[simp] theorem State.setCluster_camera (s : State) (k : Nat) (x : Cluster) (k' : Nat) : (s.setCluster k x).camera k' = s.camera k' := rfl
@[simp] theorem State.setCluster_lineOf (s : State) (k : Nat) (x : Cluster) (a : Nat) : (s.setCluster k x).lineOf a = s.lineOf a := rfl
@[simp] theorem State.setCluster_rgn (s : State) (k : Nat) (x : Cluster) (e w : Nat) : (s.setCluster k x).rgn e w = s.rgn e w := rfl
@[simp] theorem State.setCluster_win (s : State) (k : Nat) (x : Cluster) (n w : Nat) : (s.setCluster k x).win n w = s.win n w := rfl
@[simp] theorem State.setHq_core (s : State) (u q : Nat) (x : HQueue) (c : Nat) : (s.setHq u q x).core c = s.core c := rfl
@[simp] theorem State.setHq_engine (s : State) (u q : Nat) (x : HQueue) (c e : Nat) : (s.setHq u q x).engine c e = s.engine c e := rfl
@[simp] theorem State.setHq_cluster (s : State) (u q : Nat) (x : HQueue) (k : Nat) : (s.setHq u q x).cluster k = s.cluster k := rfl
@[simp] theorem State.setHq_o (s : State) (u q : Nat) (x : HQueue) (k : Nat) : (s.setHq u q x).o k = s.o k := rfl
@[simp] theorem State.setHq_oBit (s : State) (u q : Nat) (x : HQueue) (k i : Nat) : (s.setHq u q x).oBit k i = s.oBit k i := rfl
@[simp] theorem State.setHq_d (s : State) (u q : Nat) (x : HQueue) (k : Nat) : (s.setHq u q x).d k = s.d k := rfl
@[simp] theorem State.setHq_byte (s : State) (u q : Nat) (x : HQueue) (a : Nat) : (s.setHq u q x).byte a = s.byte a := rfl
@[simp] theorem State.setHq_bytes (s : State) (u q : Nat) (x : HQueue) (a n : Nat) : (s.setHq u q x).bytes a n = s.bytes a n := rfl
@[simp] theorem State.setHq_now (s : State) (u q : Nat) (x : HQueue) : (s.setHq u q x).now = s.now := rfl
@[simp] theorem State.setHq_unitCycle (s : State) (u q : Nat) (x : HQueue) (u' : Nat) : (s.setHq u q x).unitCycle u' = s.unitCycle u' := rfl
@[simp] theorem State.setHq_coreCycle (s : State) (u q : Nat) (x : HQueue) (c : Nat) : (s.setHq u q x).coreCycle c = s.coreCycle c := rfl
@[simp] theorem State.setHq_chan (s : State) (u q : Nat) (x : HQueue) (c : Nat) : (s.setHq u q x).chan c = s.chan c := rfl
@[simp] theorem State.setHq_lane (s : State) (u q : Nat) (x : HQueue) (i : Nat) : (s.setHq u q x).lane i = s.lane i := rfl
@[simp] theorem State.setHq_laneState (s : State) (u q : Nat) (x : HQueue) (i : Nat) : (s.setHq u q x).laneState i = s.laneState i := rfl
@[simp] theorem State.setHq_laneUp (s : State) (u q : Nat) (x : HQueue) (i : Nat) : (s.setHq u q x).laneUp i = s.laneUp i := rfl
@[simp] theorem State.setHq_rel (s : State) (u q : Nat) (x : HQueue) (l c : Nat) : (s.setHq u q x).rel l c = s.rel l c := rfl
@[simp] theorem State.setHq_peer (s : State) (u q : Nat) (x : HQueue) (n : Nat) : (s.setHq u q x).peer n = s.peer n := rfl
@[simp] theorem State.setHq_master (s : State) (u q : Nat) (x : HQueue) (m : Nat) : (s.setHq u q x).master m = s.master m := rfl
@[simp] theorem State.setHq_adapt (s : State) (u q : Nat) (x : HQueue) (n : Nat) : (s.setHq u q x).adapt n = s.adapt n := rfl
@[simp] theorem State.setHq_camera (s : State) (u q : Nat) (x : HQueue) (k : Nat) : (s.setHq u q x).camera k = s.camera k := rfl
@[simp] theorem State.setHq_lineOf (s : State) (u q : Nat) (x : HQueue) (a : Nat) : (s.setHq u q x).lineOf a = s.lineOf a := rfl
@[simp] theorem State.setHq_rgn (s : State) (u q : Nat) (x : HQueue) (e w : Nat) : (s.setHq u q x).rgn e w = s.rgn e w := rfl
@[simp] theorem State.setHq_win (s : State) (u q : Nat) (x : HQueue) (n w : Nat) : (s.setHq u q x).win n w = s.win n w := rfl
@[simp] theorem State.setO_core (s : State) (k v : Nat) (c : Nat) : (s.setO k v).core c = s.core c := rfl
@[simp] theorem State.setO_engine (s : State) (k v : Nat) (c e : Nat) : (s.setO k v).engine c e = s.engine c e := rfl
@[simp] theorem State.setO_cluster (s : State) (k v : Nat) (k' : Nat) : (s.setO k v).cluster k' = s.cluster k' := rfl
@[simp] theorem State.setO_hq (s : State) (k v : Nat) (u q : Nat) : (s.setO k v).hq u q = s.hq u q := rfl
@[simp] theorem State.setO_d (s : State) (k v : Nat) (k' : Nat) : (s.setO k v).d k' = s.d k' := rfl
@[simp] theorem State.setO_byte (s : State) (k v : Nat) (a : Nat) : (s.setO k v).byte a = s.byte a := rfl
@[simp] theorem State.setO_bytes (s : State) (k v : Nat) (a n : Nat) : (s.setO k v).bytes a n = s.bytes a n := rfl
@[simp] theorem State.setO_now (s : State) (k v : Nat) : (s.setO k v).now = s.now := rfl
@[simp] theorem State.setO_unitCycle (s : State) (k v : Nat) (u : Nat) : (s.setO k v).unitCycle u = s.unitCycle u := rfl
@[simp] theorem State.setO_coreCycle (s : State) (k v : Nat) (c : Nat) : (s.setO k v).coreCycle c = s.coreCycle c := rfl
@[simp] theorem State.setO_chan (s : State) (k v : Nat) (c : Nat) : (s.setO k v).chan c = s.chan c := rfl
@[simp] theorem State.setO_lane (s : State) (k v : Nat) (i : Nat) : (s.setO k v).lane i = s.lane i := rfl
@[simp] theorem State.setO_rel (s : State) (k v : Nat) (l c : Nat) : (s.setO k v).rel l c = s.rel l c := rfl
@[simp] theorem State.setO_peer (s : State) (k v : Nat) (n : Nat) : (s.setO k v).peer n = s.peer n := rfl
@[simp] theorem State.setO_master (s : State) (k v : Nat) (m : Nat) : (s.setO k v).master m = s.master m := rfl
@[simp] theorem State.setO_adapt (s : State) (k v : Nat) (n : Nat) : (s.setO k v).adapt n = s.adapt n := rfl
@[simp] theorem State.setO_camera (s : State) (k v : Nat) (k' : Nat) : (s.setO k v).camera k' = s.camera k' := rfl
@[simp] theorem State.setO_lineOf (s : State) (k v : Nat) (a : Nat) : (s.setO k v).lineOf a = s.lineOf a := rfl
@[simp] theorem State.setO_rgn (s : State) (k v : Nat) (e w : Nat) : (s.setO k v).rgn e w = s.rgn e w := rfl
@[simp] theorem State.setO_win (s : State) (k v : Nat) (n w : Nat) : (s.setO k v).win n w = s.win n w := rfl
@[simp] theorem State.setD_core (s : State) (k : Nat) (v : List Byte) (c : Nat) : (s.setD k v).core c = s.core c := rfl
@[simp] theorem State.setD_engine (s : State) (k : Nat) (v : List Byte) (c e : Nat) : (s.setD k v).engine c e = s.engine c e := rfl
@[simp] theorem State.setD_cluster (s : State) (k : Nat) (v : List Byte) (k' : Nat) : (s.setD k v).cluster k' = s.cluster k' := rfl
@[simp] theorem State.setD_hq (s : State) (k : Nat) (v : List Byte) (u q : Nat) : (s.setD k v).hq u q = s.hq u q := rfl
@[simp] theorem State.setD_o (s : State) (k : Nat) (v : List Byte) (k' : Nat) : (s.setD k v).o k' = s.o k' := rfl
@[simp] theorem State.setD_oBit (s : State) (k : Nat) (v : List Byte) (k' i : Nat) : (s.setD k v).oBit k' i = s.oBit k' i := rfl
@[simp] theorem State.setD_byte (s : State) (k : Nat) (v : List Byte) (a : Nat) : (s.setD k v).byte a = s.byte a := rfl
@[simp] theorem State.setD_bytes (s : State) (k : Nat) (v : List Byte) (a n : Nat) : (s.setD k v).bytes a n = s.bytes a n := rfl
@[simp] theorem State.setD_now (s : State) (k : Nat) (v : List Byte) : (s.setD k v).now = s.now := rfl
@[simp] theorem State.setD_unitCycle (s : State) (k : Nat) (v : List Byte) (u : Nat) : (s.setD k v).unitCycle u = s.unitCycle u := rfl
@[simp] theorem State.setD_coreCycle (s : State) (k : Nat) (v : List Byte) (c : Nat) : (s.setD k v).coreCycle c = s.coreCycle c := rfl
@[simp] theorem State.setD_chan (s : State) (k : Nat) (v : List Byte) (c : Nat) : (s.setD k v).chan c = s.chan c := rfl
@[simp] theorem State.setD_lane (s : State) (k : Nat) (v : List Byte) (i : Nat) : (s.setD k v).lane i = s.lane i := rfl
@[simp] theorem State.setD_laneState (s : State) (k : Nat) (v : List Byte) (i : Nat) : (s.setD k v).laneState i = s.laneState i := rfl
@[simp] theorem State.setD_laneUp (s : State) (k : Nat) (v : List Byte) (i : Nat) : (s.setD k v).laneUp i = s.laneUp i := rfl
@[simp] theorem State.setD_rel (s : State) (k : Nat) (v : List Byte) (l c : Nat) : (s.setD k v).rel l c = s.rel l c := rfl
@[simp] theorem State.setD_peer (s : State) (k : Nat) (v : List Byte) (n : Nat) : (s.setD k v).peer n = s.peer n := rfl
@[simp] theorem State.setD_master (s : State) (k : Nat) (v : List Byte) (m : Nat) : (s.setD k v).master m = s.master m := rfl
@[simp] theorem State.setD_adapt (s : State) (k : Nat) (v : List Byte) (n : Nat) : (s.setD k v).adapt n = s.adapt n := rfl
@[simp] theorem State.setD_camera (s : State) (k : Nat) (v : List Byte) (k' : Nat) : (s.setD k v).camera k' = s.camera k' := rfl
@[simp] theorem State.setD_lineOf (s : State) (k : Nat) (v : List Byte) (a : Nat) : (s.setD k v).lineOf a = s.lineOf a := rfl
@[simp] theorem State.setD_rgn (s : State) (k : Nat) (v : List Byte) (e w : Nat) : (s.setD k v).rgn e w = s.rgn e w := rfl
@[simp] theorem State.setD_win (s : State) (k : Nat) (v : List Byte) (n w : Nat) : (s.setD k v).win n w = s.win n w := rfl
@[simp] theorem State.poke_core (s : State) (a : Nat) (l : List Byte) (c : Nat) : (s.poke a l).core c = s.core c := rfl
@[simp] theorem State.poke_engine (s : State) (a : Nat) (l : List Byte) (c e : Nat) : (s.poke a l).engine c e = s.engine c e := rfl
@[simp] theorem State.poke_cluster (s : State) (a : Nat) (l : List Byte) (k : Nat) : (s.poke a l).cluster k = s.cluster k := rfl
@[simp] theorem State.poke_hq (s : State) (a : Nat) (l : List Byte) (u q : Nat) : (s.poke a l).hq u q = s.hq u q := rfl
@[simp] theorem State.poke_o (s : State) (a : Nat) (l : List Byte) (k : Nat) : (s.poke a l).o k = s.o k := rfl
@[simp] theorem State.poke_oBit (s : State) (a : Nat) (l : List Byte) (k i : Nat) : (s.poke a l).oBit k i = s.oBit k i := rfl
@[simp] theorem State.poke_d (s : State) (a : Nat) (l : List Byte) (k : Nat) : (s.poke a l).d k = s.d k := rfl
@[simp] theorem State.poke_now (s : State) (a : Nat) (l : List Byte) : (s.poke a l).now = s.now := rfl
@[simp] theorem State.poke_unitCycle (s : State) (a : Nat) (l : List Byte) (u : Nat) : (s.poke a l).unitCycle u = s.unitCycle u := rfl
@[simp] theorem State.poke_coreCycle (s : State) (a : Nat) (l : List Byte) (c : Nat) : (s.poke a l).coreCycle c = s.coreCycle c := rfl
@[simp] theorem State.poke_chan (s : State) (a : Nat) (l : List Byte) (c : Nat) : (s.poke a l).chan c = s.chan c := rfl
@[simp] theorem State.poke_lane (s : State) (a : Nat) (l : List Byte) (i : Nat) : (s.poke a l).lane i = s.lane i := rfl
@[simp] theorem State.poke_laneState (s : State) (a : Nat) (l : List Byte) (i : Nat) : (s.poke a l).laneState i = s.laneState i := rfl
@[simp] theorem State.poke_laneUp (s : State) (a : Nat) (l : List Byte) (i : Nat) : (s.poke a l).laneUp i = s.laneUp i := rfl
@[simp] theorem State.poke_rel (s : State) (a : Nat) (l : List Byte) (l' c : Nat) : (s.poke a l).rel l' c = s.rel l' c := rfl
@[simp] theorem State.poke_peer (s : State) (a : Nat) (l : List Byte) (n : Nat) : (s.poke a l).peer n = s.peer n := rfl
@[simp] theorem State.poke_master (s : State) (a : Nat) (l : List Byte) (m : Nat) : (s.poke a l).master m = s.master m := rfl
@[simp] theorem State.poke_adapt (s : State) (a : Nat) (l : List Byte) (n : Nat) : (s.poke a l).adapt n = s.adapt n := rfl
@[simp] theorem State.poke_camera (s : State) (a : Nat) (l : List Byte) (k : Nat) : (s.poke a l).camera k = s.camera k := rfl
@[simp] theorem State.poke_lineOf (s : State) (a : Nat) (l : List Byte) (a' : Nat) : (s.poke a l).lineOf a' = s.lineOf a' := rfl
@[simp] theorem State.poke_rgn (s : State) (a : Nat) (l : List Byte) (e w : Nat) : (s.poke a l).rgn e w = s.rgn e w := rfl
@[simp] theorem State.poke_win (s : State) (a : Nat) (l : List Byte) (n w : Nat) : (s.poke a l).win n w = s.win n w := rfl
@[simp] theorem State.event_core (s : State) (code unit k : Nat) (c : Nat) : (s.event code unit k).core c = s.core c := rfl
@[simp] theorem State.event_engine (s : State) (code unit k : Nat) (c e : Nat) : (s.event code unit k).engine c e = s.engine c e := rfl
@[simp] theorem State.event_cluster (s : State) (code unit k : Nat) (k' : Nat) : (s.event code unit k).cluster k' = s.cluster k' := rfl
@[simp] theorem State.event_hq (s : State) (code unit k : Nat) (u q : Nat) : (s.event code unit k).hq u q = s.hq u q := rfl
@[simp] theorem State.event_o (s : State) (code unit k : Nat) (k' : Nat) : (s.event code unit k).o k' = s.o k' := rfl
@[simp] theorem State.event_oBit (s : State) (code unit k : Nat) (k' i : Nat) : (s.event code unit k).oBit k' i = s.oBit k' i := rfl
@[simp] theorem State.event_d (s : State) (code unit k : Nat) (k' : Nat) : (s.event code unit k).d k' = s.d k' := rfl
@[simp] theorem State.event_byte (s : State) (code unit k : Nat) (a : Nat) : (s.event code unit k).byte a = s.byte a := rfl
@[simp] theorem State.event_bytes (s : State) (code unit k : Nat) (a n : Nat) : (s.event code unit k).bytes a n = s.bytes a n := rfl
@[simp] theorem State.event_now (s : State) (code unit k : Nat) : (s.event code unit k).now = s.now := rfl
@[simp] theorem State.event_unitCycle (s : State) (code unit k : Nat) (u : Nat) : (s.event code unit k).unitCycle u = s.unitCycle u := rfl
@[simp] theorem State.event_coreCycle (s : State) (code unit k : Nat) (c : Nat) : (s.event code unit k).coreCycle c = s.coreCycle c := rfl
@[simp] theorem State.event_chan (s : State) (code unit k : Nat) (c : Nat) : (s.event code unit k).chan c = s.chan c := rfl
@[simp] theorem State.event_lane (s : State) (code unit k : Nat) (i : Nat) : (s.event code unit k).lane i = s.lane i := rfl
@[simp] theorem State.event_laneState (s : State) (code unit k : Nat) (i : Nat) : (s.event code unit k).laneState i = s.laneState i := rfl
@[simp] theorem State.event_laneUp (s : State) (code unit k : Nat) (i : Nat) : (s.event code unit k).laneUp i = s.laneUp i := rfl
@[simp] theorem State.event_rel (s : State) (code unit k : Nat) (l c : Nat) : (s.event code unit k).rel l c = s.rel l c := rfl
@[simp] theorem State.event_peer (s : State) (code unit k : Nat) (n : Nat) : (s.event code unit k).peer n = s.peer n := rfl
@[simp] theorem State.event_master (s : State) (code unit k : Nat) (m : Nat) : (s.event code unit k).master m = s.master m := rfl
@[simp] theorem State.event_adapt (s : State) (code unit k : Nat) (n : Nat) : (s.event code unit k).adapt n = s.adapt n := rfl
@[simp] theorem State.event_camera (s : State) (code unit k : Nat) (k' : Nat) : (s.event code unit k).camera k' = s.camera k' := rfl
@[simp] theorem State.event_lineOf (s : State) (code unit k : Nat) (a : Nat) : (s.event code unit k).lineOf a = s.lineOf a := rfl
@[simp] theorem State.event_rgn (s : State) (code unit k : Nat) (e w : Nat) : (s.event code unit k).rgn e w = s.rgn e w := rfl
@[simp] theorem State.event_win (s : State) (code unit k : Nat) (n w : Nat) : (s.event code unit k).win n w = s.win n w := rfl
@[simp] theorem State.setChan_core (s : State) (c : Nat) (x : Channel) (c' : Nat) : (s.setChan c x).core c' = s.core c' := rfl
@[simp] theorem State.setChan_engine (s : State) (c : Nat) (x : Channel) (c' e : Nat) : (s.setChan c x).engine c' e = s.engine c' e := rfl
@[simp] theorem State.setChan_cluster (s : State) (c : Nat) (x : Channel) (k : Nat) : (s.setChan c x).cluster k = s.cluster k := rfl
@[simp] theorem State.setChan_hq (s : State) (c : Nat) (x : Channel) (u q : Nat) : (s.setChan c x).hq u q = s.hq u q := rfl
@[simp] theorem State.setChan_o (s : State) (c : Nat) (x : Channel) (k : Nat) : (s.setChan c x).o k = s.o k := rfl
@[simp] theorem State.setChan_oBit (s : State) (c : Nat) (x : Channel) (k i : Nat) : (s.setChan c x).oBit k i = s.oBit k i := rfl
@[simp] theorem State.setChan_d (s : State) (c : Nat) (x : Channel) (k : Nat) : (s.setChan c x).d k = s.d k := rfl
@[simp] theorem State.setChan_byte (s : State) (c : Nat) (x : Channel) (a : Nat) : (s.setChan c x).byte a = s.byte a := rfl
@[simp] theorem State.setChan_bytes (s : State) (c : Nat) (x : Channel) (a n : Nat) : (s.setChan c x).bytes a n = s.bytes a n := rfl
@[simp] theorem State.setChan_now (s : State) (c : Nat) (x : Channel) : (s.setChan c x).now = s.now := rfl
@[simp] theorem State.setChan_unitCycle (s : State) (c : Nat) (x : Channel) (u : Nat) : (s.setChan c x).unitCycle u = s.unitCycle u := rfl
@[simp] theorem State.setChan_coreCycle (s : State) (c : Nat) (x : Channel) (c' : Nat) : (s.setChan c x).coreCycle c' = s.coreCycle c' := rfl
@[simp] theorem State.setChan_lane (s : State) (c : Nat) (x : Channel) (i : Nat) : (s.setChan c x).lane i = s.lane i := rfl
@[simp] theorem State.setChan_laneState (s : State) (c : Nat) (x : Channel) (i : Nat) : (s.setChan c x).laneState i = s.laneState i := rfl
@[simp] theorem State.setChan_laneUp (s : State) (c : Nat) (x : Channel) (i : Nat) : (s.setChan c x).laneUp i = s.laneUp i := rfl
@[simp] theorem State.setChan_rel (s : State) (c : Nat) (x : Channel) (l c' : Nat) : (s.setChan c x).rel l c' = s.rel l c' := rfl
@[simp] theorem State.setChan_peer (s : State) (c : Nat) (x : Channel) (n : Nat) : (s.setChan c x).peer n = s.peer n := rfl
@[simp] theorem State.setChan_master (s : State) (c : Nat) (x : Channel) (m : Nat) : (s.setChan c x).master m = s.master m := rfl
@[simp] theorem State.setChan_adapt (s : State) (c : Nat) (x : Channel) (n : Nat) : (s.setChan c x).adapt n = s.adapt n := rfl
@[simp] theorem State.setChan_camera (s : State) (c : Nat) (x : Channel) (k : Nat) : (s.setChan c x).camera k = s.camera k := rfl
@[simp] theorem State.setChan_lineOf (s : State) (c : Nat) (x : Channel) (a : Nat) : (s.setChan c x).lineOf a = s.lineOf a := rfl
@[simp] theorem State.setChan_rgn (s : State) (c : Nat) (x : Channel) (e w : Nat) : (s.setChan c x).rgn e w = s.rgn e w := rfl
@[simp] theorem State.setChan_win (s : State) (c : Nat) (x : Channel) (n w : Nat) : (s.setChan c x).win n w = s.win n w := rfl
@[simp] theorem State.putLane_core (s : State) (i : Nat) (x : Lane) (c : Nat) : (s.putLane i x).core c = s.core c := rfl
@[simp] theorem State.putLane_engine (s : State) (i : Nat) (x : Lane) (c e : Nat) : (s.putLane i x).engine c e = s.engine c e := rfl
@[simp] theorem State.putLane_cluster (s : State) (i : Nat) (x : Lane) (k : Nat) : (s.putLane i x).cluster k = s.cluster k := rfl
@[simp] theorem State.putLane_hq (s : State) (i : Nat) (x : Lane) (u q : Nat) : (s.putLane i x).hq u q = s.hq u q := rfl
@[simp] theorem State.putLane_o (s : State) (i : Nat) (x : Lane) (k : Nat) : (s.putLane i x).o k = s.o k := rfl
@[simp] theorem State.putLane_oBit (s : State) (i : Nat) (x : Lane) (k i' : Nat) : (s.putLane i x).oBit k i' = s.oBit k i' := rfl
@[simp] theorem State.putLane_d (s : State) (i : Nat) (x : Lane) (k : Nat) : (s.putLane i x).d k = s.d k := rfl
@[simp] theorem State.putLane_byte (s : State) (i : Nat) (x : Lane) (a : Nat) : (s.putLane i x).byte a = s.byte a := rfl
@[simp] theorem State.putLane_bytes (s : State) (i : Nat) (x : Lane) (a n : Nat) : (s.putLane i x).bytes a n = s.bytes a n := rfl
@[simp] theorem State.putLane_now (s : State) (i : Nat) (x : Lane) : (s.putLane i x).now = s.now := rfl
@[simp] theorem State.putLane_unitCycle (s : State) (i : Nat) (x : Lane) (u : Nat) : (s.putLane i x).unitCycle u = s.unitCycle u := rfl
@[simp] theorem State.putLane_coreCycle (s : State) (i : Nat) (x : Lane) (c : Nat) : (s.putLane i x).coreCycle c = s.coreCycle c := rfl
@[simp] theorem State.putLane_chan (s : State) (i : Nat) (x : Lane) (c : Nat) : (s.putLane i x).chan c = s.chan c := rfl
@[simp] theorem State.putLane_laneState (s : State) (i : Nat) (x : Lane) (i' : Nat) : (s.putLane i x).laneState i' = s.laneState i' := rfl
@[simp] theorem State.putLane_laneUp (s : State) (i : Nat) (x : Lane) (i' : Nat) : (s.putLane i x).laneUp i' = s.laneUp i' := rfl
@[simp] theorem State.putLane_rel (s : State) (i : Nat) (x : Lane) (l c : Nat) : (s.putLane i x).rel l c = s.rel l c := rfl
@[simp] theorem State.putLane_peer (s : State) (i : Nat) (x : Lane) (n : Nat) : (s.putLane i x).peer n = s.peer n := rfl
@[simp] theorem State.putLane_master (s : State) (i : Nat) (x : Lane) (m : Nat) : (s.putLane i x).master m = s.master m := rfl
@[simp] theorem State.putLane_adapt (s : State) (i : Nat) (x : Lane) (n : Nat) : (s.putLane i x).adapt n = s.adapt n := rfl
@[simp] theorem State.putLane_camera (s : State) (i : Nat) (x : Lane) (k : Nat) : (s.putLane i x).camera k = s.camera k := rfl
@[simp] theorem State.putLane_lineOf (s : State) (i : Nat) (x : Lane) (a : Nat) : (s.putLane i x).lineOf a = s.lineOf a := rfl
@[simp] theorem State.putLane_rgn (s : State) (i : Nat) (x : Lane) (e w : Nat) : (s.putLane i x).rgn e w = s.rgn e w := rfl
@[simp] theorem State.putLane_win (s : State) (i : Nat) (x : Lane) (n w : Nat) : (s.putLane i x).win n w = s.win n w := rfl
@[simp] theorem State.setRel_core (s : State) (lane ch : Nat) (x : RelChan) (c : Nat) : (s.setRel lane ch x).core c = s.core c := rfl
@[simp] theorem State.setRel_engine (s : State) (lane ch : Nat) (x : RelChan) (c e : Nat) : (s.setRel lane ch x).engine c e = s.engine c e := rfl
@[simp] theorem State.setRel_cluster (s : State) (lane ch : Nat) (x : RelChan) (k : Nat) : (s.setRel lane ch x).cluster k = s.cluster k := rfl
@[simp] theorem State.setRel_hq (s : State) (lane ch : Nat) (x : RelChan) (u q : Nat) : (s.setRel lane ch x).hq u q = s.hq u q := rfl
@[simp] theorem State.setRel_o (s : State) (lane ch : Nat) (x : RelChan) (k : Nat) : (s.setRel lane ch x).o k = s.o k := rfl
@[simp] theorem State.setRel_oBit (s : State) (lane ch : Nat) (x : RelChan) (k i : Nat) : (s.setRel lane ch x).oBit k i = s.oBit k i := rfl
@[simp] theorem State.setRel_d (s : State) (lane ch : Nat) (x : RelChan) (k : Nat) : (s.setRel lane ch x).d k = s.d k := rfl
@[simp] theorem State.setRel_byte (s : State) (lane ch : Nat) (x : RelChan) (a : Nat) : (s.setRel lane ch x).byte a = s.byte a := rfl
@[simp] theorem State.setRel_bytes (s : State) (lane ch : Nat) (x : RelChan) (a n : Nat) : (s.setRel lane ch x).bytes a n = s.bytes a n := rfl
@[simp] theorem State.setRel_now (s : State) (lane ch : Nat) (x : RelChan) : (s.setRel lane ch x).now = s.now := rfl
@[simp] theorem State.setRel_unitCycle (s : State) (lane ch : Nat) (x : RelChan) (u : Nat) : (s.setRel lane ch x).unitCycle u = s.unitCycle u := rfl
@[simp] theorem State.setRel_coreCycle (s : State) (lane ch : Nat) (x : RelChan) (c : Nat) : (s.setRel lane ch x).coreCycle c = s.coreCycle c := rfl
@[simp] theorem State.setRel_chan (s : State) (lane ch : Nat) (x : RelChan) (c : Nat) : (s.setRel lane ch x).chan c = s.chan c := rfl
@[simp] theorem State.setRel_lane (s : State) (lane ch : Nat) (x : RelChan) (i : Nat) : (s.setRel lane ch x).lane i = s.lane i := rfl
@[simp] theorem State.setRel_laneState (s : State) (lane ch : Nat) (x : RelChan) (i : Nat) : (s.setRel lane ch x).laneState i = s.laneState i := rfl
@[simp] theorem State.setRel_laneUp (s : State) (lane ch : Nat) (x : RelChan) (i : Nat) : (s.setRel lane ch x).laneUp i = s.laneUp i := rfl
@[simp] theorem State.setRel_peer (s : State) (lane ch : Nat) (x : RelChan) (n : Nat) : (s.setRel lane ch x).peer n = s.peer n := rfl
@[simp] theorem State.setRel_master (s : State) (lane ch : Nat) (x : RelChan) (m : Nat) : (s.setRel lane ch x).master m = s.master m := rfl
@[simp] theorem State.setRel_adapt (s : State) (lane ch : Nat) (x : RelChan) (n : Nat) : (s.setRel lane ch x).adapt n = s.adapt n := rfl
@[simp] theorem State.setRel_camera (s : State) (lane ch : Nat) (x : RelChan) (k : Nat) : (s.setRel lane ch x).camera k = s.camera k := rfl
@[simp] theorem State.setRel_lineOf (s : State) (lane ch : Nat) (x : RelChan) (a : Nat) : (s.setRel lane ch x).lineOf a = s.lineOf a := rfl
@[simp] theorem State.setRel_rgn (s : State) (lane ch : Nat) (x : RelChan) (e w : Nat) : (s.setRel lane ch x).rgn e w = s.rgn e w := rfl
@[simp] theorem State.setRel_win (s : State) (lane ch : Nat) (x : RelChan) (n w : Nat) : (s.setRel lane ch x).win n w = s.win n w := rfl
@[simp] theorem State.setPeer_core (s : State) (n : Nat) (x : PeerLink) (c : Nat) : (s.setPeer n x).core c = s.core c := rfl
@[simp] theorem State.setPeer_engine (s : State) (n : Nat) (x : PeerLink) (c e : Nat) : (s.setPeer n x).engine c e = s.engine c e := rfl
@[simp] theorem State.setPeer_cluster (s : State) (n : Nat) (x : PeerLink) (k : Nat) : (s.setPeer n x).cluster k = s.cluster k := rfl
@[simp] theorem State.setPeer_hq (s : State) (n : Nat) (x : PeerLink) (u q : Nat) : (s.setPeer n x).hq u q = s.hq u q := rfl
@[simp] theorem State.setPeer_o (s : State) (n : Nat) (x : PeerLink) (k : Nat) : (s.setPeer n x).o k = s.o k := rfl
@[simp] theorem State.setPeer_oBit (s : State) (n : Nat) (x : PeerLink) (k i : Nat) : (s.setPeer n x).oBit k i = s.oBit k i := rfl
@[simp] theorem State.setPeer_d (s : State) (n : Nat) (x : PeerLink) (k : Nat) : (s.setPeer n x).d k = s.d k := rfl
@[simp] theorem State.setPeer_byte (s : State) (n : Nat) (x : PeerLink) (a : Nat) : (s.setPeer n x).byte a = s.byte a := rfl
@[simp] theorem State.setPeer_bytes (s : State) (n : Nat) (x : PeerLink) (a n' : Nat) : (s.setPeer n x).bytes a n' = s.bytes a n' := rfl
@[simp] theorem State.setPeer_now (s : State) (n : Nat) (x : PeerLink) : (s.setPeer n x).now = s.now := rfl
@[simp] theorem State.setPeer_unitCycle (s : State) (n : Nat) (x : PeerLink) (u : Nat) : (s.setPeer n x).unitCycle u = s.unitCycle u := rfl
@[simp] theorem State.setPeer_coreCycle (s : State) (n : Nat) (x : PeerLink) (c : Nat) : (s.setPeer n x).coreCycle c = s.coreCycle c := rfl
@[simp] theorem State.setPeer_chan (s : State) (n : Nat) (x : PeerLink) (c : Nat) : (s.setPeer n x).chan c = s.chan c := rfl
@[simp] theorem State.setPeer_lane (s : State) (n : Nat) (x : PeerLink) (i : Nat) : (s.setPeer n x).lane i = s.lane i := rfl
@[simp] theorem State.setPeer_laneState (s : State) (n : Nat) (x : PeerLink) (i : Nat) : (s.setPeer n x).laneState i = s.laneState i := rfl
@[simp] theorem State.setPeer_laneUp (s : State) (n : Nat) (x : PeerLink) (i : Nat) : (s.setPeer n x).laneUp i = s.laneUp i := rfl
@[simp] theorem State.setPeer_rel (s : State) (n : Nat) (x : PeerLink) (l c : Nat) : (s.setPeer n x).rel l c = s.rel l c := rfl
@[simp] theorem State.setPeer_master (s : State) (n : Nat) (x : PeerLink) (m : Nat) : (s.setPeer n x).master m = s.master m := rfl
@[simp] theorem State.setPeer_adapt (s : State) (n : Nat) (x : PeerLink) (n' : Nat) : (s.setPeer n x).adapt n' = s.adapt n' := rfl
@[simp] theorem State.setPeer_camera (s : State) (n : Nat) (x : PeerLink) (k : Nat) : (s.setPeer n x).camera k = s.camera k := rfl
@[simp] theorem State.setPeer_lineOf (s : State) (n : Nat) (x : PeerLink) (a : Nat) : (s.setPeer n x).lineOf a = s.lineOf a := rfl
@[simp] theorem State.setPeer_rgn (s : State) (n : Nat) (x : PeerLink) (e w : Nat) : (s.setPeer n x).rgn e w = s.rgn e w := rfl
@[simp] theorem State.setPeer_win (s : State) (n : Nat) (x : PeerLink) (n' w : Nat) : (s.setPeer n x).win n' w = s.win n' w := rfl
@[simp] theorem State.withLoop_core (s : State) (f : Loop → Loop) (c : Nat) : (s.withLoop f).core c = s.core c := rfl
@[simp] theorem State.withLoop_engine (s : State) (f : Loop → Loop) (c e : Nat) : (s.withLoop f).engine c e = s.engine c e := rfl
@[simp] theorem State.withLoop_cluster (s : State) (f : Loop → Loop) (k : Nat) : (s.withLoop f).cluster k = s.cluster k := rfl
@[simp] theorem State.withLoop_hq (s : State) (f : Loop → Loop) (u q : Nat) : (s.withLoop f).hq u q = s.hq u q := rfl
@[simp] theorem State.withLoop_o (s : State) (f : Loop → Loop) (k : Nat) : (s.withLoop f).o k = s.o k := rfl
@[simp] theorem State.withLoop_oBit (s : State) (f : Loop → Loop) (k i : Nat) : (s.withLoop f).oBit k i = s.oBit k i := rfl
@[simp] theorem State.withLoop_d (s : State) (f : Loop → Loop) (k : Nat) : (s.withLoop f).d k = s.d k := rfl
@[simp] theorem State.withLoop_byte (s : State) (f : Loop → Loop) (a : Nat) : (s.withLoop f).byte a = s.byte a := rfl
@[simp] theorem State.withLoop_bytes (s : State) (f : Loop → Loop) (a n : Nat) : (s.withLoop f).bytes a n = s.bytes a n := rfl
@[simp] theorem State.withLoop_now (s : State) (f : Loop → Loop) : (s.withLoop f).now = s.now := rfl
@[simp] theorem State.withLoop_unitCycle (s : State) (f : Loop → Loop) (u : Nat) : (s.withLoop f).unitCycle u = s.unitCycle u := rfl
@[simp] theorem State.withLoop_coreCycle (s : State) (f : Loop → Loop) (c : Nat) : (s.withLoop f).coreCycle c = s.coreCycle c := rfl
@[simp] theorem State.withLoop_chan (s : State) (f : Loop → Loop) (c : Nat) : (s.withLoop f).chan c = s.chan c := rfl
@[simp] theorem State.withLoop_lane (s : State) (f : Loop → Loop) (i : Nat) : (s.withLoop f).lane i = s.lane i := rfl
@[simp] theorem State.withLoop_laneState (s : State) (f : Loop → Loop) (i : Nat) : (s.withLoop f).laneState i = s.laneState i := rfl
@[simp] theorem State.withLoop_laneUp (s : State) (f : Loop → Loop) (i : Nat) : (s.withLoop f).laneUp i = s.laneUp i := rfl
@[simp] theorem State.withLoop_rel (s : State) (f : Loop → Loop) (l c : Nat) : (s.withLoop f).rel l c = s.rel l c := rfl
@[simp] theorem State.withLoop_peer (s : State) (f : Loop → Loop) (n : Nat) : (s.withLoop f).peer n = s.peer n := rfl
@[simp] theorem State.withLoop_master (s : State) (f : Loop → Loop) (m : Nat) : (s.withLoop f).master m = s.master m := rfl
@[simp] theorem State.withLoop_adapt (s : State) (f : Loop → Loop) (n : Nat) : (s.withLoop f).adapt n = s.adapt n := rfl
@[simp] theorem State.withLoop_camera (s : State) (f : Loop → Loop) (k : Nat) : (s.withLoop f).camera k = s.camera k := rfl
@[simp] theorem State.withLoop_lineOf (s : State) (f : Loop → Loop) (a : Nat) : (s.withLoop f).lineOf a = s.lineOf a := rfl
@[simp] theorem State.withLoop_rgn (s : State) (f : Loop → Loop) (e w : Nat) : (s.withLoop f).rgn e w = s.rgn e w := rfl
@[simp] theorem State.withLoop_win (s : State) (f : Loop → Loop) (n w : Nat) : (s.withLoop f).win n w = s.win n w := rfl
@[simp] theorem State.setMaster_core (s : State) (m : Nat) (x : Master) (c : Nat) : (s.setMaster m x).core c = s.core c := rfl
@[simp] theorem State.setMaster_engine (s : State) (m : Nat) (x : Master) (c e : Nat) : (s.setMaster m x).engine c e = s.engine c e := rfl
@[simp] theorem State.setMaster_cluster (s : State) (m : Nat) (x : Master) (k : Nat) : (s.setMaster m x).cluster k = s.cluster k := rfl
@[simp] theorem State.setMaster_hq (s : State) (m : Nat) (x : Master) (u q : Nat) : (s.setMaster m x).hq u q = s.hq u q := rfl
@[simp] theorem State.setMaster_o (s : State) (m : Nat) (x : Master) (k : Nat) : (s.setMaster m x).o k = s.o k := rfl
@[simp] theorem State.setMaster_oBit (s : State) (m : Nat) (x : Master) (k i : Nat) : (s.setMaster m x).oBit k i = s.oBit k i := rfl
@[simp] theorem State.setMaster_d (s : State) (m : Nat) (x : Master) (k : Nat) : (s.setMaster m x).d k = s.d k := rfl
@[simp] theorem State.setMaster_byte (s : State) (m : Nat) (x : Master) (a : Nat) : (s.setMaster m x).byte a = s.byte a := rfl
@[simp] theorem State.setMaster_bytes (s : State) (m : Nat) (x : Master) (a n : Nat) : (s.setMaster m x).bytes a n = s.bytes a n := rfl
@[simp] theorem State.setMaster_now (s : State) (m : Nat) (x : Master) : (s.setMaster m x).now = s.now := rfl
@[simp] theorem State.setMaster_unitCycle (s : State) (m : Nat) (x : Master) (u : Nat) : (s.setMaster m x).unitCycle u = s.unitCycle u := rfl
@[simp] theorem State.setMaster_coreCycle (s : State) (m : Nat) (x : Master) (c : Nat) : (s.setMaster m x).coreCycle c = s.coreCycle c := rfl
@[simp] theorem State.setMaster_chan (s : State) (m : Nat) (x : Master) (c : Nat) : (s.setMaster m x).chan c = s.chan c := rfl
@[simp] theorem State.setMaster_lane (s : State) (m : Nat) (x : Master) (i : Nat) : (s.setMaster m x).lane i = s.lane i := rfl
@[simp] theorem State.setMaster_laneState (s : State) (m : Nat) (x : Master) (i : Nat) : (s.setMaster m x).laneState i = s.laneState i := rfl
@[simp] theorem State.setMaster_laneUp (s : State) (m : Nat) (x : Master) (i : Nat) : (s.setMaster m x).laneUp i = s.laneUp i := rfl
@[simp] theorem State.setMaster_rel (s : State) (m : Nat) (x : Master) (l c : Nat) : (s.setMaster m x).rel l c = s.rel l c := rfl
@[simp] theorem State.setMaster_peer (s : State) (m : Nat) (x : Master) (n : Nat) : (s.setMaster m x).peer n = s.peer n := rfl
@[simp] theorem State.setMaster_adapt (s : State) (m : Nat) (x : Master) (n : Nat) : (s.setMaster m x).adapt n = s.adapt n := rfl
@[simp] theorem State.setMaster_camera (s : State) (m : Nat) (x : Master) (k : Nat) : (s.setMaster m x).camera k = s.camera k := rfl
@[simp] theorem State.setMaster_lineOf (s : State) (m : Nat) (x : Master) (a : Nat) : (s.setMaster m x).lineOf a = s.lineOf a := rfl
@[simp] theorem State.setMaster_rgn (s : State) (m : Nat) (x : Master) (e w : Nat) : (s.setMaster m x).rgn e w = s.rgn e w := rfl
@[simp] theorem State.setMaster_win (s : State) (m : Nat) (x : Master) (n w : Nat) : (s.setMaster m x).win n w = s.win n w := rfl
@[simp] theorem State.answer_core (s : State) (n : Nat) (d : List Byte) (c : Nat) : (s.answer n d).core c = s.core c := rfl
@[simp] theorem State.answer_engine (s : State) (n : Nat) (d : List Byte) (c e : Nat) : (s.answer n d).engine c e = s.engine c e := rfl
@[simp] theorem State.answer_cluster (s : State) (n : Nat) (d : List Byte) (k : Nat) : (s.answer n d).cluster k = s.cluster k := rfl
@[simp] theorem State.answer_hq (s : State) (n : Nat) (d : List Byte) (u q : Nat) : (s.answer n d).hq u q = s.hq u q := rfl
@[simp] theorem State.answer_o (s : State) (n : Nat) (d : List Byte) (k : Nat) : (s.answer n d).o k = s.o k := rfl
@[simp] theorem State.answer_oBit (s : State) (n : Nat) (d : List Byte) (k i : Nat) : (s.answer n d).oBit k i = s.oBit k i := rfl
@[simp] theorem State.answer_d (s : State) (n : Nat) (d : List Byte) (k : Nat) : (s.answer n d).d k = s.d k := rfl
@[simp] theorem State.answer_byte (s : State) (n : Nat) (d : List Byte) (a : Nat) : (s.answer n d).byte a = s.byte a := rfl
@[simp] theorem State.answer_bytes (s : State) (n : Nat) (d : List Byte) (a n' : Nat) : (s.answer n d).bytes a n' = s.bytes a n' := rfl
@[simp] theorem State.answer_now (s : State) (n : Nat) (d : List Byte) : (s.answer n d).now = s.now := rfl
@[simp] theorem State.answer_unitCycle (s : State) (n : Nat) (d : List Byte) (u : Nat) : (s.answer n d).unitCycle u = s.unitCycle u := rfl
@[simp] theorem State.answer_coreCycle (s : State) (n : Nat) (d : List Byte) (c : Nat) : (s.answer n d).coreCycle c = s.coreCycle c := rfl
@[simp] theorem State.answer_chan (s : State) (n : Nat) (d : List Byte) (c : Nat) : (s.answer n d).chan c = s.chan c := rfl
@[simp] theorem State.answer_lane (s : State) (n : Nat) (d : List Byte) (i : Nat) : (s.answer n d).lane i = s.lane i := rfl
@[simp] theorem State.answer_laneState (s : State) (n : Nat) (d : List Byte) (i : Nat) : (s.answer n d).laneState i = s.laneState i := rfl
@[simp] theorem State.answer_laneUp (s : State) (n : Nat) (d : List Byte) (i : Nat) : (s.answer n d).laneUp i = s.laneUp i := rfl
@[simp] theorem State.answer_rel (s : State) (n : Nat) (d : List Byte) (l c : Nat) : (s.answer n d).rel l c = s.rel l c := rfl
@[simp] theorem State.answer_peer (s : State) (n : Nat) (d : List Byte) (n' : Nat) : (s.answer n d).peer n' = s.peer n' := rfl
@[simp] theorem State.answer_master (s : State) (n : Nat) (d : List Byte) (m : Nat) : (s.answer n d).master m = s.master m := rfl
@[simp] theorem State.answer_adapt (s : State) (n : Nat) (d : List Byte) (n' : Nat) : (s.answer n d).adapt n' = s.adapt n' := rfl
@[simp] theorem State.answer_camera (s : State) (n : Nat) (d : List Byte) (k : Nat) : (s.answer n d).camera k = s.camera k := rfl
@[simp] theorem State.answer_lineOf (s : State) (n : Nat) (d : List Byte) (a : Nat) : (s.answer n d).lineOf a = s.lineOf a := rfl
@[simp] theorem State.answer_rgn (s : State) (n : Nat) (d : List Byte) (e w : Nat) : (s.answer n d).rgn e w = s.rgn e w := rfl
@[simp] theorem State.answer_win (s : State) (n : Nat) (d : List Byte) (n' w : Nat) : (s.answer n d).win n' w = s.win n' w := rfl
@[simp] theorem State.raise_core (s : State) (r : ResetReq) (c : Nat) : (s.raise r).core c = s.core c := rfl
@[simp] theorem State.raise_engine (s : State) (r : ResetReq) (c e : Nat) : (s.raise r).engine c e = s.engine c e := rfl
@[simp] theorem State.raise_cluster (s : State) (r : ResetReq) (k : Nat) : (s.raise r).cluster k = s.cluster k := rfl
@[simp] theorem State.raise_hq (s : State) (r : ResetReq) (u q : Nat) : (s.raise r).hq u q = s.hq u q := rfl
@[simp] theorem State.raise_o (s : State) (r : ResetReq) (k : Nat) : (s.raise r).o k = s.o k := rfl
@[simp] theorem State.raise_oBit (s : State) (r : ResetReq) (k i : Nat) : (s.raise r).oBit k i = s.oBit k i := rfl
@[simp] theorem State.raise_d (s : State) (r : ResetReq) (k : Nat) : (s.raise r).d k = s.d k := rfl
@[simp] theorem State.raise_byte (s : State) (r : ResetReq) (a : Nat) : (s.raise r).byte a = s.byte a := rfl
@[simp] theorem State.raise_bytes (s : State) (r : ResetReq) (a n : Nat) : (s.raise r).bytes a n = s.bytes a n := rfl
@[simp] theorem State.raise_now (s : State) (r : ResetReq) : (s.raise r).now = s.now := rfl
@[simp] theorem State.raise_unitCycle (s : State) (r : ResetReq) (u : Nat) : (s.raise r).unitCycle u = s.unitCycle u := rfl
@[simp] theorem State.raise_coreCycle (s : State) (r : ResetReq) (c : Nat) : (s.raise r).coreCycle c = s.coreCycle c := rfl
@[simp] theorem State.raise_chan (s : State) (r : ResetReq) (c : Nat) : (s.raise r).chan c = s.chan c := rfl
@[simp] theorem State.raise_lane (s : State) (r : ResetReq) (i : Nat) : (s.raise r).lane i = s.lane i := rfl
@[simp] theorem State.raise_laneState (s : State) (r : ResetReq) (i : Nat) : (s.raise r).laneState i = s.laneState i := rfl
@[simp] theorem State.raise_laneUp (s : State) (r : ResetReq) (i : Nat) : (s.raise r).laneUp i = s.laneUp i := rfl
@[simp] theorem State.raise_rel (s : State) (r : ResetReq) (l c : Nat) : (s.raise r).rel l c = s.rel l c := rfl
@[simp] theorem State.raise_peer (s : State) (r : ResetReq) (n : Nat) : (s.raise r).peer n = s.peer n := rfl
@[simp] theorem State.raise_master (s : State) (r : ResetReq) (m : Nat) : (s.raise r).master m = s.master m := rfl
@[simp] theorem State.raise_adapt (s : State) (r : ResetReq) (n : Nat) : (s.raise r).adapt n = s.adapt n := rfl
@[simp] theorem State.raise_camera (s : State) (r : ResetReq) (k : Nat) : (s.raise r).camera k = s.camera k := rfl
@[simp] theorem State.raise_lineOf (s : State) (r : ResetReq) (a : Nat) : (s.raise r).lineOf a = s.lineOf a := rfl
@[simp] theorem State.raise_rgn (s : State) (r : ResetReq) (e w : Nat) : (s.raise r).rgn e w = s.rgn e w := rfl
@[simp] theorem State.raise_win (s : State) (r : ResetReq) (n w : Nat) : (s.raise r).win n w = s.win n w := rfl

@[simp] theorem State.core_setCore (s : State) (c d : Nat) (x : Core) : (s.setCore c x).core d = if d = c then x else s.core d :=
  Tbl.get_set ..
@[simp] theorem Core.engine_setEngine (x : Core) (e i : Nat) (y : Engine) :
    (x.setEngine e y).engine i = if i = e then y else x.engine i := Tbl.get_set ..
@[simp] theorem State.cluster_setCluster (s : State) (k j : Nat) (x : Cluster) :
    (s.setCluster k x).cluster j = if j = k then x else s.cluster j := Tbl.get_set ..
@[simp] theorem State.o_setO (s : State) (k j v : Nat) : (s.setO k v).o j = if j = k then v else s.o j := by
  unfold State.o State.setO
  rw [Tbl.get_set]
  by_cases h : j = k
  · subst h
    by_cases e : v = objDflt j <;> simp [e]
  · simp [h]
@[simp] theorem State.o_incO (s : State) (k j n : Nat) : (s.incO k n).o j = if j = k then satAdd (objMax k) (s.o k) n else s.o j :=
  State.o_setO ..
@[simp] theorem State.d_setD (s : State) (k j : Nat) (v : List Byte) : (s.setD k v).d j = if j = k then v else s.d j := by
  unfold State.d State.setD
  rw [Tbl.get_set]
  by_cases h : j = k
  · subst h
    by_cases e : v = domDflt j <;> simp [e]
  · simp [h]
@[simp] theorem State.chan_setChan (s : State) (c d : Nat) (x : Channel) : (s.setChan c x).chan d = if d = c then x else s.chan d :=
  Tbl.get_set ..
@[simp] theorem State.lane_putLane (s : State) (i j : Nat) (x : Lane) : (s.putLane i x).lane j = if j = i then x else s.lane j :=
  Tbl.get_set ..
@[simp] theorem State.peer_setPeer (s : State) (n m : Nat) (x : PeerLink) :
    (s.setPeer n x).peer m = if m = n then x else s.peer m := Tbl.get_set ..
@[simp] theorem State.master_setMaster (s : State) (n m : Nat) (x : Master) :
    (s.setMaster n x).master m = if m = n then x else s.master m := Tbl.get_set ..
@[simp] theorem State.hq_setHq_same (s : State) (u q : Nat) (x : HQueue) : (s.setHq u q x).hq u q = x := Tbl.get_set_same ..
theorem State.hq_setHq_other (s : State) (u q v r : Nat) (x : HQueue) (h : v * 32 + r ≠ u * 32 + q) :
    (s.setHq u q x).hq v r = s.hq v r := Tbl.get_set_other _ _ _ _ _ h
@[simp] theorem State.rel_setRel_same (s : State) (l c : Nat) (x : RelChan) : (s.setRel l c x).rel l c = x := Tbl.get_set_same ..
@[simp] theorem State.loop_withLoop (s : State) (f : Loop → Loop) : (s.withLoop f).loop = f s.loop := rfl
@[simp] theorem State.reply_answer (s : State) (n : Nat) (d : List Byte) : (s.answer n d).reply = some (n, d) := rfl
@[simp] theorem State.reqs_raise (s : State) (r : ResetReq) : (s.raise r).reqs = s.reqs ++ [r] := rfl
@[simp] theorem State.bytes_poke (s : State) (a : Nat) (l : List Byte) : (s.poke a l).bytes a l.length = l :=
  Tbl.getList_setList ..
theorem State.byte_poke_other (s : State) (a b : Nat) (l : List Byte) (h : b < a ∨ a + l.length ≤ b) :
    (s.poke a l).byte b = s.byte b := Tbl.get_setList_other _ _ _ _ _ h


/-! ### What the shared operations leave alone -/

theorem State.traceRec_frame (s : State) (r : TraceRec) : ∃ b o, s.traceRec r = { s with obs := b, obj := o } := by
  unfold State.traceRec
  dsimp only
  split
  · exact ⟨_, _, rfl⟩
  · split <;> exact ⟨_, _, rfl⟩
theorem State.traceTime_frame (s : State) : ∃ b o, s.traceTime = { s with obs := b, obj := o } := by
  unfold State.traceTime
  dsimp only
  split
  · exact ⟨_, _, rfl⟩
  · exact State.traceRec_frame ..
theorem State.trace_frame (s : State) (a b c : Nat) (x : Option Nat) (d e : Nat) :
    ∃ p o, s.trace a b c x d e = { s with obs := p, obj := o } := by
  unfold State.trace
  split
  · obtain ⟨p, o, h⟩ := s.traceTime_frame
    obtain ⟨p2, o2, h2⟩ := s.traceTime.traceRec_frame
      ⟨s.now, a, b, c, false, x, d % 256, s.o 0x400007 % 2 ^ 16, e % 2 ^ 32⟩
    rw [h2, h]
    exact ⟨_, _, rfl⟩
  · exact ⟨_, _, rfl⟩
theorem State.logEv_frame (s : State) (a b c : Nat) (i : LogInfo) : ∃ p o, s.logEv a b c i = { s with obs := p, obj := o } := by
  unfold State.logEv
  dsimp only
  split
  · exact ⟨_, _, rfl⟩
  · generalize hT : State.setO _ _ _ = T
    obtain ⟨p, o, h⟩ := T.trace_frame 4 b 7 i.ctx a (s.o 0x800102 % 2 ^ 32)
    rw [h, ← hT]
    exact ⟨_, _, rfl⟩
theorem State.attention_frame (s : State) (n : Nat) : ∃ p o a, s.attention n = { s with obs := p, obj := o, attn := a } := by
  unfold State.attention
  generalize hT : ({ (s.incO 0x800005 1) with attn := [0, 1, 2, 3] } : State) = T
  obtain ⟨p, o, h⟩ := T.logEv_frame 0x1D 0 0 { detail := n }
  rw [h, ← hT]
  exact ⟨_, _, _, rfl⟩
theorem State.setSticky_frame (s : State) (n : Nat) : ∃ p o a, s.setSticky n = { s with obs := p, obj := o, attn := a } := by
  unfold State.setSticky
  split
  · exact ⟨_, _, _, rfl⟩
  · obtain ⟨p, o, a, h⟩ := (s.setOBit 0x800002 n true).attention_frame 0
    rw [h]
    exact ⟨_, _, _, rfl⟩
/-- A fold of steps that change only what `settle` changes does so too. -/
theorem settle_fold {α : Type} (f : State → α → State)
    (h : ∀ s x, ∃ p o a w, f s x = { s with obs := p, obj := o, attn := a, power := { s.power with idleFrom := w } }) :
    ∀ (l : List α) (s : State), ∃ p o a w, l.foldl f s = { s with obs := p, obj := o, attn := a, power := { s.power with idleFrom := w } }
  | [], s => ⟨_, _, _, _, rfl⟩
  | x :: r, s => by
    obtain ⟨p, o, a, w, e⟩ := h s x
    obtain ⟨p2, o2, a2, w2, e2⟩ := settle_fold f h r (f s x)
    rw [List.foldl_cons, e2, e]
    exact ⟨_, _, _, _, rfl⟩
theorem State.settle_frame (s : State) : ∃ p o a w, s.settle = { s with obs := p, obj := o, attn := a, power := { s.power with idleFrom := w } } := by
  have h1 : ∀ s : State, ∃ p o a w, s.settleCounts = { s with obs := p, obj := o, attn := a, power := { s.power with idleFrom := w } } := by
    intro s
    unfold State.settleCounts
    dsimp only
    have hs : ∀ (k v : Nat → State → Nat) (s : State) (x : Nat), ∃ p o a w, s.setO (k x s) (v x s) =
        { s with obs := p, obj := o, attn := a, power := { s.power with idleFrom := w } } := fun k v s x => ⟨_, _, _, _, rfl⟩
    obtain ⟨p, o, a, w, e⟩ := settle_fold (fun (t : State) p => t.setO (partObj p 4)
      ((s.coresOf p).filter (fun c => !s.oBit 0x800003 c)).length) (fun s x => ⟨_, _, _, _, rfl⟩) (List.range 4) s
    generalize (List.range 4).foldl _ s = s1 at e ⊢
    obtain ⟨p2, o2, a2, w2, e2⟩ := settle_fold (fun (t : State) w => t.setO (ok (0x3100 + w) 5)
      (countBelow 64 (fun n => s.ctxActive n && s.o (ctxObj n 1) == w))) (fun s x => ⟨_, _, _, _, rfl⟩) (List.range 4) s1
    generalize (List.range 4).foldl _ s1 = s2 at e2 ⊢
    obtain ⟨p3, o3, a3, w3, e3⟩ := settle_fold (fun (t : State) i => t.setO (slotObj (i + 1) 0xA)
      (countBelow 64 (fun n => s.ctxActive n && s.o (ctxObj n 4) == i + 1))) (fun s x => ⟨_, _, _, _, rfl⟩) (List.range 32) s2
    rw [e3, e2, e]
    exact ⟨_, _, _, _, rfl⟩
  have h2 : ∀ s : State, ∃ p o a w, s.settlePools = { s with obs := p, obj := o, attn := a, power := { s.power with idleFrom := w } } := by
    intro s
    unfold State.settlePools
    refine settle_fold _ (fun t x => ?_) _ _
    split
    · exact ⟨_, _, _, _, rfl⟩
    · obtain ⟨p, o, a, h⟩ := (t.setO 0x800001 (nput (t.o 0x800001) (2 * x.2) 2 x.1)).attention_frame x.2
      rw [h]
      exact ⟨_, _, _, _, rfl⟩
  have h3 : ∀ s : State, ∃ p o a w, s.settleFlags = { s with obs := p, obj := o, attn := a, power := { s.power with idleFrom := w } } := by
    intro s
    unfold State.settleFlags
    refine settle_fold _ (fun t x => ?_) _ _
    dsimp only
    split
    · exact ⟨_, _, _, _, rfl⟩
    · split
      · obtain ⟨p, o, a, h⟩ := (t.setOBit 0x800002 x.2 x.1).attention_frame 0
        rw [h]
        exact ⟨_, _, _, _, rfl⟩
      · exact ⟨_, _, _, _, rfl⟩
  have h4 : ∀ s : State, ∃ p o a w, s.settleIdle = { s with obs := p, obj := o, attn := a, power := { s.power with idleFrom := w } } := by
    intro s
    unfold State.settleIdle
    refine settle_fold _ (fun t x => ?_) _ _
    dsimp only
    generalize (if t.partIdle x = true then if Tbl.get 0 t.power.idleFrom x = 0 then t.now + 1 else Tbl.get 0 t.power.idleFrom x
      else 0) = v
    by_cases h : v = Tbl.get 0 t.power.idleFrom x
    · rw [if_pos h]; exact ⟨_, _, _, _, rfl⟩
    · rw [if_neg h]; exact ⟨_, _, _, _, rfl⟩
  have h5 : ∀ s : State, ∃ p o a w, s.settleState = { s with obs := p, obj := o, attn := a, power := { s.power with idleFrom := w } } := by
    intro s
    unfold State.settleState
    dsimp only
    split <;> exact ⟨_, _, _, _, rfl⟩
  unfold State.settle
  obtain ⟨p1, o1, a1, w1, e1⟩ := h1 s
  generalize s.settleCounts = s1 at e1 ⊢
  obtain ⟨p2, o2, a2, w2, e2⟩ := h2 s1
  generalize s1.settlePools = s2 at e2 ⊢
  obtain ⟨p3, o3, a3, w3, e3⟩ := h3 s2
  generalize s2.settleFlags = s3 at e3 ⊢
  obtain ⟨p4, o4, a4, w4, e4⟩ := h4 s3.settleConds.settleClusters
  obtain ⟨p5, o5, a5, w5, e5⟩ := h5 s3.settleConds.settleClusters.settleIdle
  rw [e5, e4]
  unfold State.settleConds State.settleClusters
  dsimp only [State.setOBit, State.setO]
  rw [e3, e2, e1]
  exact ⟨_, _, _, _, rfl⟩
theorem State.acted_frame (s : State) : ∃ o i, s.acted = { s with obj := o, inject := i } := by
  unfold State.acted
  dsimp only
  split
  · split <;> exact ⟨_, _, rfl⟩
  · exact ⟨_, _, rfl⟩
theorem State.putSent_frame (s : State) (l t : Nat) (d : List Byte) : ∃ x, s.putSent l t d = { s with sent := x } := ⟨_, rfl⟩
theorem State.release_frame (s : State) (l t : Nat) (d : List Byte) :
    ∃ x h, s.release l t d = { s with sent := x, heldTx := h } := by
  unfold State.release
  dsimp only
  split
  · split <;> exact ⟨_, _, rfl⟩
  · exact ⟨_, _, rfl⟩
theorem State.transmit_frame (s : State) (l t : Nat) (d : List Byte) :
    ∃ x h o i, s.transmit l t d = { s with sent := x, heldTx := h, obj := o, inject := i } := by
  unfold State.transmit
  split
  · exact ⟨_, _, _, _, rfl⟩
  · obtain ⟨o, i, h⟩ := s.acted_frame
    split
    · rw [h]; exact ⟨_, _, _, _, rfl⟩
    · obtain ⟨x, g, h2⟩ := s.acted.release_frame l t (corrupted d)
      rw [h2, h]; exact ⟨_, _, _, _, rfl⟩
    · split
      · rw [h]; exact ⟨_, _, _, _, rfl⟩
      · obtain ⟨x, g, h2⟩ := s.release_frame l t d
        rw [h2]; exact ⟨_, _, _, _, rfl⟩
    · obtain ⟨x, g, h2⟩ := s.release_frame l t d
      rw [h2]; exact ⟨_, _, _, _, rfl⟩
theorem State.sendRel_frame (s : State) (l c : Nat) (f : Frame) :
    ∃ r o i, s.sendRel l c f = { s with rels := r, obj := o, inject := i } := by
  unfold State.sendRel
  dsimp only
  split
  · exact ⟨_, _, _, rfl⟩
  · generalize hT : State.setRel _ _ _ _ = T
    obtain ⟨o, i, h⟩ := T.acted_frame
    rw [h, ← hT]
    exact ⟨_, _, _, rfl⟩
theorem State.ackRel_frame (s : State) (l c n : Nat) : ∃ r, s.ackRel l c n = { s with rels := r } := by
  unfold State.ackRel
  dsimp only
  split
  · exact ⟨_, rfl⟩
  · split <;> exact ⟨_, rfl⟩
theorem State.send_frame (s : State) (c p f : Nat) : ∃ x, s.send c p f = { s with chans := x } := ⟨_, rfl⟩
theorem State.sendLine_frame (s : State) (c o : Nat) (w : Bool) : ∃ x, s.sendLine c o w = { s with chans := x } := ⟨_, rfl⟩

@[simp] theorem State.traceRec_pending (s : State) (r : TraceRec) : (s.traceRec r).pending = s.pending := by obtain ⟨_, _, h⟩ := s.traceRec_frame r; rw [h]
@[simp] theorem State.traceRec_free (s : State) (r : TraceRec) : (s.traceRec r).free = s.free := by obtain ⟨_, _, h⟩ := s.traceRec_frame r; rw [h]
@[simp] theorem State.traceRec_clk (s : State) (r : TraceRec) : (s.traceRec r).clk = s.clk := by obtain ⟨_, _, h⟩ := s.traceRec_frame r; rw [h]
@[simp] theorem State.traceRec_cores (s : State) (r : TraceRec) : (s.traceRec r).cores = s.cores := by obtain ⟨_, _, h⟩ := s.traceRec_frame r; rw [h]
@[simp] theorem State.traceRec_clusters (s : State) (r : TraceRec) : (s.traceRec r).clusters = s.clusters := by obtain ⟨_, _, h⟩ := s.traceRec_frame r; rw [h]
@[simp] theorem State.traceRec_hqs (s : State) (r : TraceRec) : (s.traceRec r).hqs = s.hqs := by obtain ⟨_, _, h⟩ := s.traceRec_frame r; rw [h]
@[simp] theorem State.traceRec_forwards (s : State) (r : TraceRec) : (s.traceRec r).forwards = s.forwards := by obtain ⟨_, _, h⟩ := s.traceRec_frame r; rw [h]
@[simp] theorem State.traceRec_credits (s : State) (r : TraceRec) : (s.traceRec r).credits = s.credits := by obtain ⟨_, _, h⟩ := s.traceRec_frame r; rw [h]
@[simp] theorem State.traceRec_ecc (s : State) (r : TraceRec) : (s.traceRec r).ecc = s.ecc := by obtain ⟨_, _, h⟩ := s.traceRec_frame r; rw [h]
@[simp] theorem State.traceRec_line (s : State) (r : TraceRec) : (s.traceRec r).line = s.line := by obtain ⟨_, _, h⟩ := s.traceRec_frame r; rw [h]
@[simp] theorem State.traceRec_omap (s : State) (r : TraceRec) : (s.traceRec r).omap = s.omap := by obtain ⟨_, _, h⟩ := s.traceRec_frame r; rw [h]
@[simp] theorem State.traceRec_wins (s : State) (r : TraceRec) : (s.traceRec r).wins = s.wins := by obtain ⟨_, _, h⟩ := s.traceRec_frame r; rw [h]
@[simp] theorem State.traceRec_closingWins (s : State) (r : TraceRec) : (s.traceRec r).closingWins = s.closingWins := by obtain ⟨_, _, h⟩ := s.traceRec_frame r; rw [h]
@[simp] theorem State.traceRec_rgns (s : State) (r : TraceRec) : (s.traceRec r).rgns = s.rgns := by obtain ⟨_, _, h⟩ := s.traceRec_frame r; rw [h]
@[simp] theorem State.traceRec_rgnNext (s : State) (r : TraceRec) : (s.traceRec r).rgnNext = s.rgnNext := by obtain ⟨_, _, h⟩ := s.traceRec_frame r; rw [h]
@[simp] theorem State.traceRec_holders (s : State) (r : TraceRec) : (s.traceRec r).holders = s.holders := by obtain ⟨_, _, h⟩ := s.traceRec_frame r; rw [h]
@[simp] theorem State.traceRec_retiredPages (s : State) (r : TraceRec) : (s.traceRec r).retiredPages = s.retiredPages := by obtain ⟨_, _, h⟩ := s.traceRec_frame r; rw [h]
@[simp] theorem State.traceRec_ctxTab (s : State) (r : TraceRec) : (s.traceRec r).ctxTab = s.ctxTab := by obtain ⟨_, _, h⟩ := s.traceRec_frame r; rw [h]
@[simp] theorem State.traceRec_dom (s : State) (r : TraceRec) : (s.traceRec r).dom = s.dom := by obtain ⟨_, _, h⟩ := s.traceRec_frame r; rw [h]
@[simp] theorem State.traceRec_chans (s : State) (r : TraceRec) : (s.traceRec r).chans = s.chans := by obtain ⟨_, _, h⟩ := s.traceRec_frame r; rw [h]
@[simp] theorem State.traceRec_reply (s : State) (r : TraceRec) : (s.traceRec r).reply = s.reply := by obtain ⟨_, _, h⟩ := s.traceRec_frame r; rw [h]
@[simp] theorem State.traceRec_loop (s : State) (r : TraceRec) : (s.traceRec r).loop = s.loop := by obtain ⟨_, _, h⟩ := s.traceRec_frame r; rw [h]
@[simp] theorem State.traceRec_sources (s : State) (r : TraceRec) : (s.traceRec r).sources = s.sources := by obtain ⟨_, _, h⟩ := s.traceRec_frame r; rw [h]
@[simp] theorem State.traceRec_boot (s : State) (r : TraceRec) : (s.traceRec r).boot = s.boot := by obtain ⟨_, _, h⟩ := s.traceRec_frame r; rw [h]
@[simp] theorem State.traceRec_lanes (s : State) (r : TraceRec) : (s.traceRec r).lanes = s.lanes := by obtain ⟨_, _, h⟩ := s.traceRec_frame r; rw [h]
@[simp] theorem State.traceRec_rels (s : State) (r : TraceRec) : (s.traceRec r).rels = s.rels := by obtain ⟨_, _, h⟩ := s.traceRec_frame r; rw [h]
@[simp] theorem State.traceRec_sent (s : State) (r : TraceRec) : (s.traceRec r).sent = s.sent := by obtain ⟨_, _, h⟩ := s.traceRec_frame r; rw [h]
@[simp] theorem State.traceRec_cyclic (s : State) (r : TraceRec) : (s.traceRec r).cyclic = s.cyclic := by obtain ⟨_, _, h⟩ := s.traceRec_frame r; rw [h]
@[simp] theorem State.traceRec_peers (s : State) (r : TraceRec) : (s.traceRec r).peers = s.peers := by obtain ⟨_, _, h⟩ := s.traceRec_frame r; rw [h]
@[simp] theorem State.traceRec_writes (s : State) (r : TraceRec) : (s.traceRec r).writes = s.writes := by obtain ⟨_, _, h⟩ := s.traceRec_frame r; rw [h]
@[simp] theorem State.traceRec_inWrites (s : State) (r : TraceRec) : (s.traceRec r).inWrites = s.inWrites := by obtain ⟨_, _, h⟩ := s.traceRec_frame r; rw [h]
@[simp] theorem State.traceRec_attn (s : State) (r : TraceRec) : (s.traceRec r).attn = s.attn := by obtain ⟨_, _, h⟩ := s.traceRec_frame r; rw [h]
@[simp] theorem State.traceRec_reqs (s : State) (r : TraceRec) : (s.traceRec r).reqs = s.reqs := by obtain ⟨_, _, h⟩ := s.traceRec_frame r; rw [h]
@[simp] theorem State.traceRec_steps (s : State) (r : TraceRec) : (s.traceRec r).steps = s.steps := by obtain ⟨_, _, h⟩ := s.traceRec_frame r; rw [h]
@[simp] theorem State.traceRec_stepLog (s : State) (r : TraceRec) : (s.traceRec r).stepLog = s.stepLog := by obtain ⟨_, _, h⟩ := s.traceRec_frame r; rw [h]
@[simp] theorem State.traceRec_inject (s : State) (r : TraceRec) : (s.traceRec r).inject = s.inject := by obtain ⟨_, _, h⟩ := s.traceRec_frame r; rw [h]
@[simp] theorem State.traceRec_masters (s : State) (r : TraceRec) : (s.traceRec r).masters = s.masters := by obtain ⟨_, _, h⟩ := s.traceRec_frame r; rw [h]
@[simp] theorem State.traceRec_transfers (s : State) (r : TraceRec) : (s.traceRec r).transfers = s.transfers := by obtain ⟨_, _, h⟩ := s.traceRec_frame r; rw [h]
@[simp] theorem State.traceRec_aborted (s : State) (r : TraceRec) : (s.traceRec r).aborted = s.aborted := by obtain ⟨_, _, h⟩ := s.traceRec_frame r; rw [h]
@[simp] theorem State.traceRec_maps (s : State) (r : TraceRec) : (s.traceRec r).maps = s.maps := by obtain ⟨_, _, h⟩ := s.traceRec_frame r; rw [h]
@[simp] theorem State.traceRec_invocations (s : State) (r : TraceRec) : (s.traceRec r).invocations = s.invocations := by obtain ⟨_, _, h⟩ := s.traceRec_frame r; rw [h]
@[simp] theorem State.traceRec_saved (s : State) (r : TraceRec) : (s.traceRec r).saved = s.saved := by obtain ⟨_, _, h⟩ := s.traceRec_frame r; rw [h]
@[simp] theorem State.traceRec_stoppingCtx (s : State) (r : TraceRec) : (s.traceRec r).stoppingCtx = s.stoppingCtx := by obtain ⟨_, _, h⟩ := s.traceRec_frame r; rw [h]
@[simp] theorem State.traceRec_pins (s : State) (r : TraceRec) : (s.traceRec r).pins = s.pins := by obtain ⟨_, _, h⟩ := s.traceRec_frame r; rw [h]
@[simp] theorem State.traceRec_fw (s : State) (r : TraceRec) : (s.traceRec r).fw = s.fw := by obtain ⟨_, _, h⟩ := s.traceRec_frame r; rw [h]
@[simp] theorem State.traceRec_fuses (s : State) (r : TraceRec) : (s.traceRec r).fuses = s.fuses := by obtain ⟨_, _, h⟩ := s.traceRec_frame r; rw [h]
@[simp] theorem State.traceRec_power (s : State) (r : TraceRec) : (s.traceRec r).power = s.power := by obtain ⟨_, _, h⟩ := s.traceRec_frame r; rw [h]
@[simp] theorem State.traceRec_flash (s : State) (r : TraceRec) : (s.traceRec r).flash = s.flash := by obtain ⟨_, _, h⟩ := s.traceRec_frame r; rw [h]
@[simp] theorem State.traceRec_repairs (s : State) (r : TraceRec) : (s.traceRec r).repairs = s.repairs := by obtain ⟨_, _, h⟩ := s.traceRec_frame r; rw [h]
@[simp] theorem State.traceRec_adapts (s : State) (r : TraceRec) : (s.traceRec r).adapts = s.adapts := by obtain ⟨_, _, h⟩ := s.traceRec_frame r; rw [h]
@[simp] theorem State.traceRec_submissions (s : State) (r : TraceRec) : (s.traceRec r).submissions = s.submissions := by obtain ⟨_, _, h⟩ := s.traceRec_frame r; rw [h]
@[simp] theorem State.traceRec_cameras (s : State) (r : TraceRec) : (s.traceRec r).cameras = s.cameras := by obtain ⟨_, _, h⟩ := s.traceRec_frame r; rw [h]
@[simp] theorem State.traceRec_tokenizer (s : State) (r : TraceRec) : (s.traceRec r).tokenizer = s.tokenizer := by obtain ⟨_, _, h⟩ := s.traceRec_frame r; rw [h]
@[simp] theorem State.traceRec_responses (s : State) (r : TraceRec) : (s.traceRec r).responses = s.responses := by obtain ⟨_, _, h⟩ := s.traceRec_frame r; rw [h]
@[simp] theorem State.traceRec_owned (s : State) (r : TraceRec) : (s.traceRec r).owned = s.owned := by obtain ⟨_, _, h⟩ := s.traceRec_frame r; rw [h]
@[simp] theorem State.traceRec_core (s : State) (r : TraceRec) (c : Nat) : (s.traceRec r).core c = s.core c := by obtain ⟨_, _, h⟩ := s.traceRec_frame r; rw [h]; rfl
@[simp] theorem State.traceRec_engine (s : State) (r : TraceRec) (c e : Nat) : (s.traceRec r).engine c e = s.engine c e := by obtain ⟨_, _, h⟩ := s.traceRec_frame r; rw [h]; rfl
@[simp] theorem State.traceRec_cluster (s : State) (r : TraceRec) (k : Nat) : (s.traceRec r).cluster k = s.cluster k := by obtain ⟨_, _, h⟩ := s.traceRec_frame r; rw [h]; rfl
@[simp] theorem State.traceRec_hq (s : State) (r : TraceRec) (u q : Nat) : (s.traceRec r).hq u q = s.hq u q := by obtain ⟨_, _, h⟩ := s.traceRec_frame r; rw [h]; rfl
@[simp] theorem State.traceRec_d (s : State) (r : TraceRec) (k : Nat) : (s.traceRec r).d k = s.d k := by obtain ⟨_, _, h⟩ := s.traceRec_frame r; rw [h]; rfl
@[simp] theorem State.traceRec_byte (s : State) (r : TraceRec) (a : Nat) : (s.traceRec r).byte a = s.byte a := by obtain ⟨_, _, h⟩ := s.traceRec_frame r; rw [h]; rfl
@[simp] theorem State.traceRec_bytes (s : State) (r : TraceRec) (a n : Nat) : (s.traceRec r).bytes a n = s.bytes a n := by obtain ⟨_, _, h⟩ := s.traceRec_frame r; rw [h]; rfl
@[simp] theorem State.traceRec_now (s : State) (r : TraceRec) : (s.traceRec r).now = s.now := by obtain ⟨_, _, h⟩ := s.traceRec_frame r; rw [h]; rfl
@[simp] theorem State.traceRec_unitCycle (s : State) (r : TraceRec) (u : Nat) : (s.traceRec r).unitCycle u = s.unitCycle u := by obtain ⟨_, _, h⟩ := s.traceRec_frame r; rw [h]; rfl
@[simp] theorem State.traceRec_coreCycle (s : State) (r : TraceRec) (c : Nat) : (s.traceRec r).coreCycle c = s.coreCycle c := by obtain ⟨_, _, h⟩ := s.traceRec_frame r; rw [h]; rfl
@[simp] theorem State.traceRec_chan (s : State) (r : TraceRec) (c : Nat) : (s.traceRec r).chan c = s.chan c := by obtain ⟨_, _, h⟩ := s.traceRec_frame r; rw [h]; rfl
@[simp] theorem State.traceRec_lane (s : State) (r : TraceRec) (i : Nat) : (s.traceRec r).lane i = s.lane i := by obtain ⟨_, _, h⟩ := s.traceRec_frame r; rw [h]; rfl
@[simp] theorem State.traceRec_rel (s : State) (r : TraceRec) (l c : Nat) : (s.traceRec r).rel l c = s.rel l c := by obtain ⟨_, _, h⟩ := s.traceRec_frame r; rw [h]; rfl
@[simp] theorem State.traceRec_peer (s : State) (r : TraceRec) (n : Nat) : (s.traceRec r).peer n = s.peer n := by obtain ⟨_, _, h⟩ := s.traceRec_frame r; rw [h]; rfl
@[simp] theorem State.traceRec_master (s : State) (r : TraceRec) (m : Nat) : (s.traceRec r).master m = s.master m := by obtain ⟨_, _, h⟩ := s.traceRec_frame r; rw [h]; rfl
@[simp] theorem State.traceRec_adapt (s : State) (r : TraceRec) (n : Nat) : (s.traceRec r).adapt n = s.adapt n := by obtain ⟨_, _, h⟩ := s.traceRec_frame r; rw [h]; rfl
@[simp] theorem State.traceRec_camera (s : State) (r : TraceRec) (k : Nat) : (s.traceRec r).camera k = s.camera k := by obtain ⟨_, _, h⟩ := s.traceRec_frame r; rw [h]; rfl
@[simp] theorem State.traceRec_lineOf (s : State) (r : TraceRec) (a : Nat) : (s.traceRec r).lineOf a = s.lineOf a := by obtain ⟨_, _, h⟩ := s.traceRec_frame r; rw [h]; rfl
@[simp] theorem State.traceRec_rgn (s : State) (r : TraceRec) (e w : Nat) : (s.traceRec r).rgn e w = s.rgn e w := by obtain ⟨_, _, h⟩ := s.traceRec_frame r; rw [h]; rfl
@[simp] theorem State.traceRec_win (s : State) (r : TraceRec) (n w : Nat) : (s.traceRec r).win n w = s.win n w := by obtain ⟨_, _, h⟩ := s.traceRec_frame r; rw [h]; rfl
@[simp] theorem State.traceTime_pending (s : State) : (s.traceTime).pending = s.pending := by obtain ⟨_, _, h⟩ := s.traceTime_frame; rw [h]
@[simp] theorem State.traceTime_free (s : State) : (s.traceTime).free = s.free := by obtain ⟨_, _, h⟩ := s.traceTime_frame; rw [h]
@[simp] theorem State.traceTime_clk (s : State) : (s.traceTime).clk = s.clk := by obtain ⟨_, _, h⟩ := s.traceTime_frame; rw [h]
@[simp] theorem State.traceTime_cores (s : State) : (s.traceTime).cores = s.cores := by obtain ⟨_, _, h⟩ := s.traceTime_frame; rw [h]
@[simp] theorem State.traceTime_clusters (s : State) : (s.traceTime).clusters = s.clusters := by obtain ⟨_, _, h⟩ := s.traceTime_frame; rw [h]
@[simp] theorem State.traceTime_hqs (s : State) : (s.traceTime).hqs = s.hqs := by obtain ⟨_, _, h⟩ := s.traceTime_frame; rw [h]
@[simp] theorem State.traceTime_forwards (s : State) : (s.traceTime).forwards = s.forwards := by obtain ⟨_, _, h⟩ := s.traceTime_frame; rw [h]
@[simp] theorem State.traceTime_credits (s : State) : (s.traceTime).credits = s.credits := by obtain ⟨_, _, h⟩ := s.traceTime_frame; rw [h]
@[simp] theorem State.traceTime_ecc (s : State) : (s.traceTime).ecc = s.ecc := by obtain ⟨_, _, h⟩ := s.traceTime_frame; rw [h]
@[simp] theorem State.traceTime_line (s : State) : (s.traceTime).line = s.line := by obtain ⟨_, _, h⟩ := s.traceTime_frame; rw [h]
@[simp] theorem State.traceTime_omap (s : State) : (s.traceTime).omap = s.omap := by obtain ⟨_, _, h⟩ := s.traceTime_frame; rw [h]
@[simp] theorem State.traceTime_wins (s : State) : (s.traceTime).wins = s.wins := by obtain ⟨_, _, h⟩ := s.traceTime_frame; rw [h]
@[simp] theorem State.traceTime_closingWins (s : State) : (s.traceTime).closingWins = s.closingWins := by obtain ⟨_, _, h⟩ := s.traceTime_frame; rw [h]
@[simp] theorem State.traceTime_rgns (s : State) : (s.traceTime).rgns = s.rgns := by obtain ⟨_, _, h⟩ := s.traceTime_frame; rw [h]
@[simp] theorem State.traceTime_rgnNext (s : State) : (s.traceTime).rgnNext = s.rgnNext := by obtain ⟨_, _, h⟩ := s.traceTime_frame; rw [h]
@[simp] theorem State.traceTime_holders (s : State) : (s.traceTime).holders = s.holders := by obtain ⟨_, _, h⟩ := s.traceTime_frame; rw [h]
@[simp] theorem State.traceTime_retiredPages (s : State) : (s.traceTime).retiredPages = s.retiredPages := by obtain ⟨_, _, h⟩ := s.traceTime_frame; rw [h]
@[simp] theorem State.traceTime_ctxTab (s : State) : (s.traceTime).ctxTab = s.ctxTab := by obtain ⟨_, _, h⟩ := s.traceTime_frame; rw [h]
@[simp] theorem State.traceTime_dom (s : State) : (s.traceTime).dom = s.dom := by obtain ⟨_, _, h⟩ := s.traceTime_frame; rw [h]
@[simp] theorem State.traceTime_chans (s : State) : (s.traceTime).chans = s.chans := by obtain ⟨_, _, h⟩ := s.traceTime_frame; rw [h]
@[simp] theorem State.traceTime_reply (s : State) : (s.traceTime).reply = s.reply := by obtain ⟨_, _, h⟩ := s.traceTime_frame; rw [h]
@[simp] theorem State.traceTime_loop (s : State) : (s.traceTime).loop = s.loop := by obtain ⟨_, _, h⟩ := s.traceTime_frame; rw [h]
@[simp] theorem State.traceTime_sources (s : State) : (s.traceTime).sources = s.sources := by obtain ⟨_, _, h⟩ := s.traceTime_frame; rw [h]
@[simp] theorem State.traceTime_boot (s : State) : (s.traceTime).boot = s.boot := by obtain ⟨_, _, h⟩ := s.traceTime_frame; rw [h]
@[simp] theorem State.traceTime_lanes (s : State) : (s.traceTime).lanes = s.lanes := by obtain ⟨_, _, h⟩ := s.traceTime_frame; rw [h]
@[simp] theorem State.traceTime_rels (s : State) : (s.traceTime).rels = s.rels := by obtain ⟨_, _, h⟩ := s.traceTime_frame; rw [h]
@[simp] theorem State.traceTime_sent (s : State) : (s.traceTime).sent = s.sent := by obtain ⟨_, _, h⟩ := s.traceTime_frame; rw [h]
@[simp] theorem State.traceTime_cyclic (s : State) : (s.traceTime).cyclic = s.cyclic := by obtain ⟨_, _, h⟩ := s.traceTime_frame; rw [h]
@[simp] theorem State.traceTime_peers (s : State) : (s.traceTime).peers = s.peers := by obtain ⟨_, _, h⟩ := s.traceTime_frame; rw [h]
@[simp] theorem State.traceTime_writes (s : State) : (s.traceTime).writes = s.writes := by obtain ⟨_, _, h⟩ := s.traceTime_frame; rw [h]
@[simp] theorem State.traceTime_inWrites (s : State) : (s.traceTime).inWrites = s.inWrites := by obtain ⟨_, _, h⟩ := s.traceTime_frame; rw [h]
@[simp] theorem State.traceTime_attn (s : State) : (s.traceTime).attn = s.attn := by obtain ⟨_, _, h⟩ := s.traceTime_frame; rw [h]
@[simp] theorem State.traceTime_reqs (s : State) : (s.traceTime).reqs = s.reqs := by obtain ⟨_, _, h⟩ := s.traceTime_frame; rw [h]
@[simp] theorem State.traceTime_steps (s : State) : (s.traceTime).steps = s.steps := by obtain ⟨_, _, h⟩ := s.traceTime_frame; rw [h]
@[simp] theorem State.traceTime_stepLog (s : State) : (s.traceTime).stepLog = s.stepLog := by obtain ⟨_, _, h⟩ := s.traceTime_frame; rw [h]
@[simp] theorem State.traceTime_inject (s : State) : (s.traceTime).inject = s.inject := by obtain ⟨_, _, h⟩ := s.traceTime_frame; rw [h]
@[simp] theorem State.traceTime_masters (s : State) : (s.traceTime).masters = s.masters := by obtain ⟨_, _, h⟩ := s.traceTime_frame; rw [h]
@[simp] theorem State.traceTime_transfers (s : State) : (s.traceTime).transfers = s.transfers := by obtain ⟨_, _, h⟩ := s.traceTime_frame; rw [h]
@[simp] theorem State.traceTime_aborted (s : State) : (s.traceTime).aborted = s.aborted := by obtain ⟨_, _, h⟩ := s.traceTime_frame; rw [h]
@[simp] theorem State.traceTime_maps (s : State) : (s.traceTime).maps = s.maps := by obtain ⟨_, _, h⟩ := s.traceTime_frame; rw [h]
@[simp] theorem State.traceTime_invocations (s : State) : (s.traceTime).invocations = s.invocations := by obtain ⟨_, _, h⟩ := s.traceTime_frame; rw [h]
@[simp] theorem State.traceTime_saved (s : State) : (s.traceTime).saved = s.saved := by obtain ⟨_, _, h⟩ := s.traceTime_frame; rw [h]
@[simp] theorem State.traceTime_stoppingCtx (s : State) : (s.traceTime).stoppingCtx = s.stoppingCtx := by obtain ⟨_, _, h⟩ := s.traceTime_frame; rw [h]
@[simp] theorem State.traceTime_pins (s : State) : (s.traceTime).pins = s.pins := by obtain ⟨_, _, h⟩ := s.traceTime_frame; rw [h]
@[simp] theorem State.traceTime_fw (s : State) : (s.traceTime).fw = s.fw := by obtain ⟨_, _, h⟩ := s.traceTime_frame; rw [h]
@[simp] theorem State.traceTime_fuses (s : State) : (s.traceTime).fuses = s.fuses := by obtain ⟨_, _, h⟩ := s.traceTime_frame; rw [h]
@[simp] theorem State.traceTime_power (s : State) : (s.traceTime).power = s.power := by obtain ⟨_, _, h⟩ := s.traceTime_frame; rw [h]
@[simp] theorem State.traceTime_flash (s : State) : (s.traceTime).flash = s.flash := by obtain ⟨_, _, h⟩ := s.traceTime_frame; rw [h]
@[simp] theorem State.traceTime_repairs (s : State) : (s.traceTime).repairs = s.repairs := by obtain ⟨_, _, h⟩ := s.traceTime_frame; rw [h]
@[simp] theorem State.traceTime_adapts (s : State) : (s.traceTime).adapts = s.adapts := by obtain ⟨_, _, h⟩ := s.traceTime_frame; rw [h]
@[simp] theorem State.traceTime_submissions (s : State) : (s.traceTime).submissions = s.submissions := by obtain ⟨_, _, h⟩ := s.traceTime_frame; rw [h]
@[simp] theorem State.traceTime_cameras (s : State) : (s.traceTime).cameras = s.cameras := by obtain ⟨_, _, h⟩ := s.traceTime_frame; rw [h]
@[simp] theorem State.traceTime_tokenizer (s : State) : (s.traceTime).tokenizer = s.tokenizer := by obtain ⟨_, _, h⟩ := s.traceTime_frame; rw [h]
@[simp] theorem State.traceTime_responses (s : State) : (s.traceTime).responses = s.responses := by obtain ⟨_, _, h⟩ := s.traceTime_frame; rw [h]
@[simp] theorem State.traceTime_owned (s : State) : (s.traceTime).owned = s.owned := by obtain ⟨_, _, h⟩ := s.traceTime_frame; rw [h]
@[simp] theorem State.traceTime_core (s : State) (c : Nat) : (s.traceTime).core c = s.core c := by obtain ⟨_, _, h⟩ := s.traceTime_frame; rw [h]; rfl
@[simp] theorem State.traceTime_engine (s : State) (c e : Nat) : (s.traceTime).engine c e = s.engine c e := by obtain ⟨_, _, h⟩ := s.traceTime_frame; rw [h]; rfl
@[simp] theorem State.traceTime_cluster (s : State) (k : Nat) : (s.traceTime).cluster k = s.cluster k := by obtain ⟨_, _, h⟩ := s.traceTime_frame; rw [h]; rfl
@[simp] theorem State.traceTime_hq (s : State) (u q : Nat) : (s.traceTime).hq u q = s.hq u q := by obtain ⟨_, _, h⟩ := s.traceTime_frame; rw [h]; rfl
@[simp] theorem State.traceTime_d (s : State) (k : Nat) : (s.traceTime).d k = s.d k := by obtain ⟨_, _, h⟩ := s.traceTime_frame; rw [h]; rfl
@[simp] theorem State.traceTime_byte (s : State) (a : Nat) : (s.traceTime).byte a = s.byte a := by obtain ⟨_, _, h⟩ := s.traceTime_frame; rw [h]; rfl
@[simp] theorem State.traceTime_bytes (s : State) (a n : Nat) : (s.traceTime).bytes a n = s.bytes a n := by obtain ⟨_, _, h⟩ := s.traceTime_frame; rw [h]; rfl
@[simp] theorem State.traceTime_now (s : State) : (s.traceTime).now = s.now := by obtain ⟨_, _, h⟩ := s.traceTime_frame; rw [h]; rfl
@[simp] theorem State.traceTime_unitCycle (s : State) (u : Nat) : (s.traceTime).unitCycle u = s.unitCycle u := by obtain ⟨_, _, h⟩ := s.traceTime_frame; rw [h]; rfl
@[simp] theorem State.traceTime_coreCycle (s : State) (c : Nat) : (s.traceTime).coreCycle c = s.coreCycle c := by obtain ⟨_, _, h⟩ := s.traceTime_frame; rw [h]; rfl
@[simp] theorem State.traceTime_chan (s : State) (c : Nat) : (s.traceTime).chan c = s.chan c := by obtain ⟨_, _, h⟩ := s.traceTime_frame; rw [h]; rfl
@[simp] theorem State.traceTime_lane (s : State) (i : Nat) : (s.traceTime).lane i = s.lane i := by obtain ⟨_, _, h⟩ := s.traceTime_frame; rw [h]; rfl
@[simp] theorem State.traceTime_rel (s : State) (l c : Nat) : (s.traceTime).rel l c = s.rel l c := by obtain ⟨_, _, h⟩ := s.traceTime_frame; rw [h]; rfl
@[simp] theorem State.traceTime_peer (s : State) (n : Nat) : (s.traceTime).peer n = s.peer n := by obtain ⟨_, _, h⟩ := s.traceTime_frame; rw [h]; rfl
@[simp] theorem State.traceTime_master (s : State) (m : Nat) : (s.traceTime).master m = s.master m := by obtain ⟨_, _, h⟩ := s.traceTime_frame; rw [h]; rfl
@[simp] theorem State.traceTime_adapt (s : State) (n : Nat) : (s.traceTime).adapt n = s.adapt n := by obtain ⟨_, _, h⟩ := s.traceTime_frame; rw [h]; rfl
@[simp] theorem State.traceTime_camera (s : State) (k : Nat) : (s.traceTime).camera k = s.camera k := by obtain ⟨_, _, h⟩ := s.traceTime_frame; rw [h]; rfl
@[simp] theorem State.traceTime_lineOf (s : State) (a : Nat) : (s.traceTime).lineOf a = s.lineOf a := by obtain ⟨_, _, h⟩ := s.traceTime_frame; rw [h]; rfl
@[simp] theorem State.traceTime_rgn (s : State) (e w : Nat) : (s.traceTime).rgn e w = s.rgn e w := by obtain ⟨_, _, h⟩ := s.traceTime_frame; rw [h]; rfl
@[simp] theorem State.traceTime_win (s : State) (n w : Nat) : (s.traceTime).win n w = s.win n w := by obtain ⟨_, _, h⟩ := s.traceTime_frame; rw [h]; rfl
@[simp] theorem State.trace_pending (s : State) (a b c : Nat) (x : Option Nat) (d e : Nat) : (s.trace a b c x d e).pending = s.pending := by obtain ⟨_, _, h⟩ := s.trace_frame a b c x d e; rw [h]
@[simp] theorem State.trace_free (s : State) (a b c : Nat) (x : Option Nat) (d e : Nat) : (s.trace a b c x d e).free = s.free := by obtain ⟨_, _, h⟩ := s.trace_frame a b c x d e; rw [h]
@[simp] theorem State.trace_clk (s : State) (a b c : Nat) (x : Option Nat) (d e : Nat) : (s.trace a b c x d e).clk = s.clk := by obtain ⟨_, _, h⟩ := s.trace_frame a b c x d e; rw [h]
@[simp] theorem State.trace_cores (s : State) (a b c : Nat) (x : Option Nat) (d e : Nat) : (s.trace a b c x d e).cores = s.cores := by obtain ⟨_, _, h⟩ := s.trace_frame a b c x d e; rw [h]
@[simp] theorem State.trace_clusters (s : State) (a b c : Nat) (x : Option Nat) (d e : Nat) : (s.trace a b c x d e).clusters = s.clusters := by obtain ⟨_, _, h⟩ := s.trace_frame a b c x d e; rw [h]
@[simp] theorem State.trace_hqs (s : State) (a b c : Nat) (x : Option Nat) (d e : Nat) : (s.trace a b c x d e).hqs = s.hqs := by obtain ⟨_, _, h⟩ := s.trace_frame a b c x d e; rw [h]
@[simp] theorem State.trace_forwards (s : State) (a b c : Nat) (x : Option Nat) (d e : Nat) : (s.trace a b c x d e).forwards = s.forwards := by obtain ⟨_, _, h⟩ := s.trace_frame a b c x d e; rw [h]
@[simp] theorem State.trace_credits (s : State) (a b c : Nat) (x : Option Nat) (d e : Nat) : (s.trace a b c x d e).credits = s.credits := by obtain ⟨_, _, h⟩ := s.trace_frame a b c x d e; rw [h]
@[simp] theorem State.trace_ecc (s : State) (a b c : Nat) (x : Option Nat) (d e : Nat) : (s.trace a b c x d e).ecc = s.ecc := by obtain ⟨_, _, h⟩ := s.trace_frame a b c x d e; rw [h]
@[simp] theorem State.trace_line (s : State) (a b c : Nat) (x : Option Nat) (d e : Nat) : (s.trace a b c x d e).line = s.line := by obtain ⟨_, _, h⟩ := s.trace_frame a b c x d e; rw [h]
@[simp] theorem State.trace_omap (s : State) (a b c : Nat) (x : Option Nat) (d e : Nat) : (s.trace a b c x d e).omap = s.omap := by obtain ⟨_, _, h⟩ := s.trace_frame a b c x d e; rw [h]
@[simp] theorem State.trace_wins (s : State) (a b c : Nat) (x : Option Nat) (d e : Nat) : (s.trace a b c x d e).wins = s.wins := by obtain ⟨_, _, h⟩ := s.trace_frame a b c x d e; rw [h]
@[simp] theorem State.trace_closingWins (s : State) (a b c : Nat) (x : Option Nat) (d e : Nat) : (s.trace a b c x d e).closingWins = s.closingWins := by obtain ⟨_, _, h⟩ := s.trace_frame a b c x d e; rw [h]
@[simp] theorem State.trace_rgns (s : State) (a b c : Nat) (x : Option Nat) (d e : Nat) : (s.trace a b c x d e).rgns = s.rgns := by obtain ⟨_, _, h⟩ := s.trace_frame a b c x d e; rw [h]
@[simp] theorem State.trace_rgnNext (s : State) (a b c : Nat) (x : Option Nat) (d e : Nat) : (s.trace a b c x d e).rgnNext = s.rgnNext := by obtain ⟨_, _, h⟩ := s.trace_frame a b c x d e; rw [h]
@[simp] theorem State.trace_holders (s : State) (a b c : Nat) (x : Option Nat) (d e : Nat) : (s.trace a b c x d e).holders = s.holders := by obtain ⟨_, _, h⟩ := s.trace_frame a b c x d e; rw [h]
@[simp] theorem State.trace_retiredPages (s : State) (a b c : Nat) (x : Option Nat) (d e : Nat) : (s.trace a b c x d e).retiredPages = s.retiredPages := by obtain ⟨_, _, h⟩ := s.trace_frame a b c x d e; rw [h]
@[simp] theorem State.trace_ctxTab (s : State) (a b c : Nat) (x : Option Nat) (d e : Nat) : (s.trace a b c x d e).ctxTab = s.ctxTab := by obtain ⟨_, _, h⟩ := s.trace_frame a b c x d e; rw [h]
@[simp] theorem State.trace_dom (s : State) (a b c : Nat) (x : Option Nat) (d e : Nat) : (s.trace a b c x d e).dom = s.dom := by obtain ⟨_, _, h⟩ := s.trace_frame a b c x d e; rw [h]
@[simp] theorem State.trace_chans (s : State) (a b c : Nat) (x : Option Nat) (d e : Nat) : (s.trace a b c x d e).chans = s.chans := by obtain ⟨_, _, h⟩ := s.trace_frame a b c x d e; rw [h]
@[simp] theorem State.trace_reply (s : State) (a b c : Nat) (x : Option Nat) (d e : Nat) : (s.trace a b c x d e).reply = s.reply := by obtain ⟨_, _, h⟩ := s.trace_frame a b c x d e; rw [h]
@[simp] theorem State.trace_loop (s : State) (a b c : Nat) (x : Option Nat) (d e : Nat) : (s.trace a b c x d e).loop = s.loop := by obtain ⟨_, _, h⟩ := s.trace_frame a b c x d e; rw [h]
@[simp] theorem State.trace_sources (s : State) (a b c : Nat) (x : Option Nat) (d e : Nat) : (s.trace a b c x d e).sources = s.sources := by obtain ⟨_, _, h⟩ := s.trace_frame a b c x d e; rw [h]
@[simp] theorem State.trace_boot (s : State) (a b c : Nat) (x : Option Nat) (d e : Nat) : (s.trace a b c x d e).boot = s.boot := by obtain ⟨_, _, h⟩ := s.trace_frame a b c x d e; rw [h]
@[simp] theorem State.trace_lanes (s : State) (a b c : Nat) (x : Option Nat) (d e : Nat) : (s.trace a b c x d e).lanes = s.lanes := by obtain ⟨_, _, h⟩ := s.trace_frame a b c x d e; rw [h]
@[simp] theorem State.trace_rels (s : State) (a b c : Nat) (x : Option Nat) (d e : Nat) : (s.trace a b c x d e).rels = s.rels := by obtain ⟨_, _, h⟩ := s.trace_frame a b c x d e; rw [h]
@[simp] theorem State.trace_sent (s : State) (a b c : Nat) (x : Option Nat) (d e : Nat) : (s.trace a b c x d e).sent = s.sent := by obtain ⟨_, _, h⟩ := s.trace_frame a b c x d e; rw [h]
@[simp] theorem State.trace_cyclic (s : State) (a b c : Nat) (x : Option Nat) (d e : Nat) : (s.trace a b c x d e).cyclic = s.cyclic := by obtain ⟨_, _, h⟩ := s.trace_frame a b c x d e; rw [h]
@[simp] theorem State.trace_peers (s : State) (a b c : Nat) (x : Option Nat) (d e : Nat) : (s.trace a b c x d e).peers = s.peers := by obtain ⟨_, _, h⟩ := s.trace_frame a b c x d e; rw [h]
@[simp] theorem State.trace_writes (s : State) (a b c : Nat) (x : Option Nat) (d e : Nat) : (s.trace a b c x d e).writes = s.writes := by obtain ⟨_, _, h⟩ := s.trace_frame a b c x d e; rw [h]
@[simp] theorem State.trace_inWrites (s : State) (a b c : Nat) (x : Option Nat) (d e : Nat) : (s.trace a b c x d e).inWrites = s.inWrites := by obtain ⟨_, _, h⟩ := s.trace_frame a b c x d e; rw [h]
@[simp] theorem State.trace_attn (s : State) (a b c : Nat) (x : Option Nat) (d e : Nat) : (s.trace a b c x d e).attn = s.attn := by obtain ⟨_, _, h⟩ := s.trace_frame a b c x d e; rw [h]
@[simp] theorem State.trace_reqs (s : State) (a b c : Nat) (x : Option Nat) (d e : Nat) : (s.trace a b c x d e).reqs = s.reqs := by obtain ⟨_, _, h⟩ := s.trace_frame a b c x d e; rw [h]
@[simp] theorem State.trace_steps (s : State) (a b c : Nat) (x : Option Nat) (d e : Nat) : (s.trace a b c x d e).steps = s.steps := by obtain ⟨_, _, h⟩ := s.trace_frame a b c x d e; rw [h]
@[simp] theorem State.trace_stepLog (s : State) (a b c : Nat) (x : Option Nat) (d e : Nat) : (s.trace a b c x d e).stepLog = s.stepLog := by obtain ⟨_, _, h⟩ := s.trace_frame a b c x d e; rw [h]
@[simp] theorem State.trace_inject (s : State) (a b c : Nat) (x : Option Nat) (d e : Nat) : (s.trace a b c x d e).inject = s.inject := by obtain ⟨_, _, h⟩ := s.trace_frame a b c x d e; rw [h]
@[simp] theorem State.trace_masters (s : State) (a b c : Nat) (x : Option Nat) (d e : Nat) : (s.trace a b c x d e).masters = s.masters := by obtain ⟨_, _, h⟩ := s.trace_frame a b c x d e; rw [h]
@[simp] theorem State.trace_transfers (s : State) (a b c : Nat) (x : Option Nat) (d e : Nat) : (s.trace a b c x d e).transfers = s.transfers := by obtain ⟨_, _, h⟩ := s.trace_frame a b c x d e; rw [h]
@[simp] theorem State.trace_aborted (s : State) (a b c : Nat) (x : Option Nat) (d e : Nat) : (s.trace a b c x d e).aborted = s.aborted := by obtain ⟨_, _, h⟩ := s.trace_frame a b c x d e; rw [h]
@[simp] theorem State.trace_maps (s : State) (a b c : Nat) (x : Option Nat) (d e : Nat) : (s.trace a b c x d e).maps = s.maps := by obtain ⟨_, _, h⟩ := s.trace_frame a b c x d e; rw [h]
@[simp] theorem State.trace_invocations (s : State) (a b c : Nat) (x : Option Nat) (d e : Nat) : (s.trace a b c x d e).invocations = s.invocations := by obtain ⟨_, _, h⟩ := s.trace_frame a b c x d e; rw [h]
@[simp] theorem State.trace_saved (s : State) (a b c : Nat) (x : Option Nat) (d e : Nat) : (s.trace a b c x d e).saved = s.saved := by obtain ⟨_, _, h⟩ := s.trace_frame a b c x d e; rw [h]
@[simp] theorem State.trace_stoppingCtx (s : State) (a b c : Nat) (x : Option Nat) (d e : Nat) : (s.trace a b c x d e).stoppingCtx = s.stoppingCtx := by obtain ⟨_, _, h⟩ := s.trace_frame a b c x d e; rw [h]
@[simp] theorem State.trace_pins (s : State) (a b c : Nat) (x : Option Nat) (d e : Nat) : (s.trace a b c x d e).pins = s.pins := by obtain ⟨_, _, h⟩ := s.trace_frame a b c x d e; rw [h]
@[simp] theorem State.trace_fw (s : State) (a b c : Nat) (x : Option Nat) (d e : Nat) : (s.trace a b c x d e).fw = s.fw := by obtain ⟨_, _, h⟩ := s.trace_frame a b c x d e; rw [h]
@[simp] theorem State.trace_fuses (s : State) (a b c : Nat) (x : Option Nat) (d e : Nat) : (s.trace a b c x d e).fuses = s.fuses := by obtain ⟨_, _, h⟩ := s.trace_frame a b c x d e; rw [h]
@[simp] theorem State.trace_power (s : State) (a b c : Nat) (x : Option Nat) (d e : Nat) : (s.trace a b c x d e).power = s.power := by obtain ⟨_, _, h⟩ := s.trace_frame a b c x d e; rw [h]
@[simp] theorem State.trace_flash (s : State) (a b c : Nat) (x : Option Nat) (d e : Nat) : (s.trace a b c x d e).flash = s.flash := by obtain ⟨_, _, h⟩ := s.trace_frame a b c x d e; rw [h]
@[simp] theorem State.trace_repairs (s : State) (a b c : Nat) (x : Option Nat) (d e : Nat) : (s.trace a b c x d e).repairs = s.repairs := by obtain ⟨_, _, h⟩ := s.trace_frame a b c x d e; rw [h]
@[simp] theorem State.trace_adapts (s : State) (a b c : Nat) (x : Option Nat) (d e : Nat) : (s.trace a b c x d e).adapts = s.adapts := by obtain ⟨_, _, h⟩ := s.trace_frame a b c x d e; rw [h]
@[simp] theorem State.trace_submissions (s : State) (a b c : Nat) (x : Option Nat) (d e : Nat) : (s.trace a b c x d e).submissions = s.submissions := by obtain ⟨_, _, h⟩ := s.trace_frame a b c x d e; rw [h]
@[simp] theorem State.trace_cameras (s : State) (a b c : Nat) (x : Option Nat) (d e : Nat) : (s.trace a b c x d e).cameras = s.cameras := by obtain ⟨_, _, h⟩ := s.trace_frame a b c x d e; rw [h]
@[simp] theorem State.trace_tokenizer (s : State) (a b c : Nat) (x : Option Nat) (d e : Nat) : (s.trace a b c x d e).tokenizer = s.tokenizer := by obtain ⟨_, _, h⟩ := s.trace_frame a b c x d e; rw [h]
@[simp] theorem State.trace_responses (s : State) (a b c : Nat) (x : Option Nat) (d e : Nat) : (s.trace a b c x d e).responses = s.responses := by obtain ⟨_, _, h⟩ := s.trace_frame a b c x d e; rw [h]
@[simp] theorem State.trace_owned (s : State) (a b c : Nat) (x : Option Nat) (d e : Nat) : (s.trace a b c x d e).owned = s.owned := by obtain ⟨_, _, h⟩ := s.trace_frame a b c x d e; rw [h]
@[simp] theorem State.trace_core (s : State) (a b c : Nat) (x : Option Nat) (d e : Nat) (c' : Nat) : (s.trace a b c x d e).core c' = s.core c' := by obtain ⟨_, _, h⟩ := s.trace_frame a b c x d e; rw [h]; rfl
@[simp] theorem State.trace_engine (s : State) (a b c : Nat) (x : Option Nat) (d e : Nat) (c' e' : Nat) : (s.trace a b c x d e).engine c' e' = s.engine c' e' := by obtain ⟨_, _, h⟩ := s.trace_frame a b c x d e; rw [h]; rfl
@[simp] theorem State.trace_cluster (s : State) (a b c : Nat) (x : Option Nat) (d e : Nat) (k : Nat) : (s.trace a b c x d e).cluster k = s.cluster k := by obtain ⟨_, _, h⟩ := s.trace_frame a b c x d e; rw [h]; rfl
@[simp] theorem State.trace_hq (s : State) (a b c : Nat) (x : Option Nat) (d e : Nat) (u q : Nat) : (s.trace a b c x d e).hq u q = s.hq u q := by obtain ⟨_, _, h⟩ := s.trace_frame a b c x d e; rw [h]; rfl
@[simp] theorem State.trace_d (s : State) (a b c : Nat) (x : Option Nat) (d e : Nat) (k : Nat) : (s.trace a b c x d e).d k = s.d k := by obtain ⟨_, _, h⟩ := s.trace_frame a b c x d e; rw [h]; rfl
@[simp] theorem State.trace_byte (s : State) (a b c : Nat) (x : Option Nat) (d e : Nat) (a' : Nat) : (s.trace a b c x d e).byte a' = s.byte a' := by obtain ⟨_, _, h⟩ := s.trace_frame a b c x d e; rw [h]; rfl
@[simp] theorem State.trace_bytes (s : State) (a b c : Nat) (x : Option Nat) (d e : Nat) (a' n : Nat) : (s.trace a b c x d e).bytes a' n = s.bytes a' n := by obtain ⟨_, _, h⟩ := s.trace_frame a b c x d e; rw [h]; rfl
@[simp] theorem State.trace_now (s : State) (a b c : Nat) (x : Option Nat) (d e : Nat) : (s.trace a b c x d e).now = s.now := by obtain ⟨_, _, h⟩ := s.trace_frame a b c x d e; rw [h]; rfl
@[simp] theorem State.trace_unitCycle (s : State) (a b c : Nat) (x : Option Nat) (d e : Nat) (u : Nat) : (s.trace a b c x d e).unitCycle u = s.unitCycle u := by obtain ⟨_, _, h⟩ := s.trace_frame a b c x d e; rw [h]; rfl
@[simp] theorem State.trace_coreCycle (s : State) (a b c : Nat) (x : Option Nat) (d e : Nat) (c' : Nat) : (s.trace a b c x d e).coreCycle c' = s.coreCycle c' := by obtain ⟨_, _, h⟩ := s.trace_frame a b c x d e; rw [h]; rfl
@[simp] theorem State.trace_chan (s : State) (a b c : Nat) (x : Option Nat) (d e : Nat) (c' : Nat) : (s.trace a b c x d e).chan c' = s.chan c' := by obtain ⟨_, _, h⟩ := s.trace_frame a b c x d e; rw [h]; rfl
@[simp] theorem State.trace_lane (s : State) (a b c : Nat) (x : Option Nat) (d e : Nat) (i : Nat) : (s.trace a b c x d e).lane i = s.lane i := by obtain ⟨_, _, h⟩ := s.trace_frame a b c x d e; rw [h]; rfl
@[simp] theorem State.trace_rel (s : State) (a b c : Nat) (x : Option Nat) (d e : Nat) (l c' : Nat) : (s.trace a b c x d e).rel l c' = s.rel l c' := by obtain ⟨_, _, h⟩ := s.trace_frame a b c x d e; rw [h]; rfl
@[simp] theorem State.trace_peer (s : State) (a b c : Nat) (x : Option Nat) (d e : Nat) (n : Nat) : (s.trace a b c x d e).peer n = s.peer n := by obtain ⟨_, _, h⟩ := s.trace_frame a b c x d e; rw [h]; rfl
@[simp] theorem State.trace_master (s : State) (a b c : Nat) (x : Option Nat) (d e : Nat) (m : Nat) : (s.trace a b c x d e).master m = s.master m := by obtain ⟨_, _, h⟩ := s.trace_frame a b c x d e; rw [h]; rfl
@[simp] theorem State.trace_adapt (s : State) (a b c : Nat) (x : Option Nat) (d e : Nat) (n : Nat) : (s.trace a b c x d e).adapt n = s.adapt n := by obtain ⟨_, _, h⟩ := s.trace_frame a b c x d e; rw [h]; rfl
@[simp] theorem State.trace_camera (s : State) (a b c : Nat) (x : Option Nat) (d e : Nat) (k : Nat) : (s.trace a b c x d e).camera k = s.camera k := by obtain ⟨_, _, h⟩ := s.trace_frame a b c x d e; rw [h]; rfl
@[simp] theorem State.trace_lineOf (s : State) (a b c : Nat) (x : Option Nat) (d e : Nat) (a' : Nat) : (s.trace a b c x d e).lineOf a' = s.lineOf a' := by obtain ⟨_, _, h⟩ := s.trace_frame a b c x d e; rw [h]; rfl
@[simp] theorem State.trace_rgn (s : State) (a b c : Nat) (x : Option Nat) (d e : Nat) (e' w : Nat) : (s.trace a b c x d e).rgn e' w = s.rgn e' w := by obtain ⟨_, _, h⟩ := s.trace_frame a b c x d e; rw [h]; rfl
@[simp] theorem State.trace_win (s : State) (a b c : Nat) (x : Option Nat) (d e : Nat) (n w : Nat) : (s.trace a b c x d e).win n w = s.win n w := by obtain ⟨_, _, h⟩ := s.trace_frame a b c x d e; rw [h]; rfl
@[simp] theorem State.logEv_pending (s : State) (a b c : Nat) (i : LogInfo) : (s.logEv a b c i).pending = s.pending := by obtain ⟨_, _, h⟩ := s.logEv_frame a b c i; rw [h]
@[simp] theorem State.logEv_free (s : State) (a b c : Nat) (i : LogInfo) : (s.logEv a b c i).free = s.free := by obtain ⟨_, _, h⟩ := s.logEv_frame a b c i; rw [h]
@[simp] theorem State.logEv_clk (s : State) (a b c : Nat) (i : LogInfo) : (s.logEv a b c i).clk = s.clk := by obtain ⟨_, _, h⟩ := s.logEv_frame a b c i; rw [h]
@[simp] theorem State.logEv_cores (s : State) (a b c : Nat) (i : LogInfo) : (s.logEv a b c i).cores = s.cores := by obtain ⟨_, _, h⟩ := s.logEv_frame a b c i; rw [h]
@[simp] theorem State.logEv_clusters (s : State) (a b c : Nat) (i : LogInfo) : (s.logEv a b c i).clusters = s.clusters := by obtain ⟨_, _, h⟩ := s.logEv_frame a b c i; rw [h]
@[simp] theorem State.logEv_hqs (s : State) (a b c : Nat) (i : LogInfo) : (s.logEv a b c i).hqs = s.hqs := by obtain ⟨_, _, h⟩ := s.logEv_frame a b c i; rw [h]
@[simp] theorem State.logEv_forwards (s : State) (a b c : Nat) (i : LogInfo) : (s.logEv a b c i).forwards = s.forwards := by obtain ⟨_, _, h⟩ := s.logEv_frame a b c i; rw [h]
@[simp] theorem State.logEv_credits (s : State) (a b c : Nat) (i : LogInfo) : (s.logEv a b c i).credits = s.credits := by obtain ⟨_, _, h⟩ := s.logEv_frame a b c i; rw [h]
@[simp] theorem State.logEv_ecc (s : State) (a b c : Nat) (i : LogInfo) : (s.logEv a b c i).ecc = s.ecc := by obtain ⟨_, _, h⟩ := s.logEv_frame a b c i; rw [h]
@[simp] theorem State.logEv_line (s : State) (a b c : Nat) (i : LogInfo) : (s.logEv a b c i).line = s.line := by obtain ⟨_, _, h⟩ := s.logEv_frame a b c i; rw [h]
@[simp] theorem State.logEv_omap (s : State) (a b c : Nat) (i : LogInfo) : (s.logEv a b c i).omap = s.omap := by obtain ⟨_, _, h⟩ := s.logEv_frame a b c i; rw [h]
@[simp] theorem State.logEv_wins (s : State) (a b c : Nat) (i : LogInfo) : (s.logEv a b c i).wins = s.wins := by obtain ⟨_, _, h⟩ := s.logEv_frame a b c i; rw [h]
@[simp] theorem State.logEv_closingWins (s : State) (a b c : Nat) (i : LogInfo) : (s.logEv a b c i).closingWins = s.closingWins := by obtain ⟨_, _, h⟩ := s.logEv_frame a b c i; rw [h]
@[simp] theorem State.logEv_rgns (s : State) (a b c : Nat) (i : LogInfo) : (s.logEv a b c i).rgns = s.rgns := by obtain ⟨_, _, h⟩ := s.logEv_frame a b c i; rw [h]
@[simp] theorem State.logEv_rgnNext (s : State) (a b c : Nat) (i : LogInfo) : (s.logEv a b c i).rgnNext = s.rgnNext := by obtain ⟨_, _, h⟩ := s.logEv_frame a b c i; rw [h]
@[simp] theorem State.logEv_holders (s : State) (a b c : Nat) (i : LogInfo) : (s.logEv a b c i).holders = s.holders := by obtain ⟨_, _, h⟩ := s.logEv_frame a b c i; rw [h]
@[simp] theorem State.logEv_retiredPages (s : State) (a b c : Nat) (i : LogInfo) : (s.logEv a b c i).retiredPages = s.retiredPages := by obtain ⟨_, _, h⟩ := s.logEv_frame a b c i; rw [h]
@[simp] theorem State.logEv_ctxTab (s : State) (a b c : Nat) (i : LogInfo) : (s.logEv a b c i).ctxTab = s.ctxTab := by obtain ⟨_, _, h⟩ := s.logEv_frame a b c i; rw [h]
@[simp] theorem State.logEv_dom (s : State) (a b c : Nat) (i : LogInfo) : (s.logEv a b c i).dom = s.dom := by obtain ⟨_, _, h⟩ := s.logEv_frame a b c i; rw [h]
@[simp] theorem State.logEv_chans (s : State) (a b c : Nat) (i : LogInfo) : (s.logEv a b c i).chans = s.chans := by obtain ⟨_, _, h⟩ := s.logEv_frame a b c i; rw [h]
@[simp] theorem State.logEv_reply (s : State) (a b c : Nat) (i : LogInfo) : (s.logEv a b c i).reply = s.reply := by obtain ⟨_, _, h⟩ := s.logEv_frame a b c i; rw [h]
@[simp] theorem State.logEv_loop (s : State) (a b c : Nat) (i : LogInfo) : (s.logEv a b c i).loop = s.loop := by obtain ⟨_, _, h⟩ := s.logEv_frame a b c i; rw [h]
@[simp] theorem State.logEv_sources (s : State) (a b c : Nat) (i : LogInfo) : (s.logEv a b c i).sources = s.sources := by obtain ⟨_, _, h⟩ := s.logEv_frame a b c i; rw [h]
@[simp] theorem State.logEv_boot (s : State) (a b c : Nat) (i : LogInfo) : (s.logEv a b c i).boot = s.boot := by obtain ⟨_, _, h⟩ := s.logEv_frame a b c i; rw [h]
@[simp] theorem State.logEv_lanes (s : State) (a b c : Nat) (i : LogInfo) : (s.logEv a b c i).lanes = s.lanes := by obtain ⟨_, _, h⟩ := s.logEv_frame a b c i; rw [h]
@[simp] theorem State.logEv_rels (s : State) (a b c : Nat) (i : LogInfo) : (s.logEv a b c i).rels = s.rels := by obtain ⟨_, _, h⟩ := s.logEv_frame a b c i; rw [h]
@[simp] theorem State.logEv_sent (s : State) (a b c : Nat) (i : LogInfo) : (s.logEv a b c i).sent = s.sent := by obtain ⟨_, _, h⟩ := s.logEv_frame a b c i; rw [h]
@[simp] theorem State.logEv_cyclic (s : State) (a b c : Nat) (i : LogInfo) : (s.logEv a b c i).cyclic = s.cyclic := by obtain ⟨_, _, h⟩ := s.logEv_frame a b c i; rw [h]
@[simp] theorem State.logEv_peers (s : State) (a b c : Nat) (i : LogInfo) : (s.logEv a b c i).peers = s.peers := by obtain ⟨_, _, h⟩ := s.logEv_frame a b c i; rw [h]
@[simp] theorem State.logEv_writes (s : State) (a b c : Nat) (i : LogInfo) : (s.logEv a b c i).writes = s.writes := by obtain ⟨_, _, h⟩ := s.logEv_frame a b c i; rw [h]
@[simp] theorem State.logEv_inWrites (s : State) (a b c : Nat) (i : LogInfo) : (s.logEv a b c i).inWrites = s.inWrites := by obtain ⟨_, _, h⟩ := s.logEv_frame a b c i; rw [h]
@[simp] theorem State.logEv_attn (s : State) (a b c : Nat) (i : LogInfo) : (s.logEv a b c i).attn = s.attn := by obtain ⟨_, _, h⟩ := s.logEv_frame a b c i; rw [h]
@[simp] theorem State.logEv_reqs (s : State) (a b c : Nat) (i : LogInfo) : (s.logEv a b c i).reqs = s.reqs := by obtain ⟨_, _, h⟩ := s.logEv_frame a b c i; rw [h]
@[simp] theorem State.logEv_steps (s : State) (a b c : Nat) (i : LogInfo) : (s.logEv a b c i).steps = s.steps := by obtain ⟨_, _, h⟩ := s.logEv_frame a b c i; rw [h]
@[simp] theorem State.logEv_stepLog (s : State) (a b c : Nat) (i : LogInfo) : (s.logEv a b c i).stepLog = s.stepLog := by obtain ⟨_, _, h⟩ := s.logEv_frame a b c i; rw [h]
@[simp] theorem State.logEv_inject (s : State) (a b c : Nat) (i : LogInfo) : (s.logEv a b c i).inject = s.inject := by obtain ⟨_, _, h⟩ := s.logEv_frame a b c i; rw [h]
@[simp] theorem State.logEv_masters (s : State) (a b c : Nat) (i : LogInfo) : (s.logEv a b c i).masters = s.masters := by obtain ⟨_, _, h⟩ := s.logEv_frame a b c i; rw [h]
@[simp] theorem State.logEv_transfers (s : State) (a b c : Nat) (i : LogInfo) : (s.logEv a b c i).transfers = s.transfers := by obtain ⟨_, _, h⟩ := s.logEv_frame a b c i; rw [h]
@[simp] theorem State.logEv_aborted (s : State) (a b c : Nat) (i : LogInfo) : (s.logEv a b c i).aborted = s.aborted := by obtain ⟨_, _, h⟩ := s.logEv_frame a b c i; rw [h]
@[simp] theorem State.logEv_maps (s : State) (a b c : Nat) (i : LogInfo) : (s.logEv a b c i).maps = s.maps := by obtain ⟨_, _, h⟩ := s.logEv_frame a b c i; rw [h]
@[simp] theorem State.logEv_invocations (s : State) (a b c : Nat) (i : LogInfo) : (s.logEv a b c i).invocations = s.invocations := by obtain ⟨_, _, h⟩ := s.logEv_frame a b c i; rw [h]
@[simp] theorem State.logEv_saved (s : State) (a b c : Nat) (i : LogInfo) : (s.logEv a b c i).saved = s.saved := by obtain ⟨_, _, h⟩ := s.logEv_frame a b c i; rw [h]
@[simp] theorem State.logEv_stoppingCtx (s : State) (a b c : Nat) (i : LogInfo) : (s.logEv a b c i).stoppingCtx = s.stoppingCtx := by obtain ⟨_, _, h⟩ := s.logEv_frame a b c i; rw [h]
@[simp] theorem State.logEv_pins (s : State) (a b c : Nat) (i : LogInfo) : (s.logEv a b c i).pins = s.pins := by obtain ⟨_, _, h⟩ := s.logEv_frame a b c i; rw [h]
@[simp] theorem State.logEv_fw (s : State) (a b c : Nat) (i : LogInfo) : (s.logEv a b c i).fw = s.fw := by obtain ⟨_, _, h⟩ := s.logEv_frame a b c i; rw [h]
@[simp] theorem State.logEv_fuses (s : State) (a b c : Nat) (i : LogInfo) : (s.logEv a b c i).fuses = s.fuses := by obtain ⟨_, _, h⟩ := s.logEv_frame a b c i; rw [h]
@[simp] theorem State.logEv_power (s : State) (a b c : Nat) (i : LogInfo) : (s.logEv a b c i).power = s.power := by obtain ⟨_, _, h⟩ := s.logEv_frame a b c i; rw [h]
@[simp] theorem State.logEv_flash (s : State) (a b c : Nat) (i : LogInfo) : (s.logEv a b c i).flash = s.flash := by obtain ⟨_, _, h⟩ := s.logEv_frame a b c i; rw [h]
@[simp] theorem State.logEv_repairs (s : State) (a b c : Nat) (i : LogInfo) : (s.logEv a b c i).repairs = s.repairs := by obtain ⟨_, _, h⟩ := s.logEv_frame a b c i; rw [h]
@[simp] theorem State.logEv_adapts (s : State) (a b c : Nat) (i : LogInfo) : (s.logEv a b c i).adapts = s.adapts := by obtain ⟨_, _, h⟩ := s.logEv_frame a b c i; rw [h]
@[simp] theorem State.logEv_submissions (s : State) (a b c : Nat) (i : LogInfo) : (s.logEv a b c i).submissions = s.submissions := by obtain ⟨_, _, h⟩ := s.logEv_frame a b c i; rw [h]
@[simp] theorem State.logEv_cameras (s : State) (a b c : Nat) (i : LogInfo) : (s.logEv a b c i).cameras = s.cameras := by obtain ⟨_, _, h⟩ := s.logEv_frame a b c i; rw [h]
@[simp] theorem State.logEv_tokenizer (s : State) (a b c : Nat) (i : LogInfo) : (s.logEv a b c i).tokenizer = s.tokenizer := by obtain ⟨_, _, h⟩ := s.logEv_frame a b c i; rw [h]
@[simp] theorem State.logEv_responses (s : State) (a b c : Nat) (i : LogInfo) : (s.logEv a b c i).responses = s.responses := by obtain ⟨_, _, h⟩ := s.logEv_frame a b c i; rw [h]
@[simp] theorem State.logEv_owned (s : State) (a b c : Nat) (i : LogInfo) : (s.logEv a b c i).owned = s.owned := by obtain ⟨_, _, h⟩ := s.logEv_frame a b c i; rw [h]
@[simp] theorem State.logEv_core (s : State) (a b c : Nat) (i : LogInfo) (c' : Nat) : (s.logEv a b c i).core c' = s.core c' := by obtain ⟨_, _, h⟩ := s.logEv_frame a b c i; rw [h]; rfl
@[simp] theorem State.logEv_engine (s : State) (a b c : Nat) (i : LogInfo) (c' e : Nat) : (s.logEv a b c i).engine c' e = s.engine c' e := by obtain ⟨_, _, h⟩ := s.logEv_frame a b c i; rw [h]; rfl
@[simp] theorem State.logEv_cluster (s : State) (a b c : Nat) (i : LogInfo) (k : Nat) : (s.logEv a b c i).cluster k = s.cluster k := by obtain ⟨_, _, h⟩ := s.logEv_frame a b c i; rw [h]; rfl
@[simp] theorem State.logEv_hq (s : State) (a b c : Nat) (i : LogInfo) (u q : Nat) : (s.logEv a b c i).hq u q = s.hq u q := by obtain ⟨_, _, h⟩ := s.logEv_frame a b c i; rw [h]; rfl
@[simp] theorem State.logEv_d (s : State) (a b c : Nat) (i : LogInfo) (k : Nat) : (s.logEv a b c i).d k = s.d k := by obtain ⟨_, _, h⟩ := s.logEv_frame a b c i; rw [h]; rfl
@[simp] theorem State.logEv_byte (s : State) (a b c : Nat) (i : LogInfo) (a' : Nat) : (s.logEv a b c i).byte a' = s.byte a' := by obtain ⟨_, _, h⟩ := s.logEv_frame a b c i; rw [h]; rfl
@[simp] theorem State.logEv_bytes (s : State) (a b c : Nat) (i : LogInfo) (a' n : Nat) : (s.logEv a b c i).bytes a' n = s.bytes a' n := by obtain ⟨_, _, h⟩ := s.logEv_frame a b c i; rw [h]; rfl
@[simp] theorem State.logEv_now (s : State) (a b c : Nat) (i : LogInfo) : (s.logEv a b c i).now = s.now := by obtain ⟨_, _, h⟩ := s.logEv_frame a b c i; rw [h]; rfl
@[simp] theorem State.logEv_unitCycle (s : State) (a b c : Nat) (i : LogInfo) (u : Nat) : (s.logEv a b c i).unitCycle u = s.unitCycle u := by obtain ⟨_, _, h⟩ := s.logEv_frame a b c i; rw [h]; rfl
@[simp] theorem State.logEv_coreCycle (s : State) (a b c : Nat) (i : LogInfo) (c' : Nat) : (s.logEv a b c i).coreCycle c' = s.coreCycle c' := by obtain ⟨_, _, h⟩ := s.logEv_frame a b c i; rw [h]; rfl
@[simp] theorem State.logEv_chan (s : State) (a b c : Nat) (i : LogInfo) (c' : Nat) : (s.logEv a b c i).chan c' = s.chan c' := by obtain ⟨_, _, h⟩ := s.logEv_frame a b c i; rw [h]; rfl
@[simp] theorem State.logEv_lane (s : State) (a b c : Nat) (i : LogInfo) (i' : Nat) : (s.logEv a b c i).lane i' = s.lane i' := by obtain ⟨_, _, h⟩ := s.logEv_frame a b c i; rw [h]; rfl
@[simp] theorem State.logEv_rel (s : State) (a b c : Nat) (i : LogInfo) (l c' : Nat) : (s.logEv a b c i).rel l c' = s.rel l c' := by obtain ⟨_, _, h⟩ := s.logEv_frame a b c i; rw [h]; rfl
@[simp] theorem State.logEv_peer (s : State) (a b c : Nat) (i : LogInfo) (n : Nat) : (s.logEv a b c i).peer n = s.peer n := by obtain ⟨_, _, h⟩ := s.logEv_frame a b c i; rw [h]; rfl
@[simp] theorem State.logEv_master (s : State) (a b c : Nat) (i : LogInfo) (m : Nat) : (s.logEv a b c i).master m = s.master m := by obtain ⟨_, _, h⟩ := s.logEv_frame a b c i; rw [h]; rfl
@[simp] theorem State.logEv_adapt (s : State) (a b c : Nat) (i : LogInfo) (n : Nat) : (s.logEv a b c i).adapt n = s.adapt n := by obtain ⟨_, _, h⟩ := s.logEv_frame a b c i; rw [h]; rfl
@[simp] theorem State.logEv_camera (s : State) (a b c : Nat) (i : LogInfo) (k : Nat) : (s.logEv a b c i).camera k = s.camera k := by obtain ⟨_, _, h⟩ := s.logEv_frame a b c i; rw [h]; rfl
@[simp] theorem State.logEv_lineOf (s : State) (a b c : Nat) (i : LogInfo) (a' : Nat) : (s.logEv a b c i).lineOf a' = s.lineOf a' := by obtain ⟨_, _, h⟩ := s.logEv_frame a b c i; rw [h]; rfl
@[simp] theorem State.logEv_rgn (s : State) (a b c : Nat) (i : LogInfo) (e w : Nat) : (s.logEv a b c i).rgn e w = s.rgn e w := by obtain ⟨_, _, h⟩ := s.logEv_frame a b c i; rw [h]; rfl
@[simp] theorem State.logEv_win (s : State) (a b c : Nat) (i : LogInfo) (n w : Nat) : (s.logEv a b c i).win n w = s.win n w := by obtain ⟨_, _, h⟩ := s.logEv_frame a b c i; rw [h]; rfl
@[simp] theorem State.attention_pending (s : State) (n : Nat) : (s.attention n).pending = s.pending := by obtain ⟨_, _, _, h⟩ := s.attention_frame n; rw [h]
@[simp] theorem State.attention_free (s : State) (n : Nat) : (s.attention n).free = s.free := by obtain ⟨_, _, _, h⟩ := s.attention_frame n; rw [h]
@[simp] theorem State.attention_clk (s : State) (n : Nat) : (s.attention n).clk = s.clk := by obtain ⟨_, _, _, h⟩ := s.attention_frame n; rw [h]
@[simp] theorem State.attention_cores (s : State) (n : Nat) : (s.attention n).cores = s.cores := by obtain ⟨_, _, _, h⟩ := s.attention_frame n; rw [h]
@[simp] theorem State.attention_clusters (s : State) (n : Nat) : (s.attention n).clusters = s.clusters := by obtain ⟨_, _, _, h⟩ := s.attention_frame n; rw [h]
@[simp] theorem State.attention_hqs (s : State) (n : Nat) : (s.attention n).hqs = s.hqs := by obtain ⟨_, _, _, h⟩ := s.attention_frame n; rw [h]
@[simp] theorem State.attention_forwards (s : State) (n : Nat) : (s.attention n).forwards = s.forwards := by obtain ⟨_, _, _, h⟩ := s.attention_frame n; rw [h]
@[simp] theorem State.attention_credits (s : State) (n : Nat) : (s.attention n).credits = s.credits := by obtain ⟨_, _, _, h⟩ := s.attention_frame n; rw [h]
@[simp] theorem State.attention_ecc (s : State) (n : Nat) : (s.attention n).ecc = s.ecc := by obtain ⟨_, _, _, h⟩ := s.attention_frame n; rw [h]
@[simp] theorem State.attention_line (s : State) (n : Nat) : (s.attention n).line = s.line := by obtain ⟨_, _, _, h⟩ := s.attention_frame n; rw [h]
@[simp] theorem State.attention_omap (s : State) (n : Nat) : (s.attention n).omap = s.omap := by obtain ⟨_, _, _, h⟩ := s.attention_frame n; rw [h]
@[simp] theorem State.attention_wins (s : State) (n : Nat) : (s.attention n).wins = s.wins := by obtain ⟨_, _, _, h⟩ := s.attention_frame n; rw [h]
@[simp] theorem State.attention_closingWins (s : State) (n : Nat) : (s.attention n).closingWins = s.closingWins := by obtain ⟨_, _, _, h⟩ := s.attention_frame n; rw [h]
@[simp] theorem State.attention_rgns (s : State) (n : Nat) : (s.attention n).rgns = s.rgns := by obtain ⟨_, _, _, h⟩ := s.attention_frame n; rw [h]
@[simp] theorem State.attention_rgnNext (s : State) (n : Nat) : (s.attention n).rgnNext = s.rgnNext := by obtain ⟨_, _, _, h⟩ := s.attention_frame n; rw [h]
@[simp] theorem State.attention_holders (s : State) (n : Nat) : (s.attention n).holders = s.holders := by obtain ⟨_, _, _, h⟩ := s.attention_frame n; rw [h]
@[simp] theorem State.attention_retiredPages (s : State) (n : Nat) : (s.attention n).retiredPages = s.retiredPages := by obtain ⟨_, _, _, h⟩ := s.attention_frame n; rw [h]
@[simp] theorem State.attention_ctxTab (s : State) (n : Nat) : (s.attention n).ctxTab = s.ctxTab := by obtain ⟨_, _, _, h⟩ := s.attention_frame n; rw [h]
@[simp] theorem State.attention_dom (s : State) (n : Nat) : (s.attention n).dom = s.dom := by obtain ⟨_, _, _, h⟩ := s.attention_frame n; rw [h]
@[simp] theorem State.attention_chans (s : State) (n : Nat) : (s.attention n).chans = s.chans := by obtain ⟨_, _, _, h⟩ := s.attention_frame n; rw [h]
@[simp] theorem State.attention_reply (s : State) (n : Nat) : (s.attention n).reply = s.reply := by obtain ⟨_, _, _, h⟩ := s.attention_frame n; rw [h]
@[simp] theorem State.attention_loop (s : State) (n : Nat) : (s.attention n).loop = s.loop := by obtain ⟨_, _, _, h⟩ := s.attention_frame n; rw [h]
@[simp] theorem State.attention_sources (s : State) (n : Nat) : (s.attention n).sources = s.sources := by obtain ⟨_, _, _, h⟩ := s.attention_frame n; rw [h]
@[simp] theorem State.attention_boot (s : State) (n : Nat) : (s.attention n).boot = s.boot := by obtain ⟨_, _, _, h⟩ := s.attention_frame n; rw [h]
@[simp] theorem State.attention_lanes (s : State) (n : Nat) : (s.attention n).lanes = s.lanes := by obtain ⟨_, _, _, h⟩ := s.attention_frame n; rw [h]
@[simp] theorem State.attention_rels (s : State) (n : Nat) : (s.attention n).rels = s.rels := by obtain ⟨_, _, _, h⟩ := s.attention_frame n; rw [h]
@[simp] theorem State.attention_sent (s : State) (n : Nat) : (s.attention n).sent = s.sent := by obtain ⟨_, _, _, h⟩ := s.attention_frame n; rw [h]
@[simp] theorem State.attention_cyclic (s : State) (n : Nat) : (s.attention n).cyclic = s.cyclic := by obtain ⟨_, _, _, h⟩ := s.attention_frame n; rw [h]
@[simp] theorem State.attention_peers (s : State) (n : Nat) : (s.attention n).peers = s.peers := by obtain ⟨_, _, _, h⟩ := s.attention_frame n; rw [h]
@[simp] theorem State.attention_writes (s : State) (n : Nat) : (s.attention n).writes = s.writes := by obtain ⟨_, _, _, h⟩ := s.attention_frame n; rw [h]
@[simp] theorem State.attention_inWrites (s : State) (n : Nat) : (s.attention n).inWrites = s.inWrites := by obtain ⟨_, _, _, h⟩ := s.attention_frame n; rw [h]
@[simp] theorem State.attention_reqs (s : State) (n : Nat) : (s.attention n).reqs = s.reqs := by obtain ⟨_, _, _, h⟩ := s.attention_frame n; rw [h]
@[simp] theorem State.attention_steps (s : State) (n : Nat) : (s.attention n).steps = s.steps := by obtain ⟨_, _, _, h⟩ := s.attention_frame n; rw [h]
@[simp] theorem State.attention_stepLog (s : State) (n : Nat) : (s.attention n).stepLog = s.stepLog := by obtain ⟨_, _, _, h⟩ := s.attention_frame n; rw [h]
@[simp] theorem State.attention_inject (s : State) (n : Nat) : (s.attention n).inject = s.inject := by obtain ⟨_, _, _, h⟩ := s.attention_frame n; rw [h]
@[simp] theorem State.attention_masters (s : State) (n : Nat) : (s.attention n).masters = s.masters := by obtain ⟨_, _, _, h⟩ := s.attention_frame n; rw [h]
@[simp] theorem State.attention_transfers (s : State) (n : Nat) : (s.attention n).transfers = s.transfers := by obtain ⟨_, _, _, h⟩ := s.attention_frame n; rw [h]
@[simp] theorem State.attention_aborted (s : State) (n : Nat) : (s.attention n).aborted = s.aborted := by obtain ⟨_, _, _, h⟩ := s.attention_frame n; rw [h]
@[simp] theorem State.attention_maps (s : State) (n : Nat) : (s.attention n).maps = s.maps := by obtain ⟨_, _, _, h⟩ := s.attention_frame n; rw [h]
@[simp] theorem State.attention_invocations (s : State) (n : Nat) : (s.attention n).invocations = s.invocations := by obtain ⟨_, _, _, h⟩ := s.attention_frame n; rw [h]
@[simp] theorem State.attention_saved (s : State) (n : Nat) : (s.attention n).saved = s.saved := by obtain ⟨_, _, _, h⟩ := s.attention_frame n; rw [h]
@[simp] theorem State.attention_stoppingCtx (s : State) (n : Nat) : (s.attention n).stoppingCtx = s.stoppingCtx := by obtain ⟨_, _, _, h⟩ := s.attention_frame n; rw [h]
@[simp] theorem State.attention_pins (s : State) (n : Nat) : (s.attention n).pins = s.pins := by obtain ⟨_, _, _, h⟩ := s.attention_frame n; rw [h]
@[simp] theorem State.attention_fw (s : State) (n : Nat) : (s.attention n).fw = s.fw := by obtain ⟨_, _, _, h⟩ := s.attention_frame n; rw [h]
@[simp] theorem State.attention_fuses (s : State) (n : Nat) : (s.attention n).fuses = s.fuses := by obtain ⟨_, _, _, h⟩ := s.attention_frame n; rw [h]
@[simp] theorem State.attention_power (s : State) (n : Nat) : (s.attention n).power = s.power := by obtain ⟨_, _, _, h⟩ := s.attention_frame n; rw [h]
@[simp] theorem State.attention_flash (s : State) (n : Nat) : (s.attention n).flash = s.flash := by obtain ⟨_, _, _, h⟩ := s.attention_frame n; rw [h]
@[simp] theorem State.attention_repairs (s : State) (n : Nat) : (s.attention n).repairs = s.repairs := by obtain ⟨_, _, _, h⟩ := s.attention_frame n; rw [h]
@[simp] theorem State.attention_adapts (s : State) (n : Nat) : (s.attention n).adapts = s.adapts := by obtain ⟨_, _, _, h⟩ := s.attention_frame n; rw [h]
@[simp] theorem State.attention_submissions (s : State) (n : Nat) : (s.attention n).submissions = s.submissions := by obtain ⟨_, _, _, h⟩ := s.attention_frame n; rw [h]
@[simp] theorem State.attention_cameras (s : State) (n : Nat) : (s.attention n).cameras = s.cameras := by obtain ⟨_, _, _, h⟩ := s.attention_frame n; rw [h]
@[simp] theorem State.attention_tokenizer (s : State) (n : Nat) : (s.attention n).tokenizer = s.tokenizer := by obtain ⟨_, _, _, h⟩ := s.attention_frame n; rw [h]
@[simp] theorem State.attention_responses (s : State) (n : Nat) : (s.attention n).responses = s.responses := by obtain ⟨_, _, _, h⟩ := s.attention_frame n; rw [h]
@[simp] theorem State.attention_owned (s : State) (n : Nat) : (s.attention n).owned = s.owned := by obtain ⟨_, _, _, h⟩ := s.attention_frame n; rw [h]
@[simp] theorem State.attention_core (s : State) (n : Nat) (c : Nat) : (s.attention n).core c = s.core c := by obtain ⟨_, _, _, h⟩ := s.attention_frame n; rw [h]; rfl
@[simp] theorem State.attention_engine (s : State) (n : Nat) (c e : Nat) : (s.attention n).engine c e = s.engine c e := by obtain ⟨_, _, _, h⟩ := s.attention_frame n; rw [h]; rfl
@[simp] theorem State.attention_cluster (s : State) (n : Nat) (k : Nat) : (s.attention n).cluster k = s.cluster k := by obtain ⟨_, _, _, h⟩ := s.attention_frame n; rw [h]; rfl
@[simp] theorem State.attention_hq (s : State) (n : Nat) (u q : Nat) : (s.attention n).hq u q = s.hq u q := by obtain ⟨_, _, _, h⟩ := s.attention_frame n; rw [h]; rfl
@[simp] theorem State.attention_d (s : State) (n : Nat) (k : Nat) : (s.attention n).d k = s.d k := by obtain ⟨_, _, _, h⟩ := s.attention_frame n; rw [h]; rfl
@[simp] theorem State.attention_byte (s : State) (n : Nat) (a : Nat) : (s.attention n).byte a = s.byte a := by obtain ⟨_, _, _, h⟩ := s.attention_frame n; rw [h]; rfl
@[simp] theorem State.attention_bytes (s : State) (n : Nat) (a n' : Nat) : (s.attention n).bytes a n' = s.bytes a n' := by obtain ⟨_, _, _, h⟩ := s.attention_frame n; rw [h]; rfl
@[simp] theorem State.attention_now (s : State) (n : Nat) : (s.attention n).now = s.now := by obtain ⟨_, _, _, h⟩ := s.attention_frame n; rw [h]; rfl
@[simp] theorem State.attention_unitCycle (s : State) (n : Nat) (u : Nat) : (s.attention n).unitCycle u = s.unitCycle u := by obtain ⟨_, _, _, h⟩ := s.attention_frame n; rw [h]; rfl
@[simp] theorem State.attention_coreCycle (s : State) (n : Nat) (c : Nat) : (s.attention n).coreCycle c = s.coreCycle c := by obtain ⟨_, _, _, h⟩ := s.attention_frame n; rw [h]; rfl
@[simp] theorem State.attention_chan (s : State) (n : Nat) (c : Nat) : (s.attention n).chan c = s.chan c := by obtain ⟨_, _, _, h⟩ := s.attention_frame n; rw [h]; rfl
@[simp] theorem State.attention_lane (s : State) (n : Nat) (i : Nat) : (s.attention n).lane i = s.lane i := by obtain ⟨_, _, _, h⟩ := s.attention_frame n; rw [h]; rfl
@[simp] theorem State.attention_rel (s : State) (n : Nat) (l c : Nat) : (s.attention n).rel l c = s.rel l c := by obtain ⟨_, _, _, h⟩ := s.attention_frame n; rw [h]; rfl
@[simp] theorem State.attention_peer (s : State) (n : Nat) (n' : Nat) : (s.attention n).peer n' = s.peer n' := by obtain ⟨_, _, _, h⟩ := s.attention_frame n; rw [h]; rfl
@[simp] theorem State.attention_master (s : State) (n : Nat) (m : Nat) : (s.attention n).master m = s.master m := by obtain ⟨_, _, _, h⟩ := s.attention_frame n; rw [h]; rfl
@[simp] theorem State.attention_adapt (s : State) (n : Nat) (n' : Nat) : (s.attention n).adapt n' = s.adapt n' := by obtain ⟨_, _, _, h⟩ := s.attention_frame n; rw [h]; rfl
@[simp] theorem State.attention_camera (s : State) (n : Nat) (k : Nat) : (s.attention n).camera k = s.camera k := by obtain ⟨_, _, _, h⟩ := s.attention_frame n; rw [h]; rfl
@[simp] theorem State.attention_lineOf (s : State) (n : Nat) (a : Nat) : (s.attention n).lineOf a = s.lineOf a := by obtain ⟨_, _, _, h⟩ := s.attention_frame n; rw [h]; rfl
@[simp] theorem State.attention_rgn (s : State) (n : Nat) (e w : Nat) : (s.attention n).rgn e w = s.rgn e w := by obtain ⟨_, _, _, h⟩ := s.attention_frame n; rw [h]; rfl
@[simp] theorem State.attention_win (s : State) (n : Nat) (n' w : Nat) : (s.attention n).win n' w = s.win n' w := by obtain ⟨_, _, _, h⟩ := s.attention_frame n; rw [h]; rfl
@[simp] theorem State.setSticky_pending (s : State) (n : Nat) : (s.setSticky n).pending = s.pending := by obtain ⟨_, _, _, h⟩ := s.setSticky_frame n; rw [h]
@[simp] theorem State.setSticky_free (s : State) (n : Nat) : (s.setSticky n).free = s.free := by obtain ⟨_, _, _, h⟩ := s.setSticky_frame n; rw [h]
@[simp] theorem State.setSticky_clk (s : State) (n : Nat) : (s.setSticky n).clk = s.clk := by obtain ⟨_, _, _, h⟩ := s.setSticky_frame n; rw [h]
@[simp] theorem State.setSticky_cores (s : State) (n : Nat) : (s.setSticky n).cores = s.cores := by obtain ⟨_, _, _, h⟩ := s.setSticky_frame n; rw [h]
@[simp] theorem State.setSticky_clusters (s : State) (n : Nat) : (s.setSticky n).clusters = s.clusters := by obtain ⟨_, _, _, h⟩ := s.setSticky_frame n; rw [h]
@[simp] theorem State.setSticky_hqs (s : State) (n : Nat) : (s.setSticky n).hqs = s.hqs := by obtain ⟨_, _, _, h⟩ := s.setSticky_frame n; rw [h]
@[simp] theorem State.setSticky_forwards (s : State) (n : Nat) : (s.setSticky n).forwards = s.forwards := by obtain ⟨_, _, _, h⟩ := s.setSticky_frame n; rw [h]
@[simp] theorem State.setSticky_credits (s : State) (n : Nat) : (s.setSticky n).credits = s.credits := by obtain ⟨_, _, _, h⟩ := s.setSticky_frame n; rw [h]
@[simp] theorem State.setSticky_ecc (s : State) (n : Nat) : (s.setSticky n).ecc = s.ecc := by obtain ⟨_, _, _, h⟩ := s.setSticky_frame n; rw [h]
@[simp] theorem State.setSticky_line (s : State) (n : Nat) : (s.setSticky n).line = s.line := by obtain ⟨_, _, _, h⟩ := s.setSticky_frame n; rw [h]
@[simp] theorem State.setSticky_omap (s : State) (n : Nat) : (s.setSticky n).omap = s.omap := by obtain ⟨_, _, _, h⟩ := s.setSticky_frame n; rw [h]
@[simp] theorem State.setSticky_wins (s : State) (n : Nat) : (s.setSticky n).wins = s.wins := by obtain ⟨_, _, _, h⟩ := s.setSticky_frame n; rw [h]
@[simp] theorem State.setSticky_closingWins (s : State) (n : Nat) : (s.setSticky n).closingWins = s.closingWins := by obtain ⟨_, _, _, h⟩ := s.setSticky_frame n; rw [h]
@[simp] theorem State.setSticky_rgns (s : State) (n : Nat) : (s.setSticky n).rgns = s.rgns := by obtain ⟨_, _, _, h⟩ := s.setSticky_frame n; rw [h]
@[simp] theorem State.setSticky_rgnNext (s : State) (n : Nat) : (s.setSticky n).rgnNext = s.rgnNext := by obtain ⟨_, _, _, h⟩ := s.setSticky_frame n; rw [h]
@[simp] theorem State.setSticky_holders (s : State) (n : Nat) : (s.setSticky n).holders = s.holders := by obtain ⟨_, _, _, h⟩ := s.setSticky_frame n; rw [h]
@[simp] theorem State.setSticky_retiredPages (s : State) (n : Nat) : (s.setSticky n).retiredPages = s.retiredPages := by obtain ⟨_, _, _, h⟩ := s.setSticky_frame n; rw [h]
@[simp] theorem State.setSticky_ctxTab (s : State) (n : Nat) : (s.setSticky n).ctxTab = s.ctxTab := by obtain ⟨_, _, _, h⟩ := s.setSticky_frame n; rw [h]
@[simp] theorem State.setSticky_dom (s : State) (n : Nat) : (s.setSticky n).dom = s.dom := by obtain ⟨_, _, _, h⟩ := s.setSticky_frame n; rw [h]
@[simp] theorem State.setSticky_chans (s : State) (n : Nat) : (s.setSticky n).chans = s.chans := by obtain ⟨_, _, _, h⟩ := s.setSticky_frame n; rw [h]
@[simp] theorem State.setSticky_reply (s : State) (n : Nat) : (s.setSticky n).reply = s.reply := by obtain ⟨_, _, _, h⟩ := s.setSticky_frame n; rw [h]
@[simp] theorem State.setSticky_loop (s : State) (n : Nat) : (s.setSticky n).loop = s.loop := by obtain ⟨_, _, _, h⟩ := s.setSticky_frame n; rw [h]
@[simp] theorem State.setSticky_sources (s : State) (n : Nat) : (s.setSticky n).sources = s.sources := by obtain ⟨_, _, _, h⟩ := s.setSticky_frame n; rw [h]
@[simp] theorem State.setSticky_boot (s : State) (n : Nat) : (s.setSticky n).boot = s.boot := by obtain ⟨_, _, _, h⟩ := s.setSticky_frame n; rw [h]
@[simp] theorem State.setSticky_lanes (s : State) (n : Nat) : (s.setSticky n).lanes = s.lanes := by obtain ⟨_, _, _, h⟩ := s.setSticky_frame n; rw [h]
@[simp] theorem State.setSticky_rels (s : State) (n : Nat) : (s.setSticky n).rels = s.rels := by obtain ⟨_, _, _, h⟩ := s.setSticky_frame n; rw [h]
@[simp] theorem State.setSticky_sent (s : State) (n : Nat) : (s.setSticky n).sent = s.sent := by obtain ⟨_, _, _, h⟩ := s.setSticky_frame n; rw [h]
@[simp] theorem State.setSticky_cyclic (s : State) (n : Nat) : (s.setSticky n).cyclic = s.cyclic := by obtain ⟨_, _, _, h⟩ := s.setSticky_frame n; rw [h]
@[simp] theorem State.setSticky_peers (s : State) (n : Nat) : (s.setSticky n).peers = s.peers := by obtain ⟨_, _, _, h⟩ := s.setSticky_frame n; rw [h]
@[simp] theorem State.setSticky_writes (s : State) (n : Nat) : (s.setSticky n).writes = s.writes := by obtain ⟨_, _, _, h⟩ := s.setSticky_frame n; rw [h]
@[simp] theorem State.setSticky_inWrites (s : State) (n : Nat) : (s.setSticky n).inWrites = s.inWrites := by obtain ⟨_, _, _, h⟩ := s.setSticky_frame n; rw [h]
@[simp] theorem State.setSticky_reqs (s : State) (n : Nat) : (s.setSticky n).reqs = s.reqs := by obtain ⟨_, _, _, h⟩ := s.setSticky_frame n; rw [h]
@[simp] theorem State.setSticky_steps (s : State) (n : Nat) : (s.setSticky n).steps = s.steps := by obtain ⟨_, _, _, h⟩ := s.setSticky_frame n; rw [h]
@[simp] theorem State.setSticky_stepLog (s : State) (n : Nat) : (s.setSticky n).stepLog = s.stepLog := by obtain ⟨_, _, _, h⟩ := s.setSticky_frame n; rw [h]
@[simp] theorem State.setSticky_inject (s : State) (n : Nat) : (s.setSticky n).inject = s.inject := by obtain ⟨_, _, _, h⟩ := s.setSticky_frame n; rw [h]
@[simp] theorem State.setSticky_masters (s : State) (n : Nat) : (s.setSticky n).masters = s.masters := by obtain ⟨_, _, _, h⟩ := s.setSticky_frame n; rw [h]
@[simp] theorem State.setSticky_transfers (s : State) (n : Nat) : (s.setSticky n).transfers = s.transfers := by obtain ⟨_, _, _, h⟩ := s.setSticky_frame n; rw [h]
@[simp] theorem State.setSticky_aborted (s : State) (n : Nat) : (s.setSticky n).aborted = s.aborted := by obtain ⟨_, _, _, h⟩ := s.setSticky_frame n; rw [h]
@[simp] theorem State.setSticky_maps (s : State) (n : Nat) : (s.setSticky n).maps = s.maps := by obtain ⟨_, _, _, h⟩ := s.setSticky_frame n; rw [h]
@[simp] theorem State.setSticky_invocations (s : State) (n : Nat) : (s.setSticky n).invocations = s.invocations := by obtain ⟨_, _, _, h⟩ := s.setSticky_frame n; rw [h]
@[simp] theorem State.setSticky_saved (s : State) (n : Nat) : (s.setSticky n).saved = s.saved := by obtain ⟨_, _, _, h⟩ := s.setSticky_frame n; rw [h]
@[simp] theorem State.setSticky_stoppingCtx (s : State) (n : Nat) : (s.setSticky n).stoppingCtx = s.stoppingCtx := by obtain ⟨_, _, _, h⟩ := s.setSticky_frame n; rw [h]
@[simp] theorem State.setSticky_pins (s : State) (n : Nat) : (s.setSticky n).pins = s.pins := by obtain ⟨_, _, _, h⟩ := s.setSticky_frame n; rw [h]
@[simp] theorem State.setSticky_fw (s : State) (n : Nat) : (s.setSticky n).fw = s.fw := by obtain ⟨_, _, _, h⟩ := s.setSticky_frame n; rw [h]
@[simp] theorem State.setSticky_fuses (s : State) (n : Nat) : (s.setSticky n).fuses = s.fuses := by obtain ⟨_, _, _, h⟩ := s.setSticky_frame n; rw [h]
@[simp] theorem State.setSticky_power (s : State) (n : Nat) : (s.setSticky n).power = s.power := by obtain ⟨_, _, _, h⟩ := s.setSticky_frame n; rw [h]
@[simp] theorem State.setSticky_flash (s : State) (n : Nat) : (s.setSticky n).flash = s.flash := by obtain ⟨_, _, _, h⟩ := s.setSticky_frame n; rw [h]
@[simp] theorem State.setSticky_repairs (s : State) (n : Nat) : (s.setSticky n).repairs = s.repairs := by obtain ⟨_, _, _, h⟩ := s.setSticky_frame n; rw [h]
@[simp] theorem State.setSticky_adapts (s : State) (n : Nat) : (s.setSticky n).adapts = s.adapts := by obtain ⟨_, _, _, h⟩ := s.setSticky_frame n; rw [h]
@[simp] theorem State.setSticky_submissions (s : State) (n : Nat) : (s.setSticky n).submissions = s.submissions := by obtain ⟨_, _, _, h⟩ := s.setSticky_frame n; rw [h]
@[simp] theorem State.setSticky_cameras (s : State) (n : Nat) : (s.setSticky n).cameras = s.cameras := by obtain ⟨_, _, _, h⟩ := s.setSticky_frame n; rw [h]
@[simp] theorem State.setSticky_tokenizer (s : State) (n : Nat) : (s.setSticky n).tokenizer = s.tokenizer := by obtain ⟨_, _, _, h⟩ := s.setSticky_frame n; rw [h]
@[simp] theorem State.setSticky_responses (s : State) (n : Nat) : (s.setSticky n).responses = s.responses := by obtain ⟨_, _, _, h⟩ := s.setSticky_frame n; rw [h]
@[simp] theorem State.setSticky_owned (s : State) (n : Nat) : (s.setSticky n).owned = s.owned := by obtain ⟨_, _, _, h⟩ := s.setSticky_frame n; rw [h]
@[simp] theorem State.setSticky_core (s : State) (n : Nat) (c : Nat) : (s.setSticky n).core c = s.core c := by obtain ⟨_, _, _, h⟩ := s.setSticky_frame n; rw [h]; rfl
@[simp] theorem State.setSticky_engine (s : State) (n : Nat) (c e : Nat) : (s.setSticky n).engine c e = s.engine c e := by obtain ⟨_, _, _, h⟩ := s.setSticky_frame n; rw [h]; rfl
@[simp] theorem State.setSticky_cluster (s : State) (n : Nat) (k : Nat) : (s.setSticky n).cluster k = s.cluster k := by obtain ⟨_, _, _, h⟩ := s.setSticky_frame n; rw [h]; rfl
@[simp] theorem State.setSticky_hq (s : State) (n : Nat) (u q : Nat) : (s.setSticky n).hq u q = s.hq u q := by obtain ⟨_, _, _, h⟩ := s.setSticky_frame n; rw [h]; rfl
@[simp] theorem State.setSticky_d (s : State) (n : Nat) (k : Nat) : (s.setSticky n).d k = s.d k := by obtain ⟨_, _, _, h⟩ := s.setSticky_frame n; rw [h]; rfl
@[simp] theorem State.setSticky_byte (s : State) (n : Nat) (a : Nat) : (s.setSticky n).byte a = s.byte a := by obtain ⟨_, _, _, h⟩ := s.setSticky_frame n; rw [h]; rfl
@[simp] theorem State.setSticky_bytes (s : State) (n : Nat) (a n' : Nat) : (s.setSticky n).bytes a n' = s.bytes a n' := by obtain ⟨_, _, _, h⟩ := s.setSticky_frame n; rw [h]; rfl
@[simp] theorem State.setSticky_now (s : State) (n : Nat) : (s.setSticky n).now = s.now := by obtain ⟨_, _, _, h⟩ := s.setSticky_frame n; rw [h]; rfl
@[simp] theorem State.setSticky_unitCycle (s : State) (n : Nat) (u : Nat) : (s.setSticky n).unitCycle u = s.unitCycle u := by obtain ⟨_, _, _, h⟩ := s.setSticky_frame n; rw [h]; rfl
@[simp] theorem State.setSticky_coreCycle (s : State) (n : Nat) (c : Nat) : (s.setSticky n).coreCycle c = s.coreCycle c := by obtain ⟨_, _, _, h⟩ := s.setSticky_frame n; rw [h]; rfl
@[simp] theorem State.setSticky_chan (s : State) (n : Nat) (c : Nat) : (s.setSticky n).chan c = s.chan c := by obtain ⟨_, _, _, h⟩ := s.setSticky_frame n; rw [h]; rfl
@[simp] theorem State.setSticky_lane (s : State) (n : Nat) (i : Nat) : (s.setSticky n).lane i = s.lane i := by obtain ⟨_, _, _, h⟩ := s.setSticky_frame n; rw [h]; rfl
@[simp] theorem State.setSticky_rel (s : State) (n : Nat) (l c : Nat) : (s.setSticky n).rel l c = s.rel l c := by obtain ⟨_, _, _, h⟩ := s.setSticky_frame n; rw [h]; rfl
@[simp] theorem State.setSticky_peer (s : State) (n : Nat) (n' : Nat) : (s.setSticky n).peer n' = s.peer n' := by obtain ⟨_, _, _, h⟩ := s.setSticky_frame n; rw [h]; rfl
@[simp] theorem State.setSticky_master (s : State) (n : Nat) (m : Nat) : (s.setSticky n).master m = s.master m := by obtain ⟨_, _, _, h⟩ := s.setSticky_frame n; rw [h]; rfl
@[simp] theorem State.setSticky_adapt (s : State) (n : Nat) (n' : Nat) : (s.setSticky n).adapt n' = s.adapt n' := by obtain ⟨_, _, _, h⟩ := s.setSticky_frame n; rw [h]; rfl
@[simp] theorem State.setSticky_camera (s : State) (n : Nat) (k : Nat) : (s.setSticky n).camera k = s.camera k := by obtain ⟨_, _, _, h⟩ := s.setSticky_frame n; rw [h]; rfl
@[simp] theorem State.setSticky_lineOf (s : State) (n : Nat) (a : Nat) : (s.setSticky n).lineOf a = s.lineOf a := by obtain ⟨_, _, _, h⟩ := s.setSticky_frame n; rw [h]; rfl
@[simp] theorem State.setSticky_rgn (s : State) (n : Nat) (e w : Nat) : (s.setSticky n).rgn e w = s.rgn e w := by obtain ⟨_, _, _, h⟩ := s.setSticky_frame n; rw [h]; rfl
@[simp] theorem State.setSticky_win (s : State) (n : Nat) (n' w : Nat) : (s.setSticky n).win n' w = s.win n' w := by obtain ⟨_, _, _, h⟩ := s.setSticky_frame n; rw [h]; rfl
@[simp] theorem State.settle_pending (s : State) : (s.settle).pending = s.pending := by obtain ⟨_, _, _, _, h⟩ := s.settle_frame; rw [h]
@[simp] theorem State.settle_free (s : State) : (s.settle).free = s.free := by obtain ⟨_, _, _, _, h⟩ := s.settle_frame; rw [h]
@[simp] theorem State.settle_clk (s : State) : (s.settle).clk = s.clk := by obtain ⟨_, _, _, _, h⟩ := s.settle_frame; rw [h]
@[simp] theorem State.settle_cores (s : State) : (s.settle).cores = s.cores := by obtain ⟨_, _, _, _, h⟩ := s.settle_frame; rw [h]
@[simp] theorem State.settle_clusters (s : State) : (s.settle).clusters = s.clusters := by obtain ⟨_, _, _, _, h⟩ := s.settle_frame; rw [h]
@[simp] theorem State.settle_hqs (s : State) : (s.settle).hqs = s.hqs := by obtain ⟨_, _, _, _, h⟩ := s.settle_frame; rw [h]
@[simp] theorem State.settle_forwards (s : State) : (s.settle).forwards = s.forwards := by obtain ⟨_, _, _, _, h⟩ := s.settle_frame; rw [h]
@[simp] theorem State.settle_credits (s : State) : (s.settle).credits = s.credits := by obtain ⟨_, _, _, _, h⟩ := s.settle_frame; rw [h]
@[simp] theorem State.settle_ecc (s : State) : (s.settle).ecc = s.ecc := by obtain ⟨_, _, _, _, h⟩ := s.settle_frame; rw [h]
@[simp] theorem State.settle_line (s : State) : (s.settle).line = s.line := by obtain ⟨_, _, _, _, h⟩ := s.settle_frame; rw [h]
@[simp] theorem State.settle_omap (s : State) : (s.settle).omap = s.omap := by obtain ⟨_, _, _, _, h⟩ := s.settle_frame; rw [h]
@[simp] theorem State.settle_wins (s : State) : (s.settle).wins = s.wins := by obtain ⟨_, _, _, _, h⟩ := s.settle_frame; rw [h]
@[simp] theorem State.settle_closingWins (s : State) : (s.settle).closingWins = s.closingWins := by obtain ⟨_, _, _, _, h⟩ := s.settle_frame; rw [h]
@[simp] theorem State.settle_rgns (s : State) : (s.settle).rgns = s.rgns := by obtain ⟨_, _, _, _, h⟩ := s.settle_frame; rw [h]
@[simp] theorem State.settle_rgnNext (s : State) : (s.settle).rgnNext = s.rgnNext := by obtain ⟨_, _, _, _, h⟩ := s.settle_frame; rw [h]
@[simp] theorem State.settle_holders (s : State) : (s.settle).holders = s.holders := by obtain ⟨_, _, _, _, h⟩ := s.settle_frame; rw [h]
@[simp] theorem State.settle_retiredPages (s : State) : (s.settle).retiredPages = s.retiredPages := by obtain ⟨_, _, _, _, h⟩ := s.settle_frame; rw [h]
@[simp] theorem State.settle_ctxTab (s : State) : (s.settle).ctxTab = s.ctxTab := by obtain ⟨_, _, _, _, h⟩ := s.settle_frame; rw [h]
@[simp] theorem State.settle_dom (s : State) : (s.settle).dom = s.dom := by obtain ⟨_, _, _, _, h⟩ := s.settle_frame; rw [h]
@[simp] theorem State.settle_chans (s : State) : (s.settle).chans = s.chans := by obtain ⟨_, _, _, _, h⟩ := s.settle_frame; rw [h]
@[simp] theorem State.settle_reply (s : State) : (s.settle).reply = s.reply := by obtain ⟨_, _, _, _, h⟩ := s.settle_frame; rw [h]
@[simp] theorem State.settle_loop (s : State) : (s.settle).loop = s.loop := by obtain ⟨_, _, _, _, h⟩ := s.settle_frame; rw [h]
@[simp] theorem State.settle_sources (s : State) : (s.settle).sources = s.sources := by obtain ⟨_, _, _, _, h⟩ := s.settle_frame; rw [h]
@[simp] theorem State.settle_boot (s : State) : (s.settle).boot = s.boot := by obtain ⟨_, _, _, _, h⟩ := s.settle_frame; rw [h]
@[simp] theorem State.settle_lanes (s : State) : (s.settle).lanes = s.lanes := by obtain ⟨_, _, _, _, h⟩ := s.settle_frame; rw [h]
@[simp] theorem State.settle_rels (s : State) : (s.settle).rels = s.rels := by obtain ⟨_, _, _, _, h⟩ := s.settle_frame; rw [h]
@[simp] theorem State.settle_sent (s : State) : (s.settle).sent = s.sent := by obtain ⟨_, _, _, _, h⟩ := s.settle_frame; rw [h]
@[simp] theorem State.settle_cyclic (s : State) : (s.settle).cyclic = s.cyclic := by obtain ⟨_, _, _, _, h⟩ := s.settle_frame; rw [h]
@[simp] theorem State.settle_peers (s : State) : (s.settle).peers = s.peers := by obtain ⟨_, _, _, _, h⟩ := s.settle_frame; rw [h]
@[simp] theorem State.settle_writes (s : State) : (s.settle).writes = s.writes := by obtain ⟨_, _, _, _, h⟩ := s.settle_frame; rw [h]
@[simp] theorem State.settle_inWrites (s : State) : (s.settle).inWrites = s.inWrites := by obtain ⟨_, _, _, _, h⟩ := s.settle_frame; rw [h]
@[simp] theorem State.settle_reqs (s : State) : (s.settle).reqs = s.reqs := by obtain ⟨_, _, _, _, h⟩ := s.settle_frame; rw [h]
@[simp] theorem State.settle_steps (s : State) : (s.settle).steps = s.steps := by obtain ⟨_, _, _, _, h⟩ := s.settle_frame; rw [h]
@[simp] theorem State.settle_stepLog (s : State) : (s.settle).stepLog = s.stepLog := by obtain ⟨_, _, _, _, h⟩ := s.settle_frame; rw [h]
@[simp] theorem State.settle_inject (s : State) : (s.settle).inject = s.inject := by obtain ⟨_, _, _, _, h⟩ := s.settle_frame; rw [h]
@[simp] theorem State.settle_masters (s : State) : (s.settle).masters = s.masters := by obtain ⟨_, _, _, _, h⟩ := s.settle_frame; rw [h]
@[simp] theorem State.settle_transfers (s : State) : (s.settle).transfers = s.transfers := by obtain ⟨_, _, _, _, h⟩ := s.settle_frame; rw [h]
@[simp] theorem State.settle_aborted (s : State) : (s.settle).aborted = s.aborted := by obtain ⟨_, _, _, _, h⟩ := s.settle_frame; rw [h]
@[simp] theorem State.settle_maps (s : State) : (s.settle).maps = s.maps := by obtain ⟨_, _, _, _, h⟩ := s.settle_frame; rw [h]
@[simp] theorem State.settle_invocations (s : State) : (s.settle).invocations = s.invocations := by obtain ⟨_, _, _, _, h⟩ := s.settle_frame; rw [h]
@[simp] theorem State.settle_saved (s : State) : (s.settle).saved = s.saved := by obtain ⟨_, _, _, _, h⟩ := s.settle_frame; rw [h]
@[simp] theorem State.settle_stoppingCtx (s : State) : (s.settle).stoppingCtx = s.stoppingCtx := by obtain ⟨_, _, _, _, h⟩ := s.settle_frame; rw [h]
@[simp] theorem State.settle_pins (s : State) : (s.settle).pins = s.pins := by obtain ⟨_, _, _, _, h⟩ := s.settle_frame; rw [h]
@[simp] theorem State.settle_fw (s : State) : (s.settle).fw = s.fw := by obtain ⟨_, _, _, _, h⟩ := s.settle_frame; rw [h]
@[simp] theorem State.settle_fuses (s : State) : (s.settle).fuses = s.fuses := by obtain ⟨_, _, _, _, h⟩ := s.settle_frame; rw [h]
@[simp] theorem State.settle_flash (s : State) : (s.settle).flash = s.flash := by obtain ⟨_, _, _, _, h⟩ := s.settle_frame; rw [h]
@[simp] theorem State.settle_repairs (s : State) : (s.settle).repairs = s.repairs := by obtain ⟨_, _, _, _, h⟩ := s.settle_frame; rw [h]
@[simp] theorem State.settle_adapts (s : State) : (s.settle).adapts = s.adapts := by obtain ⟨_, _, _, _, h⟩ := s.settle_frame; rw [h]
@[simp] theorem State.settle_submissions (s : State) : (s.settle).submissions = s.submissions := by obtain ⟨_, _, _, _, h⟩ := s.settle_frame; rw [h]
@[simp] theorem State.settle_cameras (s : State) : (s.settle).cameras = s.cameras := by obtain ⟨_, _, _, _, h⟩ := s.settle_frame; rw [h]
@[simp] theorem State.settle_tokenizer (s : State) : (s.settle).tokenizer = s.tokenizer := by obtain ⟨_, _, _, _, h⟩ := s.settle_frame; rw [h]
@[simp] theorem State.settle_responses (s : State) : (s.settle).responses = s.responses := by obtain ⟨_, _, _, _, h⟩ := s.settle_frame; rw [h]
@[simp] theorem State.settle_owned (s : State) : (s.settle).owned = s.owned := by obtain ⟨_, _, _, _, h⟩ := s.settle_frame; rw [h]
@[simp] theorem State.settle_core (s : State) (c : Nat) : (s.settle).core c = s.core c := by obtain ⟨_, _, _, _, h⟩ := s.settle_frame; rw [h]; rfl
@[simp] theorem State.settle_engine (s : State) (c e : Nat) : (s.settle).engine c e = s.engine c e := by obtain ⟨_, _, _, _, h⟩ := s.settle_frame; rw [h]; rfl
@[simp] theorem State.settle_cluster (s : State) (k : Nat) : (s.settle).cluster k = s.cluster k := by obtain ⟨_, _, _, _, h⟩ := s.settle_frame; rw [h]; rfl
@[simp] theorem State.settle_hq (s : State) (u q : Nat) : (s.settle).hq u q = s.hq u q := by obtain ⟨_, _, _, _, h⟩ := s.settle_frame; rw [h]; rfl
@[simp] theorem State.settle_d (s : State) (k : Nat) : (s.settle).d k = s.d k := by obtain ⟨_, _, _, _, h⟩ := s.settle_frame; rw [h]; rfl
@[simp] theorem State.settle_byte (s : State) (a : Nat) : (s.settle).byte a = s.byte a := by obtain ⟨_, _, _, _, h⟩ := s.settle_frame; rw [h]; rfl
@[simp] theorem State.settle_bytes (s : State) (a n : Nat) : (s.settle).bytes a n = s.bytes a n := by obtain ⟨_, _, _, _, h⟩ := s.settle_frame; rw [h]; rfl
@[simp] theorem State.settle_now (s : State) : (s.settle).now = s.now := by obtain ⟨_, _, _, _, h⟩ := s.settle_frame; rw [h]; rfl
@[simp] theorem State.settle_unitCycle (s : State) (u : Nat) : (s.settle).unitCycle u = s.unitCycle u := by obtain ⟨_, _, _, _, h⟩ := s.settle_frame; rw [h]; rfl
@[simp] theorem State.settle_coreCycle (s : State) (c : Nat) : (s.settle).coreCycle c = s.coreCycle c := by obtain ⟨_, _, _, _, h⟩ := s.settle_frame; rw [h]; rfl
@[simp] theorem State.settle_chan (s : State) (c : Nat) : (s.settle).chan c = s.chan c := by obtain ⟨_, _, _, _, h⟩ := s.settle_frame; rw [h]; rfl
@[simp] theorem State.settle_lane (s : State) (i : Nat) : (s.settle).lane i = s.lane i := by obtain ⟨_, _, _, _, h⟩ := s.settle_frame; rw [h]; rfl
@[simp] theorem State.settle_rel (s : State) (l c : Nat) : (s.settle).rel l c = s.rel l c := by obtain ⟨_, _, _, _, h⟩ := s.settle_frame; rw [h]; rfl
@[simp] theorem State.settle_peer (s : State) (n : Nat) : (s.settle).peer n = s.peer n := by obtain ⟨_, _, _, _, h⟩ := s.settle_frame; rw [h]; rfl
@[simp] theorem State.settle_master (s : State) (m : Nat) : (s.settle).master m = s.master m := by obtain ⟨_, _, _, _, h⟩ := s.settle_frame; rw [h]; rfl
@[simp] theorem State.settle_adapt (s : State) (n : Nat) : (s.settle).adapt n = s.adapt n := by obtain ⟨_, _, _, _, h⟩ := s.settle_frame; rw [h]; rfl
@[simp] theorem State.settle_camera (s : State) (k : Nat) : (s.settle).camera k = s.camera k := by obtain ⟨_, _, _, _, h⟩ := s.settle_frame; rw [h]; rfl
@[simp] theorem State.settle_lineOf (s : State) (a : Nat) : (s.settle).lineOf a = s.lineOf a := by obtain ⟨_, _, _, _, h⟩ := s.settle_frame; rw [h]; rfl
@[simp] theorem State.settle_rgn (s : State) (e w : Nat) : (s.settle).rgn e w = s.rgn e w := by obtain ⟨_, _, _, _, h⟩ := s.settle_frame; rw [h]; rfl
@[simp] theorem State.settle_win (s : State) (n w : Nat) : (s.settle).win n w = s.win n w := by obtain ⟨_, _, _, _, h⟩ := s.settle_frame; rw [h]; rfl
@[simp] theorem State.acted_pending (s : State) : (s.acted).pending = s.pending := by obtain ⟨_, _, h⟩ := s.acted_frame; rw [h]
@[simp] theorem State.acted_free (s : State) : (s.acted).free = s.free := by obtain ⟨_, _, h⟩ := s.acted_frame; rw [h]
@[simp] theorem State.acted_clk (s : State) : (s.acted).clk = s.clk := by obtain ⟨_, _, h⟩ := s.acted_frame; rw [h]
@[simp] theorem State.acted_cores (s : State) : (s.acted).cores = s.cores := by obtain ⟨_, _, h⟩ := s.acted_frame; rw [h]
@[simp] theorem State.acted_clusters (s : State) : (s.acted).clusters = s.clusters := by obtain ⟨_, _, h⟩ := s.acted_frame; rw [h]
@[simp] theorem State.acted_hqs (s : State) : (s.acted).hqs = s.hqs := by obtain ⟨_, _, h⟩ := s.acted_frame; rw [h]
@[simp] theorem State.acted_forwards (s : State) : (s.acted).forwards = s.forwards := by obtain ⟨_, _, h⟩ := s.acted_frame; rw [h]
@[simp] theorem State.acted_credits (s : State) : (s.acted).credits = s.credits := by obtain ⟨_, _, h⟩ := s.acted_frame; rw [h]
@[simp] theorem State.acted_ecc (s : State) : (s.acted).ecc = s.ecc := by obtain ⟨_, _, h⟩ := s.acted_frame; rw [h]
@[simp] theorem State.acted_line (s : State) : (s.acted).line = s.line := by obtain ⟨_, _, h⟩ := s.acted_frame; rw [h]
@[simp] theorem State.acted_omap (s : State) : (s.acted).omap = s.omap := by obtain ⟨_, _, h⟩ := s.acted_frame; rw [h]
@[simp] theorem State.acted_wins (s : State) : (s.acted).wins = s.wins := by obtain ⟨_, _, h⟩ := s.acted_frame; rw [h]
@[simp] theorem State.acted_closingWins (s : State) : (s.acted).closingWins = s.closingWins := by obtain ⟨_, _, h⟩ := s.acted_frame; rw [h]
@[simp] theorem State.acted_rgns (s : State) : (s.acted).rgns = s.rgns := by obtain ⟨_, _, h⟩ := s.acted_frame; rw [h]
@[simp] theorem State.acted_rgnNext (s : State) : (s.acted).rgnNext = s.rgnNext := by obtain ⟨_, _, h⟩ := s.acted_frame; rw [h]
@[simp] theorem State.acted_holders (s : State) : (s.acted).holders = s.holders := by obtain ⟨_, _, h⟩ := s.acted_frame; rw [h]
@[simp] theorem State.acted_retiredPages (s : State) : (s.acted).retiredPages = s.retiredPages := by obtain ⟨_, _, h⟩ := s.acted_frame; rw [h]
@[simp] theorem State.acted_ctxTab (s : State) : (s.acted).ctxTab = s.ctxTab := by obtain ⟨_, _, h⟩ := s.acted_frame; rw [h]
@[simp] theorem State.acted_dom (s : State) : (s.acted).dom = s.dom := by obtain ⟨_, _, h⟩ := s.acted_frame; rw [h]
@[simp] theorem State.acted_obs (s : State) : (s.acted).obs = s.obs := by obtain ⟨_, _, h⟩ := s.acted_frame; rw [h]
@[simp] theorem State.acted_chans (s : State) : (s.acted).chans = s.chans := by obtain ⟨_, _, h⟩ := s.acted_frame; rw [h]
@[simp] theorem State.acted_reply (s : State) : (s.acted).reply = s.reply := by obtain ⟨_, _, h⟩ := s.acted_frame; rw [h]
@[simp] theorem State.acted_loop (s : State) : (s.acted).loop = s.loop := by obtain ⟨_, _, h⟩ := s.acted_frame; rw [h]
@[simp] theorem State.acted_sources (s : State) : (s.acted).sources = s.sources := by obtain ⟨_, _, h⟩ := s.acted_frame; rw [h]
@[simp] theorem State.acted_boot (s : State) : (s.acted).boot = s.boot := by obtain ⟨_, _, h⟩ := s.acted_frame; rw [h]
@[simp] theorem State.acted_lanes (s : State) : (s.acted).lanes = s.lanes := by obtain ⟨_, _, h⟩ := s.acted_frame; rw [h]
@[simp] theorem State.acted_rels (s : State) : (s.acted).rels = s.rels := by obtain ⟨_, _, h⟩ := s.acted_frame; rw [h]
@[simp] theorem State.acted_sent (s : State) : (s.acted).sent = s.sent := by obtain ⟨_, _, h⟩ := s.acted_frame; rw [h]
@[simp] theorem State.acted_cyclic (s : State) : (s.acted).cyclic = s.cyclic := by obtain ⟨_, _, h⟩ := s.acted_frame; rw [h]
@[simp] theorem State.acted_peers (s : State) : (s.acted).peers = s.peers := by obtain ⟨_, _, h⟩ := s.acted_frame; rw [h]
@[simp] theorem State.acted_writes (s : State) : (s.acted).writes = s.writes := by obtain ⟨_, _, h⟩ := s.acted_frame; rw [h]
@[simp] theorem State.acted_inWrites (s : State) : (s.acted).inWrites = s.inWrites := by obtain ⟨_, _, h⟩ := s.acted_frame; rw [h]
@[simp] theorem State.acted_attn (s : State) : (s.acted).attn = s.attn := by obtain ⟨_, _, h⟩ := s.acted_frame; rw [h]
@[simp] theorem State.acted_reqs (s : State) : (s.acted).reqs = s.reqs := by obtain ⟨_, _, h⟩ := s.acted_frame; rw [h]
@[simp] theorem State.acted_steps (s : State) : (s.acted).steps = s.steps := by obtain ⟨_, _, h⟩ := s.acted_frame; rw [h]
@[simp] theorem State.acted_stepLog (s : State) : (s.acted).stepLog = s.stepLog := by obtain ⟨_, _, h⟩ := s.acted_frame; rw [h]
@[simp] theorem State.acted_masters (s : State) : (s.acted).masters = s.masters := by obtain ⟨_, _, h⟩ := s.acted_frame; rw [h]
@[simp] theorem State.acted_transfers (s : State) : (s.acted).transfers = s.transfers := by obtain ⟨_, _, h⟩ := s.acted_frame; rw [h]
@[simp] theorem State.acted_aborted (s : State) : (s.acted).aborted = s.aborted := by obtain ⟨_, _, h⟩ := s.acted_frame; rw [h]
@[simp] theorem State.acted_maps (s : State) : (s.acted).maps = s.maps := by obtain ⟨_, _, h⟩ := s.acted_frame; rw [h]
@[simp] theorem State.acted_invocations (s : State) : (s.acted).invocations = s.invocations := by obtain ⟨_, _, h⟩ := s.acted_frame; rw [h]
@[simp] theorem State.acted_saved (s : State) : (s.acted).saved = s.saved := by obtain ⟨_, _, h⟩ := s.acted_frame; rw [h]
@[simp] theorem State.acted_stoppingCtx (s : State) : (s.acted).stoppingCtx = s.stoppingCtx := by obtain ⟨_, _, h⟩ := s.acted_frame; rw [h]
@[simp] theorem State.acted_pins (s : State) : (s.acted).pins = s.pins := by obtain ⟨_, _, h⟩ := s.acted_frame; rw [h]
@[simp] theorem State.acted_fw (s : State) : (s.acted).fw = s.fw := by obtain ⟨_, _, h⟩ := s.acted_frame; rw [h]
@[simp] theorem State.acted_fuses (s : State) : (s.acted).fuses = s.fuses := by obtain ⟨_, _, h⟩ := s.acted_frame; rw [h]
@[simp] theorem State.acted_power (s : State) : (s.acted).power = s.power := by obtain ⟨_, _, h⟩ := s.acted_frame; rw [h]
@[simp] theorem State.acted_flash (s : State) : (s.acted).flash = s.flash := by obtain ⟨_, _, h⟩ := s.acted_frame; rw [h]
@[simp] theorem State.acted_repairs (s : State) : (s.acted).repairs = s.repairs := by obtain ⟨_, _, h⟩ := s.acted_frame; rw [h]
@[simp] theorem State.acted_adapts (s : State) : (s.acted).adapts = s.adapts := by obtain ⟨_, _, h⟩ := s.acted_frame; rw [h]
@[simp] theorem State.acted_submissions (s : State) : (s.acted).submissions = s.submissions := by obtain ⟨_, _, h⟩ := s.acted_frame; rw [h]
@[simp] theorem State.acted_cameras (s : State) : (s.acted).cameras = s.cameras := by obtain ⟨_, _, h⟩ := s.acted_frame; rw [h]
@[simp] theorem State.acted_tokenizer (s : State) : (s.acted).tokenizer = s.tokenizer := by obtain ⟨_, _, h⟩ := s.acted_frame; rw [h]
@[simp] theorem State.acted_responses (s : State) : (s.acted).responses = s.responses := by obtain ⟨_, _, h⟩ := s.acted_frame; rw [h]
@[simp] theorem State.acted_owned (s : State) : (s.acted).owned = s.owned := by obtain ⟨_, _, h⟩ := s.acted_frame; rw [h]
@[simp] theorem State.acted_core (s : State) (c : Nat) : (s.acted).core c = s.core c := by obtain ⟨_, _, h⟩ := s.acted_frame; rw [h]; rfl
@[simp] theorem State.acted_engine (s : State) (c e : Nat) : (s.acted).engine c e = s.engine c e := by obtain ⟨_, _, h⟩ := s.acted_frame; rw [h]; rfl
@[simp] theorem State.acted_cluster (s : State) (k : Nat) : (s.acted).cluster k = s.cluster k := by obtain ⟨_, _, h⟩ := s.acted_frame; rw [h]; rfl
@[simp] theorem State.acted_hq (s : State) (u q : Nat) : (s.acted).hq u q = s.hq u q := by obtain ⟨_, _, h⟩ := s.acted_frame; rw [h]; rfl
@[simp] theorem State.acted_d (s : State) (k : Nat) : (s.acted).d k = s.d k := by obtain ⟨_, _, h⟩ := s.acted_frame; rw [h]; rfl
@[simp] theorem State.acted_byte (s : State) (a : Nat) : (s.acted).byte a = s.byte a := by obtain ⟨_, _, h⟩ := s.acted_frame; rw [h]; rfl
@[simp] theorem State.acted_bytes (s : State) (a n : Nat) : (s.acted).bytes a n = s.bytes a n := by obtain ⟨_, _, h⟩ := s.acted_frame; rw [h]; rfl
@[simp] theorem State.acted_now (s : State) : (s.acted).now = s.now := by obtain ⟨_, _, h⟩ := s.acted_frame; rw [h]; rfl
@[simp] theorem State.acted_unitCycle (s : State) (u : Nat) : (s.acted).unitCycle u = s.unitCycle u := by obtain ⟨_, _, h⟩ := s.acted_frame; rw [h]; rfl
@[simp] theorem State.acted_coreCycle (s : State) (c : Nat) : (s.acted).coreCycle c = s.coreCycle c := by obtain ⟨_, _, h⟩ := s.acted_frame; rw [h]; rfl
@[simp] theorem State.acted_chan (s : State) (c : Nat) : (s.acted).chan c = s.chan c := by obtain ⟨_, _, h⟩ := s.acted_frame; rw [h]; rfl
@[simp] theorem State.acted_lane (s : State) (i : Nat) : (s.acted).lane i = s.lane i := by obtain ⟨_, _, h⟩ := s.acted_frame; rw [h]; rfl
@[simp] theorem State.acted_rel (s : State) (l c : Nat) : (s.acted).rel l c = s.rel l c := by obtain ⟨_, _, h⟩ := s.acted_frame; rw [h]; rfl
@[simp] theorem State.acted_peer (s : State) (n : Nat) : (s.acted).peer n = s.peer n := by obtain ⟨_, _, h⟩ := s.acted_frame; rw [h]; rfl
@[simp] theorem State.acted_master (s : State) (m : Nat) : (s.acted).master m = s.master m := by obtain ⟨_, _, h⟩ := s.acted_frame; rw [h]; rfl
@[simp] theorem State.acted_adapt (s : State) (n : Nat) : (s.acted).adapt n = s.adapt n := by obtain ⟨_, _, h⟩ := s.acted_frame; rw [h]; rfl
@[simp] theorem State.acted_camera (s : State) (k : Nat) : (s.acted).camera k = s.camera k := by obtain ⟨_, _, h⟩ := s.acted_frame; rw [h]; rfl
@[simp] theorem State.acted_lineOf (s : State) (a : Nat) : (s.acted).lineOf a = s.lineOf a := by obtain ⟨_, _, h⟩ := s.acted_frame; rw [h]; rfl
@[simp] theorem State.acted_rgn (s : State) (e w : Nat) : (s.acted).rgn e w = s.rgn e w := by obtain ⟨_, _, h⟩ := s.acted_frame; rw [h]; rfl
@[simp] theorem State.acted_win (s : State) (n w : Nat) : (s.acted).win n w = s.win n w := by obtain ⟨_, _, h⟩ := s.acted_frame; rw [h]; rfl
@[simp] theorem State.putSent_pending (s : State) (l t : Nat) (d : List Byte) : (s.putSent l t d).pending = s.pending := by obtain ⟨_, h⟩ := s.putSent_frame l t d; rw [h]
@[simp] theorem State.putSent_free (s : State) (l t : Nat) (d : List Byte) : (s.putSent l t d).free = s.free := by obtain ⟨_, h⟩ := s.putSent_frame l t d; rw [h]
@[simp] theorem State.putSent_clk (s : State) (l t : Nat) (d : List Byte) : (s.putSent l t d).clk = s.clk := by obtain ⟨_, h⟩ := s.putSent_frame l t d; rw [h]
@[simp] theorem State.putSent_cores (s : State) (l t : Nat) (d : List Byte) : (s.putSent l t d).cores = s.cores := by obtain ⟨_, h⟩ := s.putSent_frame l t d; rw [h]
@[simp] theorem State.putSent_clusters (s : State) (l t : Nat) (d : List Byte) : (s.putSent l t d).clusters = s.clusters := by obtain ⟨_, h⟩ := s.putSent_frame l t d; rw [h]
@[simp] theorem State.putSent_hqs (s : State) (l t : Nat) (d : List Byte) : (s.putSent l t d).hqs = s.hqs := by obtain ⟨_, h⟩ := s.putSent_frame l t d; rw [h]
@[simp] theorem State.putSent_forwards (s : State) (l t : Nat) (d : List Byte) : (s.putSent l t d).forwards = s.forwards := by obtain ⟨_, h⟩ := s.putSent_frame l t d; rw [h]
@[simp] theorem State.putSent_credits (s : State) (l t : Nat) (d : List Byte) : (s.putSent l t d).credits = s.credits := by obtain ⟨_, h⟩ := s.putSent_frame l t d; rw [h]
@[simp] theorem State.putSent_ecc (s : State) (l t : Nat) (d : List Byte) : (s.putSent l t d).ecc = s.ecc := by obtain ⟨_, h⟩ := s.putSent_frame l t d; rw [h]
@[simp] theorem State.putSent_line (s : State) (l t : Nat) (d : List Byte) : (s.putSent l t d).line = s.line := by obtain ⟨_, h⟩ := s.putSent_frame l t d; rw [h]
@[simp] theorem State.putSent_omap (s : State) (l t : Nat) (d : List Byte) : (s.putSent l t d).omap = s.omap := by obtain ⟨_, h⟩ := s.putSent_frame l t d; rw [h]
@[simp] theorem State.putSent_wins (s : State) (l t : Nat) (d : List Byte) : (s.putSent l t d).wins = s.wins := by obtain ⟨_, h⟩ := s.putSent_frame l t d; rw [h]
@[simp] theorem State.putSent_closingWins (s : State) (l t : Nat) (d : List Byte) : (s.putSent l t d).closingWins = s.closingWins := by obtain ⟨_, h⟩ := s.putSent_frame l t d; rw [h]
@[simp] theorem State.putSent_rgns (s : State) (l t : Nat) (d : List Byte) : (s.putSent l t d).rgns = s.rgns := by obtain ⟨_, h⟩ := s.putSent_frame l t d; rw [h]
@[simp] theorem State.putSent_rgnNext (s : State) (l t : Nat) (d : List Byte) : (s.putSent l t d).rgnNext = s.rgnNext := by obtain ⟨_, h⟩ := s.putSent_frame l t d; rw [h]
@[simp] theorem State.putSent_holders (s : State) (l t : Nat) (d : List Byte) : (s.putSent l t d).holders = s.holders := by obtain ⟨_, h⟩ := s.putSent_frame l t d; rw [h]
@[simp] theorem State.putSent_retiredPages (s : State) (l t : Nat) (d : List Byte) : (s.putSent l t d).retiredPages = s.retiredPages := by obtain ⟨_, h⟩ := s.putSent_frame l t d; rw [h]
@[simp] theorem State.putSent_ctxTab (s : State) (l t : Nat) (d : List Byte) : (s.putSent l t d).ctxTab = s.ctxTab := by obtain ⟨_, h⟩ := s.putSent_frame l t d; rw [h]
@[simp] theorem State.putSent_obj (s : State) (l t : Nat) (d : List Byte) : (s.putSent l t d).obj = s.obj := by obtain ⟨_, h⟩ := s.putSent_frame l t d; rw [h]
@[simp] theorem State.putSent_dom (s : State) (l t : Nat) (d : List Byte) : (s.putSent l t d).dom = s.dom := by obtain ⟨_, h⟩ := s.putSent_frame l t d; rw [h]
@[simp] theorem State.putSent_obs (s : State) (l t : Nat) (d : List Byte) : (s.putSent l t d).obs = s.obs := by obtain ⟨_, h⟩ := s.putSent_frame l t d; rw [h]
@[simp] theorem State.putSent_chans (s : State) (l t : Nat) (d : List Byte) : (s.putSent l t d).chans = s.chans := by obtain ⟨_, h⟩ := s.putSent_frame l t d; rw [h]
@[simp] theorem State.putSent_reply (s : State) (l t : Nat) (d : List Byte) : (s.putSent l t d).reply = s.reply := by obtain ⟨_, h⟩ := s.putSent_frame l t d; rw [h]
@[simp] theorem State.putSent_loop (s : State) (l t : Nat) (d : List Byte) : (s.putSent l t d).loop = s.loop := by obtain ⟨_, h⟩ := s.putSent_frame l t d; rw [h]
@[simp] theorem State.putSent_sources (s : State) (l t : Nat) (d : List Byte) : (s.putSent l t d).sources = s.sources := by obtain ⟨_, h⟩ := s.putSent_frame l t d; rw [h]
@[simp] theorem State.putSent_boot (s : State) (l t : Nat) (d : List Byte) : (s.putSent l t d).boot = s.boot := by obtain ⟨_, h⟩ := s.putSent_frame l t d; rw [h]
@[simp] theorem State.putSent_lanes (s : State) (l t : Nat) (d : List Byte) : (s.putSent l t d).lanes = s.lanes := by obtain ⟨_, h⟩ := s.putSent_frame l t d; rw [h]
@[simp] theorem State.putSent_rels (s : State) (l t : Nat) (d : List Byte) : (s.putSent l t d).rels = s.rels := by obtain ⟨_, h⟩ := s.putSent_frame l t d; rw [h]
@[simp] theorem State.putSent_cyclic (s : State) (l t : Nat) (d : List Byte) : (s.putSent l t d).cyclic = s.cyclic := by obtain ⟨_, h⟩ := s.putSent_frame l t d; rw [h]
@[simp] theorem State.putSent_peers (s : State) (l t : Nat) (d : List Byte) : (s.putSent l t d).peers = s.peers := by obtain ⟨_, h⟩ := s.putSent_frame l t d; rw [h]
@[simp] theorem State.putSent_writes (s : State) (l t : Nat) (d : List Byte) : (s.putSent l t d).writes = s.writes := by obtain ⟨_, h⟩ := s.putSent_frame l t d; rw [h]
@[simp] theorem State.putSent_inWrites (s : State) (l t : Nat) (d : List Byte) : (s.putSent l t d).inWrites = s.inWrites := by obtain ⟨_, h⟩ := s.putSent_frame l t d; rw [h]
@[simp] theorem State.putSent_attn (s : State) (l t : Nat) (d : List Byte) : (s.putSent l t d).attn = s.attn := by obtain ⟨_, h⟩ := s.putSent_frame l t d; rw [h]
@[simp] theorem State.putSent_reqs (s : State) (l t : Nat) (d : List Byte) : (s.putSent l t d).reqs = s.reqs := by obtain ⟨_, h⟩ := s.putSent_frame l t d; rw [h]
@[simp] theorem State.putSent_steps (s : State) (l t : Nat) (d : List Byte) : (s.putSent l t d).steps = s.steps := by obtain ⟨_, h⟩ := s.putSent_frame l t d; rw [h]
@[simp] theorem State.putSent_stepLog (s : State) (l t : Nat) (d : List Byte) : (s.putSent l t d).stepLog = s.stepLog := by obtain ⟨_, h⟩ := s.putSent_frame l t d; rw [h]
@[simp] theorem State.putSent_inject (s : State) (l t : Nat) (d : List Byte) : (s.putSent l t d).inject = s.inject := by obtain ⟨_, h⟩ := s.putSent_frame l t d; rw [h]
@[simp] theorem State.putSent_masters (s : State) (l t : Nat) (d : List Byte) : (s.putSent l t d).masters = s.masters := by obtain ⟨_, h⟩ := s.putSent_frame l t d; rw [h]
@[simp] theorem State.putSent_transfers (s : State) (l t : Nat) (d : List Byte) : (s.putSent l t d).transfers = s.transfers := by obtain ⟨_, h⟩ := s.putSent_frame l t d; rw [h]
@[simp] theorem State.putSent_aborted (s : State) (l t : Nat) (d : List Byte) : (s.putSent l t d).aborted = s.aborted := by obtain ⟨_, h⟩ := s.putSent_frame l t d; rw [h]
@[simp] theorem State.putSent_maps (s : State) (l t : Nat) (d : List Byte) : (s.putSent l t d).maps = s.maps := by obtain ⟨_, h⟩ := s.putSent_frame l t d; rw [h]
@[simp] theorem State.putSent_invocations (s : State) (l t : Nat) (d : List Byte) : (s.putSent l t d).invocations = s.invocations := by obtain ⟨_, h⟩ := s.putSent_frame l t d; rw [h]
@[simp] theorem State.putSent_saved (s : State) (l t : Nat) (d : List Byte) : (s.putSent l t d).saved = s.saved := by obtain ⟨_, h⟩ := s.putSent_frame l t d; rw [h]
@[simp] theorem State.putSent_stoppingCtx (s : State) (l t : Nat) (d : List Byte) : (s.putSent l t d).stoppingCtx = s.stoppingCtx := by obtain ⟨_, h⟩ := s.putSent_frame l t d; rw [h]
@[simp] theorem State.putSent_pins (s : State) (l t : Nat) (d : List Byte) : (s.putSent l t d).pins = s.pins := by obtain ⟨_, h⟩ := s.putSent_frame l t d; rw [h]
@[simp] theorem State.putSent_fw (s : State) (l t : Nat) (d : List Byte) : (s.putSent l t d).fw = s.fw := by obtain ⟨_, h⟩ := s.putSent_frame l t d; rw [h]
@[simp] theorem State.putSent_fuses (s : State) (l t : Nat) (d : List Byte) : (s.putSent l t d).fuses = s.fuses := by obtain ⟨_, h⟩ := s.putSent_frame l t d; rw [h]
@[simp] theorem State.putSent_power (s : State) (l t : Nat) (d : List Byte) : (s.putSent l t d).power = s.power := by obtain ⟨_, h⟩ := s.putSent_frame l t d; rw [h]
@[simp] theorem State.putSent_flash (s : State) (l t : Nat) (d : List Byte) : (s.putSent l t d).flash = s.flash := by obtain ⟨_, h⟩ := s.putSent_frame l t d; rw [h]
@[simp] theorem State.putSent_repairs (s : State) (l t : Nat) (d : List Byte) : (s.putSent l t d).repairs = s.repairs := by obtain ⟨_, h⟩ := s.putSent_frame l t d; rw [h]
@[simp] theorem State.putSent_adapts (s : State) (l t : Nat) (d : List Byte) : (s.putSent l t d).adapts = s.adapts := by obtain ⟨_, h⟩ := s.putSent_frame l t d; rw [h]
@[simp] theorem State.putSent_submissions (s : State) (l t : Nat) (d : List Byte) : (s.putSent l t d).submissions = s.submissions := by obtain ⟨_, h⟩ := s.putSent_frame l t d; rw [h]
@[simp] theorem State.putSent_cameras (s : State) (l t : Nat) (d : List Byte) : (s.putSent l t d).cameras = s.cameras := by obtain ⟨_, h⟩ := s.putSent_frame l t d; rw [h]
@[simp] theorem State.putSent_tokenizer (s : State) (l t : Nat) (d : List Byte) : (s.putSent l t d).tokenizer = s.tokenizer := by obtain ⟨_, h⟩ := s.putSent_frame l t d; rw [h]
@[simp] theorem State.putSent_responses (s : State) (l t : Nat) (d : List Byte) : (s.putSent l t d).responses = s.responses := by obtain ⟨_, h⟩ := s.putSent_frame l t d; rw [h]
@[simp] theorem State.putSent_owned (s : State) (l t : Nat) (d : List Byte) : (s.putSent l t d).owned = s.owned := by obtain ⟨_, h⟩ := s.putSent_frame l t d; rw [h]
@[simp] theorem State.putSent_core (s : State) (l t : Nat) (d : List Byte) (c : Nat) : (s.putSent l t d).core c = s.core c := by obtain ⟨_, h⟩ := s.putSent_frame l t d; rw [h]; rfl
@[simp] theorem State.putSent_engine (s : State) (l t : Nat) (d : List Byte) (c e : Nat) : (s.putSent l t d).engine c e = s.engine c e := by obtain ⟨_, h⟩ := s.putSent_frame l t d; rw [h]; rfl
@[simp] theorem State.putSent_cluster (s : State) (l t : Nat) (d : List Byte) (k : Nat) : (s.putSent l t d).cluster k = s.cluster k := by obtain ⟨_, h⟩ := s.putSent_frame l t d; rw [h]; rfl
@[simp] theorem State.putSent_hq (s : State) (l t : Nat) (d : List Byte) (u q : Nat) : (s.putSent l t d).hq u q = s.hq u q := by obtain ⟨_, h⟩ := s.putSent_frame l t d; rw [h]; rfl
@[simp] theorem State.putSent_o (s : State) (l t : Nat) (d : List Byte) (k : Nat) : (s.putSent l t d).o k = s.o k := by obtain ⟨_, h⟩ := s.putSent_frame l t d; rw [h]; rfl
@[simp] theorem State.putSent_oBit (s : State) (l t : Nat) (d : List Byte) (k i : Nat) : (s.putSent l t d).oBit k i = s.oBit k i := by obtain ⟨_, h⟩ := s.putSent_frame l t d; rw [h]; rfl
@[simp] theorem State.putSent_d (s : State) (l t : Nat) (d : List Byte) (k : Nat) : (s.putSent l t d).d k = s.d k := by obtain ⟨_, h⟩ := s.putSent_frame l t d; rw [h]; rfl
@[simp] theorem State.putSent_byte (s : State) (l t : Nat) (d : List Byte) (a : Nat) : (s.putSent l t d).byte a = s.byte a := by obtain ⟨_, h⟩ := s.putSent_frame l t d; rw [h]; rfl
@[simp] theorem State.putSent_bytes (s : State) (l t : Nat) (d : List Byte) (a n : Nat) : (s.putSent l t d).bytes a n = s.bytes a n := by obtain ⟨_, h⟩ := s.putSent_frame l t d; rw [h]; rfl
@[simp] theorem State.putSent_now (s : State) (l t : Nat) (d : List Byte) : (s.putSent l t d).now = s.now := by obtain ⟨_, h⟩ := s.putSent_frame l t d; rw [h]; rfl
@[simp] theorem State.putSent_unitCycle (s : State) (l t : Nat) (d : List Byte) (u : Nat) : (s.putSent l t d).unitCycle u = s.unitCycle u := by obtain ⟨_, h⟩ := s.putSent_frame l t d; rw [h]; rfl
@[simp] theorem State.putSent_coreCycle (s : State) (l t : Nat) (d : List Byte) (c : Nat) : (s.putSent l t d).coreCycle c = s.coreCycle c := by obtain ⟨_, h⟩ := s.putSent_frame l t d; rw [h]; rfl
@[simp] theorem State.putSent_chan (s : State) (l t : Nat) (d : List Byte) (c : Nat) : (s.putSent l t d).chan c = s.chan c := by obtain ⟨_, h⟩ := s.putSent_frame l t d; rw [h]; rfl
@[simp] theorem State.putSent_lane (s : State) (l t : Nat) (d : List Byte) (i : Nat) : (s.putSent l t d).lane i = s.lane i := by obtain ⟨_, h⟩ := s.putSent_frame l t d; rw [h]; rfl
@[simp] theorem State.putSent_laneState (s : State) (l t : Nat) (d : List Byte) (i : Nat) : (s.putSent l t d).laneState i = s.laneState i := by obtain ⟨_, h⟩ := s.putSent_frame l t d; rw [h]; rfl
@[simp] theorem State.putSent_laneUp (s : State) (l t : Nat) (d : List Byte) (i : Nat) : (s.putSent l t d).laneUp i = s.laneUp i := by obtain ⟨_, h⟩ := s.putSent_frame l t d; rw [h]; rfl
@[simp] theorem State.putSent_rel (s : State) (l t : Nat) (d : List Byte) (l' c : Nat) : (s.putSent l t d).rel l' c = s.rel l' c := by obtain ⟨_, h⟩ := s.putSent_frame l t d; rw [h]; rfl
@[simp] theorem State.putSent_peer (s : State) (l t : Nat) (d : List Byte) (n : Nat) : (s.putSent l t d).peer n = s.peer n := by obtain ⟨_, h⟩ := s.putSent_frame l t d; rw [h]; rfl
@[simp] theorem State.putSent_master (s : State) (l t : Nat) (d : List Byte) (m : Nat) : (s.putSent l t d).master m = s.master m := by obtain ⟨_, h⟩ := s.putSent_frame l t d; rw [h]; rfl
@[simp] theorem State.putSent_adapt (s : State) (l t : Nat) (d : List Byte) (n : Nat) : (s.putSent l t d).adapt n = s.adapt n := by obtain ⟨_, h⟩ := s.putSent_frame l t d; rw [h]; rfl
@[simp] theorem State.putSent_camera (s : State) (l t : Nat) (d : List Byte) (k : Nat) : (s.putSent l t d).camera k = s.camera k := by obtain ⟨_, h⟩ := s.putSent_frame l t d; rw [h]; rfl
@[simp] theorem State.putSent_lineOf (s : State) (l t : Nat) (d : List Byte) (a : Nat) : (s.putSent l t d).lineOf a = s.lineOf a := by obtain ⟨_, h⟩ := s.putSent_frame l t d; rw [h]; rfl
@[simp] theorem State.putSent_rgn (s : State) (l t : Nat) (d : List Byte) (e w : Nat) : (s.putSent l t d).rgn e w = s.rgn e w := by obtain ⟨_, h⟩ := s.putSent_frame l t d; rw [h]; rfl
@[simp] theorem State.putSent_win (s : State) (l t : Nat) (d : List Byte) (n w : Nat) : (s.putSent l t d).win n w = s.win n w := by obtain ⟨_, h⟩ := s.putSent_frame l t d; rw [h]; rfl
@[simp] theorem State.release_pending (s : State) (l t : Nat) (d : List Byte) : (s.release l t d).pending = s.pending := by obtain ⟨_, _, h⟩ := s.release_frame l t d; rw [h]
@[simp] theorem State.release_free (s : State) (l t : Nat) (d : List Byte) : (s.release l t d).free = s.free := by obtain ⟨_, _, h⟩ := s.release_frame l t d; rw [h]
@[simp] theorem State.release_clk (s : State) (l t : Nat) (d : List Byte) : (s.release l t d).clk = s.clk := by obtain ⟨_, _, h⟩ := s.release_frame l t d; rw [h]
@[simp] theorem State.release_cores (s : State) (l t : Nat) (d : List Byte) : (s.release l t d).cores = s.cores := by obtain ⟨_, _, h⟩ := s.release_frame l t d; rw [h]
@[simp] theorem State.release_clusters (s : State) (l t : Nat) (d : List Byte) : (s.release l t d).clusters = s.clusters := by obtain ⟨_, _, h⟩ := s.release_frame l t d; rw [h]
@[simp] theorem State.release_hqs (s : State) (l t : Nat) (d : List Byte) : (s.release l t d).hqs = s.hqs := by obtain ⟨_, _, h⟩ := s.release_frame l t d; rw [h]
@[simp] theorem State.release_forwards (s : State) (l t : Nat) (d : List Byte) : (s.release l t d).forwards = s.forwards := by obtain ⟨_, _, h⟩ := s.release_frame l t d; rw [h]
@[simp] theorem State.release_credits (s : State) (l t : Nat) (d : List Byte) : (s.release l t d).credits = s.credits := by obtain ⟨_, _, h⟩ := s.release_frame l t d; rw [h]
@[simp] theorem State.release_ecc (s : State) (l t : Nat) (d : List Byte) : (s.release l t d).ecc = s.ecc := by obtain ⟨_, _, h⟩ := s.release_frame l t d; rw [h]
@[simp] theorem State.release_line (s : State) (l t : Nat) (d : List Byte) : (s.release l t d).line = s.line := by obtain ⟨_, _, h⟩ := s.release_frame l t d; rw [h]
@[simp] theorem State.release_omap (s : State) (l t : Nat) (d : List Byte) : (s.release l t d).omap = s.omap := by obtain ⟨_, _, h⟩ := s.release_frame l t d; rw [h]
@[simp] theorem State.release_wins (s : State) (l t : Nat) (d : List Byte) : (s.release l t d).wins = s.wins := by obtain ⟨_, _, h⟩ := s.release_frame l t d; rw [h]
@[simp] theorem State.release_closingWins (s : State) (l t : Nat) (d : List Byte) : (s.release l t d).closingWins = s.closingWins := by obtain ⟨_, _, h⟩ := s.release_frame l t d; rw [h]
@[simp] theorem State.release_rgns (s : State) (l t : Nat) (d : List Byte) : (s.release l t d).rgns = s.rgns := by obtain ⟨_, _, h⟩ := s.release_frame l t d; rw [h]
@[simp] theorem State.release_rgnNext (s : State) (l t : Nat) (d : List Byte) : (s.release l t d).rgnNext = s.rgnNext := by obtain ⟨_, _, h⟩ := s.release_frame l t d; rw [h]
@[simp] theorem State.release_holders (s : State) (l t : Nat) (d : List Byte) : (s.release l t d).holders = s.holders := by obtain ⟨_, _, h⟩ := s.release_frame l t d; rw [h]
@[simp] theorem State.release_retiredPages (s : State) (l t : Nat) (d : List Byte) : (s.release l t d).retiredPages = s.retiredPages := by obtain ⟨_, _, h⟩ := s.release_frame l t d; rw [h]
@[simp] theorem State.release_ctxTab (s : State) (l t : Nat) (d : List Byte) : (s.release l t d).ctxTab = s.ctxTab := by obtain ⟨_, _, h⟩ := s.release_frame l t d; rw [h]
@[simp] theorem State.release_obj (s : State) (l t : Nat) (d : List Byte) : (s.release l t d).obj = s.obj := by obtain ⟨_, _, h⟩ := s.release_frame l t d; rw [h]
@[simp] theorem State.release_dom (s : State) (l t : Nat) (d : List Byte) : (s.release l t d).dom = s.dom := by obtain ⟨_, _, h⟩ := s.release_frame l t d; rw [h]
@[simp] theorem State.release_obs (s : State) (l t : Nat) (d : List Byte) : (s.release l t d).obs = s.obs := by obtain ⟨_, _, h⟩ := s.release_frame l t d; rw [h]
@[simp] theorem State.release_chans (s : State) (l t : Nat) (d : List Byte) : (s.release l t d).chans = s.chans := by obtain ⟨_, _, h⟩ := s.release_frame l t d; rw [h]
@[simp] theorem State.release_reply (s : State) (l t : Nat) (d : List Byte) : (s.release l t d).reply = s.reply := by obtain ⟨_, _, h⟩ := s.release_frame l t d; rw [h]
@[simp] theorem State.release_loop (s : State) (l t : Nat) (d : List Byte) : (s.release l t d).loop = s.loop := by obtain ⟨_, _, h⟩ := s.release_frame l t d; rw [h]
@[simp] theorem State.release_sources (s : State) (l t : Nat) (d : List Byte) : (s.release l t d).sources = s.sources := by obtain ⟨_, _, h⟩ := s.release_frame l t d; rw [h]
@[simp] theorem State.release_boot (s : State) (l t : Nat) (d : List Byte) : (s.release l t d).boot = s.boot := by obtain ⟨_, _, h⟩ := s.release_frame l t d; rw [h]
@[simp] theorem State.release_lanes (s : State) (l t : Nat) (d : List Byte) : (s.release l t d).lanes = s.lanes := by obtain ⟨_, _, h⟩ := s.release_frame l t d; rw [h]
@[simp] theorem State.release_rels (s : State) (l t : Nat) (d : List Byte) : (s.release l t d).rels = s.rels := by obtain ⟨_, _, h⟩ := s.release_frame l t d; rw [h]
@[simp] theorem State.release_cyclic (s : State) (l t : Nat) (d : List Byte) : (s.release l t d).cyclic = s.cyclic := by obtain ⟨_, _, h⟩ := s.release_frame l t d; rw [h]
@[simp] theorem State.release_peers (s : State) (l t : Nat) (d : List Byte) : (s.release l t d).peers = s.peers := by obtain ⟨_, _, h⟩ := s.release_frame l t d; rw [h]
@[simp] theorem State.release_writes (s : State) (l t : Nat) (d : List Byte) : (s.release l t d).writes = s.writes := by obtain ⟨_, _, h⟩ := s.release_frame l t d; rw [h]
@[simp] theorem State.release_inWrites (s : State) (l t : Nat) (d : List Byte) : (s.release l t d).inWrites = s.inWrites := by obtain ⟨_, _, h⟩ := s.release_frame l t d; rw [h]
@[simp] theorem State.release_attn (s : State) (l t : Nat) (d : List Byte) : (s.release l t d).attn = s.attn := by obtain ⟨_, _, h⟩ := s.release_frame l t d; rw [h]
@[simp] theorem State.release_reqs (s : State) (l t : Nat) (d : List Byte) : (s.release l t d).reqs = s.reqs := by obtain ⟨_, _, h⟩ := s.release_frame l t d; rw [h]
@[simp] theorem State.release_steps (s : State) (l t : Nat) (d : List Byte) : (s.release l t d).steps = s.steps := by obtain ⟨_, _, h⟩ := s.release_frame l t d; rw [h]
@[simp] theorem State.release_stepLog (s : State) (l t : Nat) (d : List Byte) : (s.release l t d).stepLog = s.stepLog := by obtain ⟨_, _, h⟩ := s.release_frame l t d; rw [h]
@[simp] theorem State.release_inject (s : State) (l t : Nat) (d : List Byte) : (s.release l t d).inject = s.inject := by obtain ⟨_, _, h⟩ := s.release_frame l t d; rw [h]
@[simp] theorem State.release_masters (s : State) (l t : Nat) (d : List Byte) : (s.release l t d).masters = s.masters := by obtain ⟨_, _, h⟩ := s.release_frame l t d; rw [h]
@[simp] theorem State.release_transfers (s : State) (l t : Nat) (d : List Byte) : (s.release l t d).transfers = s.transfers := by obtain ⟨_, _, h⟩ := s.release_frame l t d; rw [h]
@[simp] theorem State.release_aborted (s : State) (l t : Nat) (d : List Byte) : (s.release l t d).aborted = s.aborted := by obtain ⟨_, _, h⟩ := s.release_frame l t d; rw [h]
@[simp] theorem State.release_maps (s : State) (l t : Nat) (d : List Byte) : (s.release l t d).maps = s.maps := by obtain ⟨_, _, h⟩ := s.release_frame l t d; rw [h]
@[simp] theorem State.release_invocations (s : State) (l t : Nat) (d : List Byte) : (s.release l t d).invocations = s.invocations := by obtain ⟨_, _, h⟩ := s.release_frame l t d; rw [h]
@[simp] theorem State.release_saved (s : State) (l t : Nat) (d : List Byte) : (s.release l t d).saved = s.saved := by obtain ⟨_, _, h⟩ := s.release_frame l t d; rw [h]
@[simp] theorem State.release_stoppingCtx (s : State) (l t : Nat) (d : List Byte) : (s.release l t d).stoppingCtx = s.stoppingCtx := by obtain ⟨_, _, h⟩ := s.release_frame l t d; rw [h]
@[simp] theorem State.release_pins (s : State) (l t : Nat) (d : List Byte) : (s.release l t d).pins = s.pins := by obtain ⟨_, _, h⟩ := s.release_frame l t d; rw [h]
@[simp] theorem State.release_fw (s : State) (l t : Nat) (d : List Byte) : (s.release l t d).fw = s.fw := by obtain ⟨_, _, h⟩ := s.release_frame l t d; rw [h]
@[simp] theorem State.release_fuses (s : State) (l t : Nat) (d : List Byte) : (s.release l t d).fuses = s.fuses := by obtain ⟨_, _, h⟩ := s.release_frame l t d; rw [h]
@[simp] theorem State.release_power (s : State) (l t : Nat) (d : List Byte) : (s.release l t d).power = s.power := by obtain ⟨_, _, h⟩ := s.release_frame l t d; rw [h]
@[simp] theorem State.release_flash (s : State) (l t : Nat) (d : List Byte) : (s.release l t d).flash = s.flash := by obtain ⟨_, _, h⟩ := s.release_frame l t d; rw [h]
@[simp] theorem State.release_repairs (s : State) (l t : Nat) (d : List Byte) : (s.release l t d).repairs = s.repairs := by obtain ⟨_, _, h⟩ := s.release_frame l t d; rw [h]
@[simp] theorem State.release_adapts (s : State) (l t : Nat) (d : List Byte) : (s.release l t d).adapts = s.adapts := by obtain ⟨_, _, h⟩ := s.release_frame l t d; rw [h]
@[simp] theorem State.release_submissions (s : State) (l t : Nat) (d : List Byte) : (s.release l t d).submissions = s.submissions := by obtain ⟨_, _, h⟩ := s.release_frame l t d; rw [h]
@[simp] theorem State.release_cameras (s : State) (l t : Nat) (d : List Byte) : (s.release l t d).cameras = s.cameras := by obtain ⟨_, _, h⟩ := s.release_frame l t d; rw [h]
@[simp] theorem State.release_tokenizer (s : State) (l t : Nat) (d : List Byte) : (s.release l t d).tokenizer = s.tokenizer := by obtain ⟨_, _, h⟩ := s.release_frame l t d; rw [h]
@[simp] theorem State.release_responses (s : State) (l t : Nat) (d : List Byte) : (s.release l t d).responses = s.responses := by obtain ⟨_, _, h⟩ := s.release_frame l t d; rw [h]
@[simp] theorem State.release_owned (s : State) (l t : Nat) (d : List Byte) : (s.release l t d).owned = s.owned := by obtain ⟨_, _, h⟩ := s.release_frame l t d; rw [h]
@[simp] theorem State.release_core (s : State) (l t : Nat) (d : List Byte) (c : Nat) : (s.release l t d).core c = s.core c := by obtain ⟨_, _, h⟩ := s.release_frame l t d; rw [h]; rfl
@[simp] theorem State.release_engine (s : State) (l t : Nat) (d : List Byte) (c e : Nat) : (s.release l t d).engine c e = s.engine c e := by obtain ⟨_, _, h⟩ := s.release_frame l t d; rw [h]; rfl
@[simp] theorem State.release_cluster (s : State) (l t : Nat) (d : List Byte) (k : Nat) : (s.release l t d).cluster k = s.cluster k := by obtain ⟨_, _, h⟩ := s.release_frame l t d; rw [h]; rfl
@[simp] theorem State.release_hq (s : State) (l t : Nat) (d : List Byte) (u q : Nat) : (s.release l t d).hq u q = s.hq u q := by obtain ⟨_, _, h⟩ := s.release_frame l t d; rw [h]; rfl
@[simp] theorem State.release_o (s : State) (l t : Nat) (d : List Byte) (k : Nat) : (s.release l t d).o k = s.o k := by obtain ⟨_, _, h⟩ := s.release_frame l t d; rw [h]; rfl
@[simp] theorem State.release_oBit (s : State) (l t : Nat) (d : List Byte) (k i : Nat) : (s.release l t d).oBit k i = s.oBit k i := by obtain ⟨_, _, h⟩ := s.release_frame l t d; rw [h]; rfl
@[simp] theorem State.release_d (s : State) (l t : Nat) (d : List Byte) (k : Nat) : (s.release l t d).d k = s.d k := by obtain ⟨_, _, h⟩ := s.release_frame l t d; rw [h]; rfl
@[simp] theorem State.release_byte (s : State) (l t : Nat) (d : List Byte) (a : Nat) : (s.release l t d).byte a = s.byte a := by obtain ⟨_, _, h⟩ := s.release_frame l t d; rw [h]; rfl
@[simp] theorem State.release_bytes (s : State) (l t : Nat) (d : List Byte) (a n : Nat) : (s.release l t d).bytes a n = s.bytes a n := by obtain ⟨_, _, h⟩ := s.release_frame l t d; rw [h]; rfl
@[simp] theorem State.release_now (s : State) (l t : Nat) (d : List Byte) : (s.release l t d).now = s.now := by obtain ⟨_, _, h⟩ := s.release_frame l t d; rw [h]; rfl
@[simp] theorem State.release_unitCycle (s : State) (l t : Nat) (d : List Byte) (u : Nat) : (s.release l t d).unitCycle u = s.unitCycle u := by obtain ⟨_, _, h⟩ := s.release_frame l t d; rw [h]; rfl
@[simp] theorem State.release_coreCycle (s : State) (l t : Nat) (d : List Byte) (c : Nat) : (s.release l t d).coreCycle c = s.coreCycle c := by obtain ⟨_, _, h⟩ := s.release_frame l t d; rw [h]; rfl
@[simp] theorem State.release_chan (s : State) (l t : Nat) (d : List Byte) (c : Nat) : (s.release l t d).chan c = s.chan c := by obtain ⟨_, _, h⟩ := s.release_frame l t d; rw [h]; rfl
@[simp] theorem State.release_lane (s : State) (l t : Nat) (d : List Byte) (i : Nat) : (s.release l t d).lane i = s.lane i := by obtain ⟨_, _, h⟩ := s.release_frame l t d; rw [h]; rfl
@[simp] theorem State.release_laneState (s : State) (l t : Nat) (d : List Byte) (i : Nat) : (s.release l t d).laneState i = s.laneState i := by obtain ⟨_, _, h⟩ := s.release_frame l t d; rw [h]; rfl
@[simp] theorem State.release_laneUp (s : State) (l t : Nat) (d : List Byte) (i : Nat) : (s.release l t d).laneUp i = s.laneUp i := by obtain ⟨_, _, h⟩ := s.release_frame l t d; rw [h]; rfl
@[simp] theorem State.release_rel (s : State) (l t : Nat) (d : List Byte) (l' c : Nat) : (s.release l t d).rel l' c = s.rel l' c := by obtain ⟨_, _, h⟩ := s.release_frame l t d; rw [h]; rfl
@[simp] theorem State.release_peer (s : State) (l t : Nat) (d : List Byte) (n : Nat) : (s.release l t d).peer n = s.peer n := by obtain ⟨_, _, h⟩ := s.release_frame l t d; rw [h]; rfl
@[simp] theorem State.release_master (s : State) (l t : Nat) (d : List Byte) (m : Nat) : (s.release l t d).master m = s.master m := by obtain ⟨_, _, h⟩ := s.release_frame l t d; rw [h]; rfl
@[simp] theorem State.release_adapt (s : State) (l t : Nat) (d : List Byte) (n : Nat) : (s.release l t d).adapt n = s.adapt n := by obtain ⟨_, _, h⟩ := s.release_frame l t d; rw [h]; rfl
@[simp] theorem State.release_camera (s : State) (l t : Nat) (d : List Byte) (k : Nat) : (s.release l t d).camera k = s.camera k := by obtain ⟨_, _, h⟩ := s.release_frame l t d; rw [h]; rfl
@[simp] theorem State.release_lineOf (s : State) (l t : Nat) (d : List Byte) (a : Nat) : (s.release l t d).lineOf a = s.lineOf a := by obtain ⟨_, _, h⟩ := s.release_frame l t d; rw [h]; rfl
@[simp] theorem State.release_rgn (s : State) (l t : Nat) (d : List Byte) (e w : Nat) : (s.release l t d).rgn e w = s.rgn e w := by obtain ⟨_, _, h⟩ := s.release_frame l t d; rw [h]; rfl
@[simp] theorem State.release_win (s : State) (l t : Nat) (d : List Byte) (n w : Nat) : (s.release l t d).win n w = s.win n w := by obtain ⟨_, _, h⟩ := s.release_frame l t d; rw [h]; rfl
@[simp] theorem State.transmit_pending (s : State) (l t : Nat) (d : List Byte) : (s.transmit l t d).pending = s.pending := by obtain ⟨_, _, _, _, h⟩ := s.transmit_frame l t d; rw [h]
@[simp] theorem State.transmit_free (s : State) (l t : Nat) (d : List Byte) : (s.transmit l t d).free = s.free := by obtain ⟨_, _, _, _, h⟩ := s.transmit_frame l t d; rw [h]
@[simp] theorem State.transmit_clk (s : State) (l t : Nat) (d : List Byte) : (s.transmit l t d).clk = s.clk := by obtain ⟨_, _, _, _, h⟩ := s.transmit_frame l t d; rw [h]
@[simp] theorem State.transmit_cores (s : State) (l t : Nat) (d : List Byte) : (s.transmit l t d).cores = s.cores := by obtain ⟨_, _, _, _, h⟩ := s.transmit_frame l t d; rw [h]
@[simp] theorem State.transmit_clusters (s : State) (l t : Nat) (d : List Byte) : (s.transmit l t d).clusters = s.clusters := by obtain ⟨_, _, _, _, h⟩ := s.transmit_frame l t d; rw [h]
@[simp] theorem State.transmit_hqs (s : State) (l t : Nat) (d : List Byte) : (s.transmit l t d).hqs = s.hqs := by obtain ⟨_, _, _, _, h⟩ := s.transmit_frame l t d; rw [h]
@[simp] theorem State.transmit_forwards (s : State) (l t : Nat) (d : List Byte) : (s.transmit l t d).forwards = s.forwards := by obtain ⟨_, _, _, _, h⟩ := s.transmit_frame l t d; rw [h]
@[simp] theorem State.transmit_credits (s : State) (l t : Nat) (d : List Byte) : (s.transmit l t d).credits = s.credits := by obtain ⟨_, _, _, _, h⟩ := s.transmit_frame l t d; rw [h]
@[simp] theorem State.transmit_ecc (s : State) (l t : Nat) (d : List Byte) : (s.transmit l t d).ecc = s.ecc := by obtain ⟨_, _, _, _, h⟩ := s.transmit_frame l t d; rw [h]
@[simp] theorem State.transmit_line (s : State) (l t : Nat) (d : List Byte) : (s.transmit l t d).line = s.line := by obtain ⟨_, _, _, _, h⟩ := s.transmit_frame l t d; rw [h]
@[simp] theorem State.transmit_omap (s : State) (l t : Nat) (d : List Byte) : (s.transmit l t d).omap = s.omap := by obtain ⟨_, _, _, _, h⟩ := s.transmit_frame l t d; rw [h]
@[simp] theorem State.transmit_wins (s : State) (l t : Nat) (d : List Byte) : (s.transmit l t d).wins = s.wins := by obtain ⟨_, _, _, _, h⟩ := s.transmit_frame l t d; rw [h]
@[simp] theorem State.transmit_closingWins (s : State) (l t : Nat) (d : List Byte) : (s.transmit l t d).closingWins = s.closingWins := by obtain ⟨_, _, _, _, h⟩ := s.transmit_frame l t d; rw [h]
@[simp] theorem State.transmit_rgns (s : State) (l t : Nat) (d : List Byte) : (s.transmit l t d).rgns = s.rgns := by obtain ⟨_, _, _, _, h⟩ := s.transmit_frame l t d; rw [h]
@[simp] theorem State.transmit_rgnNext (s : State) (l t : Nat) (d : List Byte) : (s.transmit l t d).rgnNext = s.rgnNext := by obtain ⟨_, _, _, _, h⟩ := s.transmit_frame l t d; rw [h]
@[simp] theorem State.transmit_holders (s : State) (l t : Nat) (d : List Byte) : (s.transmit l t d).holders = s.holders := by obtain ⟨_, _, _, _, h⟩ := s.transmit_frame l t d; rw [h]
@[simp] theorem State.transmit_retiredPages (s : State) (l t : Nat) (d : List Byte) : (s.transmit l t d).retiredPages = s.retiredPages := by obtain ⟨_, _, _, _, h⟩ := s.transmit_frame l t d; rw [h]
@[simp] theorem State.transmit_ctxTab (s : State) (l t : Nat) (d : List Byte) : (s.transmit l t d).ctxTab = s.ctxTab := by obtain ⟨_, _, _, _, h⟩ := s.transmit_frame l t d; rw [h]
@[simp] theorem State.transmit_dom (s : State) (l t : Nat) (d : List Byte) : (s.transmit l t d).dom = s.dom := by obtain ⟨_, _, _, _, h⟩ := s.transmit_frame l t d; rw [h]
@[simp] theorem State.transmit_obs (s : State) (l t : Nat) (d : List Byte) : (s.transmit l t d).obs = s.obs := by obtain ⟨_, _, _, _, h⟩ := s.transmit_frame l t d; rw [h]
@[simp] theorem State.transmit_chans (s : State) (l t : Nat) (d : List Byte) : (s.transmit l t d).chans = s.chans := by obtain ⟨_, _, _, _, h⟩ := s.transmit_frame l t d; rw [h]
@[simp] theorem State.transmit_reply (s : State) (l t : Nat) (d : List Byte) : (s.transmit l t d).reply = s.reply := by obtain ⟨_, _, _, _, h⟩ := s.transmit_frame l t d; rw [h]
@[simp] theorem State.transmit_loop (s : State) (l t : Nat) (d : List Byte) : (s.transmit l t d).loop = s.loop := by obtain ⟨_, _, _, _, h⟩ := s.transmit_frame l t d; rw [h]
@[simp] theorem State.transmit_sources (s : State) (l t : Nat) (d : List Byte) : (s.transmit l t d).sources = s.sources := by obtain ⟨_, _, _, _, h⟩ := s.transmit_frame l t d; rw [h]
@[simp] theorem State.transmit_boot (s : State) (l t : Nat) (d : List Byte) : (s.transmit l t d).boot = s.boot := by obtain ⟨_, _, _, _, h⟩ := s.transmit_frame l t d; rw [h]
@[simp] theorem State.transmit_lanes (s : State) (l t : Nat) (d : List Byte) : (s.transmit l t d).lanes = s.lanes := by obtain ⟨_, _, _, _, h⟩ := s.transmit_frame l t d; rw [h]
@[simp] theorem State.transmit_rels (s : State) (l t : Nat) (d : List Byte) : (s.transmit l t d).rels = s.rels := by obtain ⟨_, _, _, _, h⟩ := s.transmit_frame l t d; rw [h]
@[simp] theorem State.transmit_cyclic (s : State) (l t : Nat) (d : List Byte) : (s.transmit l t d).cyclic = s.cyclic := by obtain ⟨_, _, _, _, h⟩ := s.transmit_frame l t d; rw [h]
@[simp] theorem State.transmit_peers (s : State) (l t : Nat) (d : List Byte) : (s.transmit l t d).peers = s.peers := by obtain ⟨_, _, _, _, h⟩ := s.transmit_frame l t d; rw [h]
@[simp] theorem State.transmit_writes (s : State) (l t : Nat) (d : List Byte) : (s.transmit l t d).writes = s.writes := by obtain ⟨_, _, _, _, h⟩ := s.transmit_frame l t d; rw [h]
@[simp] theorem State.transmit_inWrites (s : State) (l t : Nat) (d : List Byte) : (s.transmit l t d).inWrites = s.inWrites := by obtain ⟨_, _, _, _, h⟩ := s.transmit_frame l t d; rw [h]
@[simp] theorem State.transmit_attn (s : State) (l t : Nat) (d : List Byte) : (s.transmit l t d).attn = s.attn := by obtain ⟨_, _, _, _, h⟩ := s.transmit_frame l t d; rw [h]
@[simp] theorem State.transmit_reqs (s : State) (l t : Nat) (d : List Byte) : (s.transmit l t d).reqs = s.reqs := by obtain ⟨_, _, _, _, h⟩ := s.transmit_frame l t d; rw [h]
@[simp] theorem State.transmit_steps (s : State) (l t : Nat) (d : List Byte) : (s.transmit l t d).steps = s.steps := by obtain ⟨_, _, _, _, h⟩ := s.transmit_frame l t d; rw [h]
@[simp] theorem State.transmit_stepLog (s : State) (l t : Nat) (d : List Byte) : (s.transmit l t d).stepLog = s.stepLog := by obtain ⟨_, _, _, _, h⟩ := s.transmit_frame l t d; rw [h]
@[simp] theorem State.transmit_masters (s : State) (l t : Nat) (d : List Byte) : (s.transmit l t d).masters = s.masters := by obtain ⟨_, _, _, _, h⟩ := s.transmit_frame l t d; rw [h]
@[simp] theorem State.transmit_transfers (s : State) (l t : Nat) (d : List Byte) : (s.transmit l t d).transfers = s.transfers := by obtain ⟨_, _, _, _, h⟩ := s.transmit_frame l t d; rw [h]
@[simp] theorem State.transmit_aborted (s : State) (l t : Nat) (d : List Byte) : (s.transmit l t d).aborted = s.aborted := by obtain ⟨_, _, _, _, h⟩ := s.transmit_frame l t d; rw [h]
@[simp] theorem State.transmit_maps (s : State) (l t : Nat) (d : List Byte) : (s.transmit l t d).maps = s.maps := by obtain ⟨_, _, _, _, h⟩ := s.transmit_frame l t d; rw [h]
@[simp] theorem State.transmit_invocations (s : State) (l t : Nat) (d : List Byte) : (s.transmit l t d).invocations = s.invocations := by obtain ⟨_, _, _, _, h⟩ := s.transmit_frame l t d; rw [h]
@[simp] theorem State.transmit_saved (s : State) (l t : Nat) (d : List Byte) : (s.transmit l t d).saved = s.saved := by obtain ⟨_, _, _, _, h⟩ := s.transmit_frame l t d; rw [h]
@[simp] theorem State.transmit_stoppingCtx (s : State) (l t : Nat) (d : List Byte) : (s.transmit l t d).stoppingCtx = s.stoppingCtx := by obtain ⟨_, _, _, _, h⟩ := s.transmit_frame l t d; rw [h]
@[simp] theorem State.transmit_pins (s : State) (l t : Nat) (d : List Byte) : (s.transmit l t d).pins = s.pins := by obtain ⟨_, _, _, _, h⟩ := s.transmit_frame l t d; rw [h]
@[simp] theorem State.transmit_fw (s : State) (l t : Nat) (d : List Byte) : (s.transmit l t d).fw = s.fw := by obtain ⟨_, _, _, _, h⟩ := s.transmit_frame l t d; rw [h]
@[simp] theorem State.transmit_fuses (s : State) (l t : Nat) (d : List Byte) : (s.transmit l t d).fuses = s.fuses := by obtain ⟨_, _, _, _, h⟩ := s.transmit_frame l t d; rw [h]
@[simp] theorem State.transmit_power (s : State) (l t : Nat) (d : List Byte) : (s.transmit l t d).power = s.power := by obtain ⟨_, _, _, _, h⟩ := s.transmit_frame l t d; rw [h]
@[simp] theorem State.transmit_flash (s : State) (l t : Nat) (d : List Byte) : (s.transmit l t d).flash = s.flash := by obtain ⟨_, _, _, _, h⟩ := s.transmit_frame l t d; rw [h]
@[simp] theorem State.transmit_repairs (s : State) (l t : Nat) (d : List Byte) : (s.transmit l t d).repairs = s.repairs := by obtain ⟨_, _, _, _, h⟩ := s.transmit_frame l t d; rw [h]
@[simp] theorem State.transmit_adapts (s : State) (l t : Nat) (d : List Byte) : (s.transmit l t d).adapts = s.adapts := by obtain ⟨_, _, _, _, h⟩ := s.transmit_frame l t d; rw [h]
@[simp] theorem State.transmit_submissions (s : State) (l t : Nat) (d : List Byte) : (s.transmit l t d).submissions = s.submissions := by obtain ⟨_, _, _, _, h⟩ := s.transmit_frame l t d; rw [h]
@[simp] theorem State.transmit_cameras (s : State) (l t : Nat) (d : List Byte) : (s.transmit l t d).cameras = s.cameras := by obtain ⟨_, _, _, _, h⟩ := s.transmit_frame l t d; rw [h]
@[simp] theorem State.transmit_tokenizer (s : State) (l t : Nat) (d : List Byte) : (s.transmit l t d).tokenizer = s.tokenizer := by obtain ⟨_, _, _, _, h⟩ := s.transmit_frame l t d; rw [h]
@[simp] theorem State.transmit_responses (s : State) (l t : Nat) (d : List Byte) : (s.transmit l t d).responses = s.responses := by obtain ⟨_, _, _, _, h⟩ := s.transmit_frame l t d; rw [h]
@[simp] theorem State.transmit_owned (s : State) (l t : Nat) (d : List Byte) : (s.transmit l t d).owned = s.owned := by obtain ⟨_, _, _, _, h⟩ := s.transmit_frame l t d; rw [h]
@[simp] theorem State.transmit_core (s : State) (l t : Nat) (d : List Byte) (c : Nat) : (s.transmit l t d).core c = s.core c := by obtain ⟨_, _, _, _, h⟩ := s.transmit_frame l t d; rw [h]; rfl
@[simp] theorem State.transmit_engine (s : State) (l t : Nat) (d : List Byte) (c e : Nat) : (s.transmit l t d).engine c e = s.engine c e := by obtain ⟨_, _, _, _, h⟩ := s.transmit_frame l t d; rw [h]; rfl
@[simp] theorem State.transmit_cluster (s : State) (l t : Nat) (d : List Byte) (k : Nat) : (s.transmit l t d).cluster k = s.cluster k := by obtain ⟨_, _, _, _, h⟩ := s.transmit_frame l t d; rw [h]; rfl
@[simp] theorem State.transmit_hq (s : State) (l t : Nat) (d : List Byte) (u q : Nat) : (s.transmit l t d).hq u q = s.hq u q := by obtain ⟨_, _, _, _, h⟩ := s.transmit_frame l t d; rw [h]; rfl
@[simp] theorem State.transmit_d (s : State) (l t : Nat) (d : List Byte) (k : Nat) : (s.transmit l t d).d k = s.d k := by obtain ⟨_, _, _, _, h⟩ := s.transmit_frame l t d; rw [h]; rfl
@[simp] theorem State.transmit_byte (s : State) (l t : Nat) (d : List Byte) (a : Nat) : (s.transmit l t d).byte a = s.byte a := by obtain ⟨_, _, _, _, h⟩ := s.transmit_frame l t d; rw [h]; rfl
@[simp] theorem State.transmit_bytes (s : State) (l t : Nat) (d : List Byte) (a n : Nat) : (s.transmit l t d).bytes a n = s.bytes a n := by obtain ⟨_, _, _, _, h⟩ := s.transmit_frame l t d; rw [h]; rfl
@[simp] theorem State.transmit_now (s : State) (l t : Nat) (d : List Byte) : (s.transmit l t d).now = s.now := by obtain ⟨_, _, _, _, h⟩ := s.transmit_frame l t d; rw [h]; rfl
@[simp] theorem State.transmit_unitCycle (s : State) (l t : Nat) (d : List Byte) (u : Nat) : (s.transmit l t d).unitCycle u = s.unitCycle u := by obtain ⟨_, _, _, _, h⟩ := s.transmit_frame l t d; rw [h]; rfl
@[simp] theorem State.transmit_coreCycle (s : State) (l t : Nat) (d : List Byte) (c : Nat) : (s.transmit l t d).coreCycle c = s.coreCycle c := by obtain ⟨_, _, _, _, h⟩ := s.transmit_frame l t d; rw [h]; rfl
@[simp] theorem State.transmit_chan (s : State) (l t : Nat) (d : List Byte) (c : Nat) : (s.transmit l t d).chan c = s.chan c := by obtain ⟨_, _, _, _, h⟩ := s.transmit_frame l t d; rw [h]; rfl
@[simp] theorem State.transmit_lane (s : State) (l t : Nat) (d : List Byte) (i : Nat) : (s.transmit l t d).lane i = s.lane i := by obtain ⟨_, _, _, _, h⟩ := s.transmit_frame l t d; rw [h]; rfl
@[simp] theorem State.transmit_rel (s : State) (l t : Nat) (d : List Byte) (l' c : Nat) : (s.transmit l t d).rel l' c = s.rel l' c := by obtain ⟨_, _, _, _, h⟩ := s.transmit_frame l t d; rw [h]; rfl
@[simp] theorem State.transmit_peer (s : State) (l t : Nat) (d : List Byte) (n : Nat) : (s.transmit l t d).peer n = s.peer n := by obtain ⟨_, _, _, _, h⟩ := s.transmit_frame l t d; rw [h]; rfl
@[simp] theorem State.transmit_master (s : State) (l t : Nat) (d : List Byte) (m : Nat) : (s.transmit l t d).master m = s.master m := by obtain ⟨_, _, _, _, h⟩ := s.transmit_frame l t d; rw [h]; rfl
@[simp] theorem State.transmit_adapt (s : State) (l t : Nat) (d : List Byte) (n : Nat) : (s.transmit l t d).adapt n = s.adapt n := by obtain ⟨_, _, _, _, h⟩ := s.transmit_frame l t d; rw [h]; rfl
@[simp] theorem State.transmit_camera (s : State) (l t : Nat) (d : List Byte) (k : Nat) : (s.transmit l t d).camera k = s.camera k := by obtain ⟨_, _, _, _, h⟩ := s.transmit_frame l t d; rw [h]; rfl
@[simp] theorem State.transmit_lineOf (s : State) (l t : Nat) (d : List Byte) (a : Nat) : (s.transmit l t d).lineOf a = s.lineOf a := by obtain ⟨_, _, _, _, h⟩ := s.transmit_frame l t d; rw [h]; rfl
@[simp] theorem State.transmit_rgn (s : State) (l t : Nat) (d : List Byte) (e w : Nat) : (s.transmit l t d).rgn e w = s.rgn e w := by obtain ⟨_, _, _, _, h⟩ := s.transmit_frame l t d; rw [h]; rfl
@[simp] theorem State.transmit_win (s : State) (l t : Nat) (d : List Byte) (n w : Nat) : (s.transmit l t d).win n w = s.win n w := by obtain ⟨_, _, _, _, h⟩ := s.transmit_frame l t d; rw [h]; rfl
@[simp] theorem State.sendRel_pending (s : State) (l c : Nat) (f : Frame) : (s.sendRel l c f).pending = s.pending := by obtain ⟨_, _, _, h⟩ := s.sendRel_frame l c f; rw [h]
@[simp] theorem State.sendRel_free (s : State) (l c : Nat) (f : Frame) : (s.sendRel l c f).free = s.free := by obtain ⟨_, _, _, h⟩ := s.sendRel_frame l c f; rw [h]
@[simp] theorem State.sendRel_clk (s : State) (l c : Nat) (f : Frame) : (s.sendRel l c f).clk = s.clk := by obtain ⟨_, _, _, h⟩ := s.sendRel_frame l c f; rw [h]
@[simp] theorem State.sendRel_cores (s : State) (l c : Nat) (f : Frame) : (s.sendRel l c f).cores = s.cores := by obtain ⟨_, _, _, h⟩ := s.sendRel_frame l c f; rw [h]
@[simp] theorem State.sendRel_clusters (s : State) (l c : Nat) (f : Frame) : (s.sendRel l c f).clusters = s.clusters := by obtain ⟨_, _, _, h⟩ := s.sendRel_frame l c f; rw [h]
@[simp] theorem State.sendRel_hqs (s : State) (l c : Nat) (f : Frame) : (s.sendRel l c f).hqs = s.hqs := by obtain ⟨_, _, _, h⟩ := s.sendRel_frame l c f; rw [h]
@[simp] theorem State.sendRel_forwards (s : State) (l c : Nat) (f : Frame) : (s.sendRel l c f).forwards = s.forwards := by obtain ⟨_, _, _, h⟩ := s.sendRel_frame l c f; rw [h]
@[simp] theorem State.sendRel_credits (s : State) (l c : Nat) (f : Frame) : (s.sendRel l c f).credits = s.credits := by obtain ⟨_, _, _, h⟩ := s.sendRel_frame l c f; rw [h]
@[simp] theorem State.sendRel_ecc (s : State) (l c : Nat) (f : Frame) : (s.sendRel l c f).ecc = s.ecc := by obtain ⟨_, _, _, h⟩ := s.sendRel_frame l c f; rw [h]
@[simp] theorem State.sendRel_line (s : State) (l c : Nat) (f : Frame) : (s.sendRel l c f).line = s.line := by obtain ⟨_, _, _, h⟩ := s.sendRel_frame l c f; rw [h]
@[simp] theorem State.sendRel_omap (s : State) (l c : Nat) (f : Frame) : (s.sendRel l c f).omap = s.omap := by obtain ⟨_, _, _, h⟩ := s.sendRel_frame l c f; rw [h]
@[simp] theorem State.sendRel_wins (s : State) (l c : Nat) (f : Frame) : (s.sendRel l c f).wins = s.wins := by obtain ⟨_, _, _, h⟩ := s.sendRel_frame l c f; rw [h]
@[simp] theorem State.sendRel_closingWins (s : State) (l c : Nat) (f : Frame) : (s.sendRel l c f).closingWins = s.closingWins := by obtain ⟨_, _, _, h⟩ := s.sendRel_frame l c f; rw [h]
@[simp] theorem State.sendRel_rgns (s : State) (l c : Nat) (f : Frame) : (s.sendRel l c f).rgns = s.rgns := by obtain ⟨_, _, _, h⟩ := s.sendRel_frame l c f; rw [h]
@[simp] theorem State.sendRel_rgnNext (s : State) (l c : Nat) (f : Frame) : (s.sendRel l c f).rgnNext = s.rgnNext := by obtain ⟨_, _, _, h⟩ := s.sendRel_frame l c f; rw [h]
@[simp] theorem State.sendRel_holders (s : State) (l c : Nat) (f : Frame) : (s.sendRel l c f).holders = s.holders := by obtain ⟨_, _, _, h⟩ := s.sendRel_frame l c f; rw [h]
@[simp] theorem State.sendRel_retiredPages (s : State) (l c : Nat) (f : Frame) : (s.sendRel l c f).retiredPages = s.retiredPages := by obtain ⟨_, _, _, h⟩ := s.sendRel_frame l c f; rw [h]
@[simp] theorem State.sendRel_ctxTab (s : State) (l c : Nat) (f : Frame) : (s.sendRel l c f).ctxTab = s.ctxTab := by obtain ⟨_, _, _, h⟩ := s.sendRel_frame l c f; rw [h]
@[simp] theorem State.sendRel_dom (s : State) (l c : Nat) (f : Frame) : (s.sendRel l c f).dom = s.dom := by obtain ⟨_, _, _, h⟩ := s.sendRel_frame l c f; rw [h]
@[simp] theorem State.sendRel_obs (s : State) (l c : Nat) (f : Frame) : (s.sendRel l c f).obs = s.obs := by obtain ⟨_, _, _, h⟩ := s.sendRel_frame l c f; rw [h]
@[simp] theorem State.sendRel_chans (s : State) (l c : Nat) (f : Frame) : (s.sendRel l c f).chans = s.chans := by obtain ⟨_, _, _, h⟩ := s.sendRel_frame l c f; rw [h]
@[simp] theorem State.sendRel_reply (s : State) (l c : Nat) (f : Frame) : (s.sendRel l c f).reply = s.reply := by obtain ⟨_, _, _, h⟩ := s.sendRel_frame l c f; rw [h]
@[simp] theorem State.sendRel_loop (s : State) (l c : Nat) (f : Frame) : (s.sendRel l c f).loop = s.loop := by obtain ⟨_, _, _, h⟩ := s.sendRel_frame l c f; rw [h]
@[simp] theorem State.sendRel_sources (s : State) (l c : Nat) (f : Frame) : (s.sendRel l c f).sources = s.sources := by obtain ⟨_, _, _, h⟩ := s.sendRel_frame l c f; rw [h]
@[simp] theorem State.sendRel_boot (s : State) (l c : Nat) (f : Frame) : (s.sendRel l c f).boot = s.boot := by obtain ⟨_, _, _, h⟩ := s.sendRel_frame l c f; rw [h]
@[simp] theorem State.sendRel_lanes (s : State) (l c : Nat) (f : Frame) : (s.sendRel l c f).lanes = s.lanes := by obtain ⟨_, _, _, h⟩ := s.sendRel_frame l c f; rw [h]
@[simp] theorem State.sendRel_sent (s : State) (l c : Nat) (f : Frame) : (s.sendRel l c f).sent = s.sent := by obtain ⟨_, _, _, h⟩ := s.sendRel_frame l c f; rw [h]
@[simp] theorem State.sendRel_cyclic (s : State) (l c : Nat) (f : Frame) : (s.sendRel l c f).cyclic = s.cyclic := by obtain ⟨_, _, _, h⟩ := s.sendRel_frame l c f; rw [h]
@[simp] theorem State.sendRel_peers (s : State) (l c : Nat) (f : Frame) : (s.sendRel l c f).peers = s.peers := by obtain ⟨_, _, _, h⟩ := s.sendRel_frame l c f; rw [h]
@[simp] theorem State.sendRel_writes (s : State) (l c : Nat) (f : Frame) : (s.sendRel l c f).writes = s.writes := by obtain ⟨_, _, _, h⟩ := s.sendRel_frame l c f; rw [h]
@[simp] theorem State.sendRel_inWrites (s : State) (l c : Nat) (f : Frame) : (s.sendRel l c f).inWrites = s.inWrites := by obtain ⟨_, _, _, h⟩ := s.sendRel_frame l c f; rw [h]
@[simp] theorem State.sendRel_attn (s : State) (l c : Nat) (f : Frame) : (s.sendRel l c f).attn = s.attn := by obtain ⟨_, _, _, h⟩ := s.sendRel_frame l c f; rw [h]
@[simp] theorem State.sendRel_reqs (s : State) (l c : Nat) (f : Frame) : (s.sendRel l c f).reqs = s.reqs := by obtain ⟨_, _, _, h⟩ := s.sendRel_frame l c f; rw [h]
@[simp] theorem State.sendRel_steps (s : State) (l c : Nat) (f : Frame) : (s.sendRel l c f).steps = s.steps := by obtain ⟨_, _, _, h⟩ := s.sendRel_frame l c f; rw [h]
@[simp] theorem State.sendRel_stepLog (s : State) (l c : Nat) (f : Frame) : (s.sendRel l c f).stepLog = s.stepLog := by obtain ⟨_, _, _, h⟩ := s.sendRel_frame l c f; rw [h]
@[simp] theorem State.sendRel_masters (s : State) (l c : Nat) (f : Frame) : (s.sendRel l c f).masters = s.masters := by obtain ⟨_, _, _, h⟩ := s.sendRel_frame l c f; rw [h]
@[simp] theorem State.sendRel_transfers (s : State) (l c : Nat) (f : Frame) : (s.sendRel l c f).transfers = s.transfers := by obtain ⟨_, _, _, h⟩ := s.sendRel_frame l c f; rw [h]
@[simp] theorem State.sendRel_aborted (s : State) (l c : Nat) (f : Frame) : (s.sendRel l c f).aborted = s.aborted := by obtain ⟨_, _, _, h⟩ := s.sendRel_frame l c f; rw [h]
@[simp] theorem State.sendRel_maps (s : State) (l c : Nat) (f : Frame) : (s.sendRel l c f).maps = s.maps := by obtain ⟨_, _, _, h⟩ := s.sendRel_frame l c f; rw [h]
@[simp] theorem State.sendRel_invocations (s : State) (l c : Nat) (f : Frame) : (s.sendRel l c f).invocations = s.invocations := by obtain ⟨_, _, _, h⟩ := s.sendRel_frame l c f; rw [h]
@[simp] theorem State.sendRel_saved (s : State) (l c : Nat) (f : Frame) : (s.sendRel l c f).saved = s.saved := by obtain ⟨_, _, _, h⟩ := s.sendRel_frame l c f; rw [h]
@[simp] theorem State.sendRel_stoppingCtx (s : State) (l c : Nat) (f : Frame) : (s.sendRel l c f).stoppingCtx = s.stoppingCtx := by obtain ⟨_, _, _, h⟩ := s.sendRel_frame l c f; rw [h]
@[simp] theorem State.sendRel_pins (s : State) (l c : Nat) (f : Frame) : (s.sendRel l c f).pins = s.pins := by obtain ⟨_, _, _, h⟩ := s.sendRel_frame l c f; rw [h]
@[simp] theorem State.sendRel_fw (s : State) (l c : Nat) (f : Frame) : (s.sendRel l c f).fw = s.fw := by obtain ⟨_, _, _, h⟩ := s.sendRel_frame l c f; rw [h]
@[simp] theorem State.sendRel_fuses (s : State) (l c : Nat) (f : Frame) : (s.sendRel l c f).fuses = s.fuses := by obtain ⟨_, _, _, h⟩ := s.sendRel_frame l c f; rw [h]
@[simp] theorem State.sendRel_power (s : State) (l c : Nat) (f : Frame) : (s.sendRel l c f).power = s.power := by obtain ⟨_, _, _, h⟩ := s.sendRel_frame l c f; rw [h]
@[simp] theorem State.sendRel_flash (s : State) (l c : Nat) (f : Frame) : (s.sendRel l c f).flash = s.flash := by obtain ⟨_, _, _, h⟩ := s.sendRel_frame l c f; rw [h]
@[simp] theorem State.sendRel_repairs (s : State) (l c : Nat) (f : Frame) : (s.sendRel l c f).repairs = s.repairs := by obtain ⟨_, _, _, h⟩ := s.sendRel_frame l c f; rw [h]
@[simp] theorem State.sendRel_adapts (s : State) (l c : Nat) (f : Frame) : (s.sendRel l c f).adapts = s.adapts := by obtain ⟨_, _, _, h⟩ := s.sendRel_frame l c f; rw [h]
@[simp] theorem State.sendRel_submissions (s : State) (l c : Nat) (f : Frame) : (s.sendRel l c f).submissions = s.submissions := by obtain ⟨_, _, _, h⟩ := s.sendRel_frame l c f; rw [h]
@[simp] theorem State.sendRel_cameras (s : State) (l c : Nat) (f : Frame) : (s.sendRel l c f).cameras = s.cameras := by obtain ⟨_, _, _, h⟩ := s.sendRel_frame l c f; rw [h]
@[simp] theorem State.sendRel_tokenizer (s : State) (l c : Nat) (f : Frame) : (s.sendRel l c f).tokenizer = s.tokenizer := by obtain ⟨_, _, _, h⟩ := s.sendRel_frame l c f; rw [h]
@[simp] theorem State.sendRel_responses (s : State) (l c : Nat) (f : Frame) : (s.sendRel l c f).responses = s.responses := by obtain ⟨_, _, _, h⟩ := s.sendRel_frame l c f; rw [h]
@[simp] theorem State.sendRel_owned (s : State) (l c : Nat) (f : Frame) : (s.sendRel l c f).owned = s.owned := by obtain ⟨_, _, _, h⟩ := s.sendRel_frame l c f; rw [h]
@[simp] theorem State.sendRel_core (s : State) (l c : Nat) (f : Frame) (c' : Nat) : (s.sendRel l c f).core c' = s.core c' := by obtain ⟨_, _, _, h⟩ := s.sendRel_frame l c f; rw [h]; rfl
@[simp] theorem State.sendRel_engine (s : State) (l c : Nat) (f : Frame) (c' e : Nat) : (s.sendRel l c f).engine c' e = s.engine c' e := by obtain ⟨_, _, _, h⟩ := s.sendRel_frame l c f; rw [h]; rfl
@[simp] theorem State.sendRel_cluster (s : State) (l c : Nat) (f : Frame) (k : Nat) : (s.sendRel l c f).cluster k = s.cluster k := by obtain ⟨_, _, _, h⟩ := s.sendRel_frame l c f; rw [h]; rfl
@[simp] theorem State.sendRel_hq (s : State) (l c : Nat) (f : Frame) (u q : Nat) : (s.sendRel l c f).hq u q = s.hq u q := by obtain ⟨_, _, _, h⟩ := s.sendRel_frame l c f; rw [h]; rfl
@[simp] theorem State.sendRel_d (s : State) (l c : Nat) (f : Frame) (k : Nat) : (s.sendRel l c f).d k = s.d k := by obtain ⟨_, _, _, h⟩ := s.sendRel_frame l c f; rw [h]; rfl
@[simp] theorem State.sendRel_byte (s : State) (l c : Nat) (f : Frame) (a : Nat) : (s.sendRel l c f).byte a = s.byte a := by obtain ⟨_, _, _, h⟩ := s.sendRel_frame l c f; rw [h]; rfl
@[simp] theorem State.sendRel_bytes (s : State) (l c : Nat) (f : Frame) (a n : Nat) : (s.sendRel l c f).bytes a n = s.bytes a n := by obtain ⟨_, _, _, h⟩ := s.sendRel_frame l c f; rw [h]; rfl
@[simp] theorem State.sendRel_now (s : State) (l c : Nat) (f : Frame) : (s.sendRel l c f).now = s.now := by obtain ⟨_, _, _, h⟩ := s.sendRel_frame l c f; rw [h]; rfl
@[simp] theorem State.sendRel_unitCycle (s : State) (l c : Nat) (f : Frame) (u : Nat) : (s.sendRel l c f).unitCycle u = s.unitCycle u := by obtain ⟨_, _, _, h⟩ := s.sendRel_frame l c f; rw [h]; rfl
@[simp] theorem State.sendRel_coreCycle (s : State) (l c : Nat) (f : Frame) (c' : Nat) : (s.sendRel l c f).coreCycle c' = s.coreCycle c' := by obtain ⟨_, _, _, h⟩ := s.sendRel_frame l c f; rw [h]; rfl
@[simp] theorem State.sendRel_chan (s : State) (l c : Nat) (f : Frame) (c' : Nat) : (s.sendRel l c f).chan c' = s.chan c' := by obtain ⟨_, _, _, h⟩ := s.sendRel_frame l c f; rw [h]; rfl
@[simp] theorem State.sendRel_lane (s : State) (l c : Nat) (f : Frame) (i : Nat) : (s.sendRel l c f).lane i = s.lane i := by obtain ⟨_, _, _, h⟩ := s.sendRel_frame l c f; rw [h]; rfl
@[simp] theorem State.sendRel_peer (s : State) (l c : Nat) (f : Frame) (n : Nat) : (s.sendRel l c f).peer n = s.peer n := by obtain ⟨_, _, _, h⟩ := s.sendRel_frame l c f; rw [h]; rfl
@[simp] theorem State.sendRel_master (s : State) (l c : Nat) (f : Frame) (m : Nat) : (s.sendRel l c f).master m = s.master m := by obtain ⟨_, _, _, h⟩ := s.sendRel_frame l c f; rw [h]; rfl
@[simp] theorem State.sendRel_adapt (s : State) (l c : Nat) (f : Frame) (n : Nat) : (s.sendRel l c f).adapt n = s.adapt n := by obtain ⟨_, _, _, h⟩ := s.sendRel_frame l c f; rw [h]; rfl
@[simp] theorem State.sendRel_camera (s : State) (l c : Nat) (f : Frame) (k : Nat) : (s.sendRel l c f).camera k = s.camera k := by obtain ⟨_, _, _, h⟩ := s.sendRel_frame l c f; rw [h]; rfl
@[simp] theorem State.sendRel_lineOf (s : State) (l c : Nat) (f : Frame) (a : Nat) : (s.sendRel l c f).lineOf a = s.lineOf a := by obtain ⟨_, _, _, h⟩ := s.sendRel_frame l c f; rw [h]; rfl
@[simp] theorem State.sendRel_rgn (s : State) (l c : Nat) (f : Frame) (e w : Nat) : (s.sendRel l c f).rgn e w = s.rgn e w := by obtain ⟨_, _, _, h⟩ := s.sendRel_frame l c f; rw [h]; rfl
@[simp] theorem State.sendRel_win (s : State) (l c : Nat) (f : Frame) (n w : Nat) : (s.sendRel l c f).win n w = s.win n w := by obtain ⟨_, _, _, h⟩ := s.sendRel_frame l c f; rw [h]; rfl
@[simp] theorem State.ackRel_pending (s : State) (l c n : Nat) : (s.ackRel l c n).pending = s.pending := by obtain ⟨_, h⟩ := s.ackRel_frame l c n; rw [h]
@[simp] theorem State.ackRel_free (s : State) (l c n : Nat) : (s.ackRel l c n).free = s.free := by obtain ⟨_, h⟩ := s.ackRel_frame l c n; rw [h]
@[simp] theorem State.ackRel_clk (s : State) (l c n : Nat) : (s.ackRel l c n).clk = s.clk := by obtain ⟨_, h⟩ := s.ackRel_frame l c n; rw [h]
@[simp] theorem State.ackRel_cores (s : State) (l c n : Nat) : (s.ackRel l c n).cores = s.cores := by obtain ⟨_, h⟩ := s.ackRel_frame l c n; rw [h]
@[simp] theorem State.ackRel_clusters (s : State) (l c n : Nat) : (s.ackRel l c n).clusters = s.clusters := by obtain ⟨_, h⟩ := s.ackRel_frame l c n; rw [h]
@[simp] theorem State.ackRel_hqs (s : State) (l c n : Nat) : (s.ackRel l c n).hqs = s.hqs := by obtain ⟨_, h⟩ := s.ackRel_frame l c n; rw [h]
@[simp] theorem State.ackRel_forwards (s : State) (l c n : Nat) : (s.ackRel l c n).forwards = s.forwards := by obtain ⟨_, h⟩ := s.ackRel_frame l c n; rw [h]
@[simp] theorem State.ackRel_credits (s : State) (l c n : Nat) : (s.ackRel l c n).credits = s.credits := by obtain ⟨_, h⟩ := s.ackRel_frame l c n; rw [h]
@[simp] theorem State.ackRel_ecc (s : State) (l c n : Nat) : (s.ackRel l c n).ecc = s.ecc := by obtain ⟨_, h⟩ := s.ackRel_frame l c n; rw [h]
@[simp] theorem State.ackRel_line (s : State) (l c n : Nat) : (s.ackRel l c n).line = s.line := by obtain ⟨_, h⟩ := s.ackRel_frame l c n; rw [h]
@[simp] theorem State.ackRel_omap (s : State) (l c n : Nat) : (s.ackRel l c n).omap = s.omap := by obtain ⟨_, h⟩ := s.ackRel_frame l c n; rw [h]
@[simp] theorem State.ackRel_wins (s : State) (l c n : Nat) : (s.ackRel l c n).wins = s.wins := by obtain ⟨_, h⟩ := s.ackRel_frame l c n; rw [h]
@[simp] theorem State.ackRel_closingWins (s : State) (l c n : Nat) : (s.ackRel l c n).closingWins = s.closingWins := by obtain ⟨_, h⟩ := s.ackRel_frame l c n; rw [h]
@[simp] theorem State.ackRel_rgns (s : State) (l c n : Nat) : (s.ackRel l c n).rgns = s.rgns := by obtain ⟨_, h⟩ := s.ackRel_frame l c n; rw [h]
@[simp] theorem State.ackRel_rgnNext (s : State) (l c n : Nat) : (s.ackRel l c n).rgnNext = s.rgnNext := by obtain ⟨_, h⟩ := s.ackRel_frame l c n; rw [h]
@[simp] theorem State.ackRel_holders (s : State) (l c n : Nat) : (s.ackRel l c n).holders = s.holders := by obtain ⟨_, h⟩ := s.ackRel_frame l c n; rw [h]
@[simp] theorem State.ackRel_retiredPages (s : State) (l c n : Nat) : (s.ackRel l c n).retiredPages = s.retiredPages := by obtain ⟨_, h⟩ := s.ackRel_frame l c n; rw [h]
@[simp] theorem State.ackRel_ctxTab (s : State) (l c n : Nat) : (s.ackRel l c n).ctxTab = s.ctxTab := by obtain ⟨_, h⟩ := s.ackRel_frame l c n; rw [h]
@[simp] theorem State.ackRel_obj (s : State) (l c n : Nat) : (s.ackRel l c n).obj = s.obj := by obtain ⟨_, h⟩ := s.ackRel_frame l c n; rw [h]
@[simp] theorem State.ackRel_dom (s : State) (l c n : Nat) : (s.ackRel l c n).dom = s.dom := by obtain ⟨_, h⟩ := s.ackRel_frame l c n; rw [h]
@[simp] theorem State.ackRel_obs (s : State) (l c n : Nat) : (s.ackRel l c n).obs = s.obs := by obtain ⟨_, h⟩ := s.ackRel_frame l c n; rw [h]
@[simp] theorem State.ackRel_chans (s : State) (l c n : Nat) : (s.ackRel l c n).chans = s.chans := by obtain ⟨_, h⟩ := s.ackRel_frame l c n; rw [h]
@[simp] theorem State.ackRel_reply (s : State) (l c n : Nat) : (s.ackRel l c n).reply = s.reply := by obtain ⟨_, h⟩ := s.ackRel_frame l c n; rw [h]
@[simp] theorem State.ackRel_loop (s : State) (l c n : Nat) : (s.ackRel l c n).loop = s.loop := by obtain ⟨_, h⟩ := s.ackRel_frame l c n; rw [h]
@[simp] theorem State.ackRel_sources (s : State) (l c n : Nat) : (s.ackRel l c n).sources = s.sources := by obtain ⟨_, h⟩ := s.ackRel_frame l c n; rw [h]
@[simp] theorem State.ackRel_boot (s : State) (l c n : Nat) : (s.ackRel l c n).boot = s.boot := by obtain ⟨_, h⟩ := s.ackRel_frame l c n; rw [h]
@[simp] theorem State.ackRel_lanes (s : State) (l c n : Nat) : (s.ackRel l c n).lanes = s.lanes := by obtain ⟨_, h⟩ := s.ackRel_frame l c n; rw [h]
@[simp] theorem State.ackRel_sent (s : State) (l c n : Nat) : (s.ackRel l c n).sent = s.sent := by obtain ⟨_, h⟩ := s.ackRel_frame l c n; rw [h]
@[simp] theorem State.ackRel_cyclic (s : State) (l c n : Nat) : (s.ackRel l c n).cyclic = s.cyclic := by obtain ⟨_, h⟩ := s.ackRel_frame l c n; rw [h]
@[simp] theorem State.ackRel_peers (s : State) (l c n : Nat) : (s.ackRel l c n).peers = s.peers := by obtain ⟨_, h⟩ := s.ackRel_frame l c n; rw [h]
@[simp] theorem State.ackRel_writes (s : State) (l c n : Nat) : (s.ackRel l c n).writes = s.writes := by obtain ⟨_, h⟩ := s.ackRel_frame l c n; rw [h]
@[simp] theorem State.ackRel_inWrites (s : State) (l c n : Nat) : (s.ackRel l c n).inWrites = s.inWrites := by obtain ⟨_, h⟩ := s.ackRel_frame l c n; rw [h]
@[simp] theorem State.ackRel_attn (s : State) (l c n : Nat) : (s.ackRel l c n).attn = s.attn := by obtain ⟨_, h⟩ := s.ackRel_frame l c n; rw [h]
@[simp] theorem State.ackRel_reqs (s : State) (l c n : Nat) : (s.ackRel l c n).reqs = s.reqs := by obtain ⟨_, h⟩ := s.ackRel_frame l c n; rw [h]
@[simp] theorem State.ackRel_steps (s : State) (l c n : Nat) : (s.ackRel l c n).steps = s.steps := by obtain ⟨_, h⟩ := s.ackRel_frame l c n; rw [h]
@[simp] theorem State.ackRel_stepLog (s : State) (l c n : Nat) : (s.ackRel l c n).stepLog = s.stepLog := by obtain ⟨_, h⟩ := s.ackRel_frame l c n; rw [h]
@[simp] theorem State.ackRel_inject (s : State) (l c n : Nat) : (s.ackRel l c n).inject = s.inject := by obtain ⟨_, h⟩ := s.ackRel_frame l c n; rw [h]
@[simp] theorem State.ackRel_masters (s : State) (l c n : Nat) : (s.ackRel l c n).masters = s.masters := by obtain ⟨_, h⟩ := s.ackRel_frame l c n; rw [h]
@[simp] theorem State.ackRel_transfers (s : State) (l c n : Nat) : (s.ackRel l c n).transfers = s.transfers := by obtain ⟨_, h⟩ := s.ackRel_frame l c n; rw [h]
@[simp] theorem State.ackRel_aborted (s : State) (l c n : Nat) : (s.ackRel l c n).aborted = s.aborted := by obtain ⟨_, h⟩ := s.ackRel_frame l c n; rw [h]
@[simp] theorem State.ackRel_maps (s : State) (l c n : Nat) : (s.ackRel l c n).maps = s.maps := by obtain ⟨_, h⟩ := s.ackRel_frame l c n; rw [h]
@[simp] theorem State.ackRel_invocations (s : State) (l c n : Nat) : (s.ackRel l c n).invocations = s.invocations := by obtain ⟨_, h⟩ := s.ackRel_frame l c n; rw [h]
@[simp] theorem State.ackRel_saved (s : State) (l c n : Nat) : (s.ackRel l c n).saved = s.saved := by obtain ⟨_, h⟩ := s.ackRel_frame l c n; rw [h]
@[simp] theorem State.ackRel_stoppingCtx (s : State) (l c n : Nat) : (s.ackRel l c n).stoppingCtx = s.stoppingCtx := by obtain ⟨_, h⟩ := s.ackRel_frame l c n; rw [h]
@[simp] theorem State.ackRel_pins (s : State) (l c n : Nat) : (s.ackRel l c n).pins = s.pins := by obtain ⟨_, h⟩ := s.ackRel_frame l c n; rw [h]
@[simp] theorem State.ackRel_fw (s : State) (l c n : Nat) : (s.ackRel l c n).fw = s.fw := by obtain ⟨_, h⟩ := s.ackRel_frame l c n; rw [h]
@[simp] theorem State.ackRel_fuses (s : State) (l c n : Nat) : (s.ackRel l c n).fuses = s.fuses := by obtain ⟨_, h⟩ := s.ackRel_frame l c n; rw [h]
@[simp] theorem State.ackRel_power (s : State) (l c n : Nat) : (s.ackRel l c n).power = s.power := by obtain ⟨_, h⟩ := s.ackRel_frame l c n; rw [h]
@[simp] theorem State.ackRel_flash (s : State) (l c n : Nat) : (s.ackRel l c n).flash = s.flash := by obtain ⟨_, h⟩ := s.ackRel_frame l c n; rw [h]
@[simp] theorem State.ackRel_repairs (s : State) (l c n : Nat) : (s.ackRel l c n).repairs = s.repairs := by obtain ⟨_, h⟩ := s.ackRel_frame l c n; rw [h]
@[simp] theorem State.ackRel_adapts (s : State) (l c n : Nat) : (s.ackRel l c n).adapts = s.adapts := by obtain ⟨_, h⟩ := s.ackRel_frame l c n; rw [h]
@[simp] theorem State.ackRel_submissions (s : State) (l c n : Nat) : (s.ackRel l c n).submissions = s.submissions := by obtain ⟨_, h⟩ := s.ackRel_frame l c n; rw [h]
@[simp] theorem State.ackRel_cameras (s : State) (l c n : Nat) : (s.ackRel l c n).cameras = s.cameras := by obtain ⟨_, h⟩ := s.ackRel_frame l c n; rw [h]
@[simp] theorem State.ackRel_tokenizer (s : State) (l c n : Nat) : (s.ackRel l c n).tokenizer = s.tokenizer := by obtain ⟨_, h⟩ := s.ackRel_frame l c n; rw [h]
@[simp] theorem State.ackRel_responses (s : State) (l c n : Nat) : (s.ackRel l c n).responses = s.responses := by obtain ⟨_, h⟩ := s.ackRel_frame l c n; rw [h]
@[simp] theorem State.ackRel_owned (s : State) (l c n : Nat) : (s.ackRel l c n).owned = s.owned := by obtain ⟨_, h⟩ := s.ackRel_frame l c n; rw [h]
@[simp] theorem State.ackRel_core (s : State) (l c n : Nat) (c' : Nat) : (s.ackRel l c n).core c' = s.core c' := by obtain ⟨_, h⟩ := s.ackRel_frame l c n; rw [h]; rfl
@[simp] theorem State.ackRel_engine (s : State) (l c n : Nat) (c' e : Nat) : (s.ackRel l c n).engine c' e = s.engine c' e := by obtain ⟨_, h⟩ := s.ackRel_frame l c n; rw [h]; rfl
@[simp] theorem State.ackRel_cluster (s : State) (l c n : Nat) (k : Nat) : (s.ackRel l c n).cluster k = s.cluster k := by obtain ⟨_, h⟩ := s.ackRel_frame l c n; rw [h]; rfl
@[simp] theorem State.ackRel_hq (s : State) (l c n : Nat) (u q : Nat) : (s.ackRel l c n).hq u q = s.hq u q := by obtain ⟨_, h⟩ := s.ackRel_frame l c n; rw [h]; rfl
@[simp] theorem State.ackRel_o (s : State) (l c n : Nat) (k : Nat) : (s.ackRel l c n).o k = s.o k := by obtain ⟨_, h⟩ := s.ackRel_frame l c n; rw [h]; rfl
@[simp] theorem State.ackRel_oBit (s : State) (l c n : Nat) (k i : Nat) : (s.ackRel l c n).oBit k i = s.oBit k i := by obtain ⟨_, h⟩ := s.ackRel_frame l c n; rw [h]; rfl
@[simp] theorem State.ackRel_d (s : State) (l c n : Nat) (k : Nat) : (s.ackRel l c n).d k = s.d k := by obtain ⟨_, h⟩ := s.ackRel_frame l c n; rw [h]; rfl
@[simp] theorem State.ackRel_byte (s : State) (l c n : Nat) (a : Nat) : (s.ackRel l c n).byte a = s.byte a := by obtain ⟨_, h⟩ := s.ackRel_frame l c n; rw [h]; rfl
@[simp] theorem State.ackRel_bytes (s : State) (l c n : Nat) (a n' : Nat) : (s.ackRel l c n).bytes a n' = s.bytes a n' := by obtain ⟨_, h⟩ := s.ackRel_frame l c n; rw [h]; rfl
@[simp] theorem State.ackRel_now (s : State) (l c n : Nat) : (s.ackRel l c n).now = s.now := by obtain ⟨_, h⟩ := s.ackRel_frame l c n; rw [h]; rfl
@[simp] theorem State.ackRel_unitCycle (s : State) (l c n : Nat) (u : Nat) : (s.ackRel l c n).unitCycle u = s.unitCycle u := by obtain ⟨_, h⟩ := s.ackRel_frame l c n; rw [h]; rfl
@[simp] theorem State.ackRel_coreCycle (s : State) (l c n : Nat) (c' : Nat) : (s.ackRel l c n).coreCycle c' = s.coreCycle c' := by obtain ⟨_, h⟩ := s.ackRel_frame l c n; rw [h]; rfl
@[simp] theorem State.ackRel_chan (s : State) (l c n : Nat) (c' : Nat) : (s.ackRel l c n).chan c' = s.chan c' := by obtain ⟨_, h⟩ := s.ackRel_frame l c n; rw [h]; rfl
@[simp] theorem State.ackRel_lane (s : State) (l c n : Nat) (i : Nat) : (s.ackRel l c n).lane i = s.lane i := by obtain ⟨_, h⟩ := s.ackRel_frame l c n; rw [h]; rfl
@[simp] theorem State.ackRel_laneState (s : State) (l c n : Nat) (i : Nat) : (s.ackRel l c n).laneState i = s.laneState i := by obtain ⟨_, h⟩ := s.ackRel_frame l c n; rw [h]; rfl
@[simp] theorem State.ackRel_laneUp (s : State) (l c n : Nat) (i : Nat) : (s.ackRel l c n).laneUp i = s.laneUp i := by obtain ⟨_, h⟩ := s.ackRel_frame l c n; rw [h]; rfl
@[simp] theorem State.ackRel_peer (s : State) (l c n : Nat) (n' : Nat) : (s.ackRel l c n).peer n' = s.peer n' := by obtain ⟨_, h⟩ := s.ackRel_frame l c n; rw [h]; rfl
@[simp] theorem State.ackRel_master (s : State) (l c n : Nat) (m : Nat) : (s.ackRel l c n).master m = s.master m := by obtain ⟨_, h⟩ := s.ackRel_frame l c n; rw [h]; rfl
@[simp] theorem State.ackRel_adapt (s : State) (l c n : Nat) (n' : Nat) : (s.ackRel l c n).adapt n' = s.adapt n' := by obtain ⟨_, h⟩ := s.ackRel_frame l c n; rw [h]; rfl
@[simp] theorem State.ackRel_camera (s : State) (l c n : Nat) (k : Nat) : (s.ackRel l c n).camera k = s.camera k := by obtain ⟨_, h⟩ := s.ackRel_frame l c n; rw [h]; rfl
@[simp] theorem State.ackRel_lineOf (s : State) (l c n : Nat) (a : Nat) : (s.ackRel l c n).lineOf a = s.lineOf a := by obtain ⟨_, h⟩ := s.ackRel_frame l c n; rw [h]; rfl
@[simp] theorem State.ackRel_rgn (s : State) (l c n : Nat) (e w : Nat) : (s.ackRel l c n).rgn e w = s.rgn e w := by obtain ⟨_, h⟩ := s.ackRel_frame l c n; rw [h]; rfl
@[simp] theorem State.ackRel_win (s : State) (l c n : Nat) (n' w : Nat) : (s.ackRel l c n).win n' w = s.win n' w := by obtain ⟨_, h⟩ := s.ackRel_frame l c n; rw [h]; rfl
@[simp] theorem State.send_pending (s : State) (c p f : Nat) : (s.send c p f).pending = s.pending := by obtain ⟨_, h⟩ := s.send_frame c p f; rw [h]
@[simp] theorem State.send_free (s : State) (c p f : Nat) : (s.send c p f).free = s.free := by obtain ⟨_, h⟩ := s.send_frame c p f; rw [h]
@[simp] theorem State.send_clk (s : State) (c p f : Nat) : (s.send c p f).clk = s.clk := by obtain ⟨_, h⟩ := s.send_frame c p f; rw [h]
@[simp] theorem State.send_cores (s : State) (c p f : Nat) : (s.send c p f).cores = s.cores := by obtain ⟨_, h⟩ := s.send_frame c p f; rw [h]
@[simp] theorem State.send_clusters (s : State) (c p f : Nat) : (s.send c p f).clusters = s.clusters := by obtain ⟨_, h⟩ := s.send_frame c p f; rw [h]
@[simp] theorem State.send_hqs (s : State) (c p f : Nat) : (s.send c p f).hqs = s.hqs := by obtain ⟨_, h⟩ := s.send_frame c p f; rw [h]
@[simp] theorem State.send_forwards (s : State) (c p f : Nat) : (s.send c p f).forwards = s.forwards := by obtain ⟨_, h⟩ := s.send_frame c p f; rw [h]
@[simp] theorem State.send_credits (s : State) (c p f : Nat) : (s.send c p f).credits = s.credits := by obtain ⟨_, h⟩ := s.send_frame c p f; rw [h]
@[simp] theorem State.send_ecc (s : State) (c p f : Nat) : (s.send c p f).ecc = s.ecc := by obtain ⟨_, h⟩ := s.send_frame c p f; rw [h]
@[simp] theorem State.send_line (s : State) (c p f : Nat) : (s.send c p f).line = s.line := by obtain ⟨_, h⟩ := s.send_frame c p f; rw [h]
@[simp] theorem State.send_omap (s : State) (c p f : Nat) : (s.send c p f).omap = s.omap := by obtain ⟨_, h⟩ := s.send_frame c p f; rw [h]
@[simp] theorem State.send_wins (s : State) (c p f : Nat) : (s.send c p f).wins = s.wins := by obtain ⟨_, h⟩ := s.send_frame c p f; rw [h]
@[simp] theorem State.send_closingWins (s : State) (c p f : Nat) : (s.send c p f).closingWins = s.closingWins := by obtain ⟨_, h⟩ := s.send_frame c p f; rw [h]
@[simp] theorem State.send_rgns (s : State) (c p f : Nat) : (s.send c p f).rgns = s.rgns := by obtain ⟨_, h⟩ := s.send_frame c p f; rw [h]
@[simp] theorem State.send_rgnNext (s : State) (c p f : Nat) : (s.send c p f).rgnNext = s.rgnNext := by obtain ⟨_, h⟩ := s.send_frame c p f; rw [h]
@[simp] theorem State.send_holders (s : State) (c p f : Nat) : (s.send c p f).holders = s.holders := by obtain ⟨_, h⟩ := s.send_frame c p f; rw [h]
@[simp] theorem State.send_retiredPages (s : State) (c p f : Nat) : (s.send c p f).retiredPages = s.retiredPages := by obtain ⟨_, h⟩ := s.send_frame c p f; rw [h]
@[simp] theorem State.send_ctxTab (s : State) (c p f : Nat) : (s.send c p f).ctxTab = s.ctxTab := by obtain ⟨_, h⟩ := s.send_frame c p f; rw [h]
@[simp] theorem State.send_obj (s : State) (c p f : Nat) : (s.send c p f).obj = s.obj := by obtain ⟨_, h⟩ := s.send_frame c p f; rw [h]
@[simp] theorem State.send_dom (s : State) (c p f : Nat) : (s.send c p f).dom = s.dom := by obtain ⟨_, h⟩ := s.send_frame c p f; rw [h]
@[simp] theorem State.send_obs (s : State) (c p f : Nat) : (s.send c p f).obs = s.obs := by obtain ⟨_, h⟩ := s.send_frame c p f; rw [h]
@[simp] theorem State.send_reply (s : State) (c p f : Nat) : (s.send c p f).reply = s.reply := by obtain ⟨_, h⟩ := s.send_frame c p f; rw [h]
@[simp] theorem State.send_loop (s : State) (c p f : Nat) : (s.send c p f).loop = s.loop := by obtain ⟨_, h⟩ := s.send_frame c p f; rw [h]
@[simp] theorem State.send_sources (s : State) (c p f : Nat) : (s.send c p f).sources = s.sources := by obtain ⟨_, h⟩ := s.send_frame c p f; rw [h]
@[simp] theorem State.send_boot (s : State) (c p f : Nat) : (s.send c p f).boot = s.boot := by obtain ⟨_, h⟩ := s.send_frame c p f; rw [h]
@[simp] theorem State.send_lanes (s : State) (c p f : Nat) : (s.send c p f).lanes = s.lanes := by obtain ⟨_, h⟩ := s.send_frame c p f; rw [h]
@[simp] theorem State.send_rels (s : State) (c p f : Nat) : (s.send c p f).rels = s.rels := by obtain ⟨_, h⟩ := s.send_frame c p f; rw [h]
@[simp] theorem State.send_sent (s : State) (c p f : Nat) : (s.send c p f).sent = s.sent := by obtain ⟨_, h⟩ := s.send_frame c p f; rw [h]
@[simp] theorem State.send_cyclic (s : State) (c p f : Nat) : (s.send c p f).cyclic = s.cyclic := by obtain ⟨_, h⟩ := s.send_frame c p f; rw [h]
@[simp] theorem State.send_peers (s : State) (c p f : Nat) : (s.send c p f).peers = s.peers := by obtain ⟨_, h⟩ := s.send_frame c p f; rw [h]
@[simp] theorem State.send_writes (s : State) (c p f : Nat) : (s.send c p f).writes = s.writes := by obtain ⟨_, h⟩ := s.send_frame c p f; rw [h]
@[simp] theorem State.send_inWrites (s : State) (c p f : Nat) : (s.send c p f).inWrites = s.inWrites := by obtain ⟨_, h⟩ := s.send_frame c p f; rw [h]
@[simp] theorem State.send_attn (s : State) (c p f : Nat) : (s.send c p f).attn = s.attn := by obtain ⟨_, h⟩ := s.send_frame c p f; rw [h]
@[simp] theorem State.send_reqs (s : State) (c p f : Nat) : (s.send c p f).reqs = s.reqs := by obtain ⟨_, h⟩ := s.send_frame c p f; rw [h]
@[simp] theorem State.send_steps (s : State) (c p f : Nat) : (s.send c p f).steps = s.steps := by obtain ⟨_, h⟩ := s.send_frame c p f; rw [h]
@[simp] theorem State.send_stepLog (s : State) (c p f : Nat) : (s.send c p f).stepLog = s.stepLog := by obtain ⟨_, h⟩ := s.send_frame c p f; rw [h]
@[simp] theorem State.send_inject (s : State) (c p f : Nat) : (s.send c p f).inject = s.inject := by obtain ⟨_, h⟩ := s.send_frame c p f; rw [h]
@[simp] theorem State.send_masters (s : State) (c p f : Nat) : (s.send c p f).masters = s.masters := by obtain ⟨_, h⟩ := s.send_frame c p f; rw [h]
@[simp] theorem State.send_transfers (s : State) (c p f : Nat) : (s.send c p f).transfers = s.transfers := by obtain ⟨_, h⟩ := s.send_frame c p f; rw [h]
@[simp] theorem State.send_aborted (s : State) (c p f : Nat) : (s.send c p f).aborted = s.aborted := by obtain ⟨_, h⟩ := s.send_frame c p f; rw [h]
@[simp] theorem State.send_maps (s : State) (c p f : Nat) : (s.send c p f).maps = s.maps := by obtain ⟨_, h⟩ := s.send_frame c p f; rw [h]
@[simp] theorem State.send_invocations (s : State) (c p f : Nat) : (s.send c p f).invocations = s.invocations := by obtain ⟨_, h⟩ := s.send_frame c p f; rw [h]
@[simp] theorem State.send_saved (s : State) (c p f : Nat) : (s.send c p f).saved = s.saved := by obtain ⟨_, h⟩ := s.send_frame c p f; rw [h]
@[simp] theorem State.send_stoppingCtx (s : State) (c p f : Nat) : (s.send c p f).stoppingCtx = s.stoppingCtx := by obtain ⟨_, h⟩ := s.send_frame c p f; rw [h]
@[simp] theorem State.send_pins (s : State) (c p f : Nat) : (s.send c p f).pins = s.pins := by obtain ⟨_, h⟩ := s.send_frame c p f; rw [h]
@[simp] theorem State.send_fw (s : State) (c p f : Nat) : (s.send c p f).fw = s.fw := by obtain ⟨_, h⟩ := s.send_frame c p f; rw [h]
@[simp] theorem State.send_fuses (s : State) (c p f : Nat) : (s.send c p f).fuses = s.fuses := by obtain ⟨_, h⟩ := s.send_frame c p f; rw [h]
@[simp] theorem State.send_power (s : State) (c p f : Nat) : (s.send c p f).power = s.power := by obtain ⟨_, h⟩ := s.send_frame c p f; rw [h]
@[simp] theorem State.send_flash (s : State) (c p f : Nat) : (s.send c p f).flash = s.flash := by obtain ⟨_, h⟩ := s.send_frame c p f; rw [h]
@[simp] theorem State.send_repairs (s : State) (c p f : Nat) : (s.send c p f).repairs = s.repairs := by obtain ⟨_, h⟩ := s.send_frame c p f; rw [h]
@[simp] theorem State.send_adapts (s : State) (c p f : Nat) : (s.send c p f).adapts = s.adapts := by obtain ⟨_, h⟩ := s.send_frame c p f; rw [h]
@[simp] theorem State.send_submissions (s : State) (c p f : Nat) : (s.send c p f).submissions = s.submissions := by obtain ⟨_, h⟩ := s.send_frame c p f; rw [h]
@[simp] theorem State.send_cameras (s : State) (c p f : Nat) : (s.send c p f).cameras = s.cameras := by obtain ⟨_, h⟩ := s.send_frame c p f; rw [h]
@[simp] theorem State.send_tokenizer (s : State) (c p f : Nat) : (s.send c p f).tokenizer = s.tokenizer := by obtain ⟨_, h⟩ := s.send_frame c p f; rw [h]
@[simp] theorem State.send_responses (s : State) (c p f : Nat) : (s.send c p f).responses = s.responses := by obtain ⟨_, h⟩ := s.send_frame c p f; rw [h]
@[simp] theorem State.send_owned (s : State) (c p f : Nat) : (s.send c p f).owned = s.owned := by obtain ⟨_, h⟩ := s.send_frame c p f; rw [h]
@[simp] theorem State.send_core (s : State) (c p f : Nat) (c' : Nat) : (s.send c p f).core c' = s.core c' := by obtain ⟨_, h⟩ := s.send_frame c p f; rw [h]; rfl
@[simp] theorem State.send_engine (s : State) (c p f : Nat) (c' e : Nat) : (s.send c p f).engine c' e = s.engine c' e := by obtain ⟨_, h⟩ := s.send_frame c p f; rw [h]; rfl
@[simp] theorem State.send_cluster (s : State) (c p f : Nat) (k : Nat) : (s.send c p f).cluster k = s.cluster k := by obtain ⟨_, h⟩ := s.send_frame c p f; rw [h]; rfl
@[simp] theorem State.send_hq (s : State) (c p f : Nat) (u q : Nat) : (s.send c p f).hq u q = s.hq u q := by obtain ⟨_, h⟩ := s.send_frame c p f; rw [h]; rfl
@[simp] theorem State.send_o (s : State) (c p f : Nat) (k : Nat) : (s.send c p f).o k = s.o k := by obtain ⟨_, h⟩ := s.send_frame c p f; rw [h]; rfl
@[simp] theorem State.send_oBit (s : State) (c p f : Nat) (k i : Nat) : (s.send c p f).oBit k i = s.oBit k i := by obtain ⟨_, h⟩ := s.send_frame c p f; rw [h]; rfl
@[simp] theorem State.send_d (s : State) (c p f : Nat) (k : Nat) : (s.send c p f).d k = s.d k := by obtain ⟨_, h⟩ := s.send_frame c p f; rw [h]; rfl
@[simp] theorem State.send_byte (s : State) (c p f : Nat) (a : Nat) : (s.send c p f).byte a = s.byte a := by obtain ⟨_, h⟩ := s.send_frame c p f; rw [h]; rfl
@[simp] theorem State.send_bytes (s : State) (c p f : Nat) (a n : Nat) : (s.send c p f).bytes a n = s.bytes a n := by obtain ⟨_, h⟩ := s.send_frame c p f; rw [h]; rfl
@[simp] theorem State.send_now (s : State) (c p f : Nat) : (s.send c p f).now = s.now := by obtain ⟨_, h⟩ := s.send_frame c p f; rw [h]; rfl
@[simp] theorem State.send_unitCycle (s : State) (c p f : Nat) (u : Nat) : (s.send c p f).unitCycle u = s.unitCycle u := by obtain ⟨_, h⟩ := s.send_frame c p f; rw [h]; rfl
@[simp] theorem State.send_coreCycle (s : State) (c p f : Nat) (c' : Nat) : (s.send c p f).coreCycle c' = s.coreCycle c' := by obtain ⟨_, h⟩ := s.send_frame c p f; rw [h]; rfl
@[simp] theorem State.send_lane (s : State) (c p f : Nat) (i : Nat) : (s.send c p f).lane i = s.lane i := by obtain ⟨_, h⟩ := s.send_frame c p f; rw [h]; rfl
@[simp] theorem State.send_laneState (s : State) (c p f : Nat) (i : Nat) : (s.send c p f).laneState i = s.laneState i := by obtain ⟨_, h⟩ := s.send_frame c p f; rw [h]; rfl
@[simp] theorem State.send_laneUp (s : State) (c p f : Nat) (i : Nat) : (s.send c p f).laneUp i = s.laneUp i := by obtain ⟨_, h⟩ := s.send_frame c p f; rw [h]; rfl
@[simp] theorem State.send_rel (s : State) (c p f : Nat) (l c' : Nat) : (s.send c p f).rel l c' = s.rel l c' := by obtain ⟨_, h⟩ := s.send_frame c p f; rw [h]; rfl
@[simp] theorem State.send_peer (s : State) (c p f : Nat) (n : Nat) : (s.send c p f).peer n = s.peer n := by obtain ⟨_, h⟩ := s.send_frame c p f; rw [h]; rfl
@[simp] theorem State.send_master (s : State) (c p f : Nat) (m : Nat) : (s.send c p f).master m = s.master m := by obtain ⟨_, h⟩ := s.send_frame c p f; rw [h]; rfl
@[simp] theorem State.send_adapt (s : State) (c p f : Nat) (n : Nat) : (s.send c p f).adapt n = s.adapt n := by obtain ⟨_, h⟩ := s.send_frame c p f; rw [h]; rfl
@[simp] theorem State.send_camera (s : State) (c p f : Nat) (k : Nat) : (s.send c p f).camera k = s.camera k := by obtain ⟨_, h⟩ := s.send_frame c p f; rw [h]; rfl
@[simp] theorem State.send_lineOf (s : State) (c p f : Nat) (a : Nat) : (s.send c p f).lineOf a = s.lineOf a := by obtain ⟨_, h⟩ := s.send_frame c p f; rw [h]; rfl
@[simp] theorem State.send_rgn (s : State) (c p f : Nat) (e w : Nat) : (s.send c p f).rgn e w = s.rgn e w := by obtain ⟨_, h⟩ := s.send_frame c p f; rw [h]; rfl
@[simp] theorem State.send_win (s : State) (c p f : Nat) (n w : Nat) : (s.send c p f).win n w = s.win n w := by obtain ⟨_, h⟩ := s.send_frame c p f; rw [h]; rfl
@[simp] theorem State.sendLine_pending (s : State) (c o : Nat) (w : Bool) : (s.sendLine c o w).pending = s.pending := by obtain ⟨_, h⟩ := s.sendLine_frame c o w; rw [h]
@[simp] theorem State.sendLine_free (s : State) (c o : Nat) (w : Bool) : (s.sendLine c o w).free = s.free := by obtain ⟨_, h⟩ := s.sendLine_frame c o w; rw [h]
@[simp] theorem State.sendLine_clk (s : State) (c o : Nat) (w : Bool) : (s.sendLine c o w).clk = s.clk := by obtain ⟨_, h⟩ := s.sendLine_frame c o w; rw [h]
@[simp] theorem State.sendLine_cores (s : State) (c o : Nat) (w : Bool) : (s.sendLine c o w).cores = s.cores := by obtain ⟨_, h⟩ := s.sendLine_frame c o w; rw [h]
@[simp] theorem State.sendLine_clusters (s : State) (c o : Nat) (w : Bool) : (s.sendLine c o w).clusters = s.clusters := by obtain ⟨_, h⟩ := s.sendLine_frame c o w; rw [h]
@[simp] theorem State.sendLine_hqs (s : State) (c o : Nat) (w : Bool) : (s.sendLine c o w).hqs = s.hqs := by obtain ⟨_, h⟩ := s.sendLine_frame c o w; rw [h]
@[simp] theorem State.sendLine_forwards (s : State) (c o : Nat) (w : Bool) : (s.sendLine c o w).forwards = s.forwards := by obtain ⟨_, h⟩ := s.sendLine_frame c o w; rw [h]
@[simp] theorem State.sendLine_credits (s : State) (c o : Nat) (w : Bool) : (s.sendLine c o w).credits = s.credits := by obtain ⟨_, h⟩ := s.sendLine_frame c o w; rw [h]
@[simp] theorem State.sendLine_ecc (s : State) (c o : Nat) (w : Bool) : (s.sendLine c o w).ecc = s.ecc := by obtain ⟨_, h⟩ := s.sendLine_frame c o w; rw [h]
@[simp] theorem State.sendLine_line (s : State) (c o : Nat) (w : Bool) : (s.sendLine c o w).line = s.line := by obtain ⟨_, h⟩ := s.sendLine_frame c o w; rw [h]
@[simp] theorem State.sendLine_omap (s : State) (c o : Nat) (w : Bool) : (s.sendLine c o w).omap = s.omap := by obtain ⟨_, h⟩ := s.sendLine_frame c o w; rw [h]
@[simp] theorem State.sendLine_wins (s : State) (c o : Nat) (w : Bool) : (s.sendLine c o w).wins = s.wins := by obtain ⟨_, h⟩ := s.sendLine_frame c o w; rw [h]
@[simp] theorem State.sendLine_closingWins (s : State) (c o : Nat) (w : Bool) : (s.sendLine c o w).closingWins = s.closingWins := by obtain ⟨_, h⟩ := s.sendLine_frame c o w; rw [h]
@[simp] theorem State.sendLine_rgns (s : State) (c o : Nat) (w : Bool) : (s.sendLine c o w).rgns = s.rgns := by obtain ⟨_, h⟩ := s.sendLine_frame c o w; rw [h]
@[simp] theorem State.sendLine_rgnNext (s : State) (c o : Nat) (w : Bool) : (s.sendLine c o w).rgnNext = s.rgnNext := by obtain ⟨_, h⟩ := s.sendLine_frame c o w; rw [h]
@[simp] theorem State.sendLine_holders (s : State) (c o : Nat) (w : Bool) : (s.sendLine c o w).holders = s.holders := by obtain ⟨_, h⟩ := s.sendLine_frame c o w; rw [h]
@[simp] theorem State.sendLine_retiredPages (s : State) (c o : Nat) (w : Bool) : (s.sendLine c o w).retiredPages = s.retiredPages := by obtain ⟨_, h⟩ := s.sendLine_frame c o w; rw [h]
@[simp] theorem State.sendLine_ctxTab (s : State) (c o : Nat) (w : Bool) : (s.sendLine c o w).ctxTab = s.ctxTab := by obtain ⟨_, h⟩ := s.sendLine_frame c o w; rw [h]
@[simp] theorem State.sendLine_obj (s : State) (c o : Nat) (w : Bool) : (s.sendLine c o w).obj = s.obj := by obtain ⟨_, h⟩ := s.sendLine_frame c o w; rw [h]
@[simp] theorem State.sendLine_dom (s : State) (c o : Nat) (w : Bool) : (s.sendLine c o w).dom = s.dom := by obtain ⟨_, h⟩ := s.sendLine_frame c o w; rw [h]
@[simp] theorem State.sendLine_obs (s : State) (c o : Nat) (w : Bool) : (s.sendLine c o w).obs = s.obs := by obtain ⟨_, h⟩ := s.sendLine_frame c o w; rw [h]
@[simp] theorem State.sendLine_reply (s : State) (c o : Nat) (w : Bool) : (s.sendLine c o w).reply = s.reply := by obtain ⟨_, h⟩ := s.sendLine_frame c o w; rw [h]
@[simp] theorem State.sendLine_loop (s : State) (c o : Nat) (w : Bool) : (s.sendLine c o w).loop = s.loop := by obtain ⟨_, h⟩ := s.sendLine_frame c o w; rw [h]
@[simp] theorem State.sendLine_sources (s : State) (c o : Nat) (w : Bool) : (s.sendLine c o w).sources = s.sources := by obtain ⟨_, h⟩ := s.sendLine_frame c o w; rw [h]
@[simp] theorem State.sendLine_boot (s : State) (c o : Nat) (w : Bool) : (s.sendLine c o w).boot = s.boot := by obtain ⟨_, h⟩ := s.sendLine_frame c o w; rw [h]
@[simp] theorem State.sendLine_lanes (s : State) (c o : Nat) (w : Bool) : (s.sendLine c o w).lanes = s.lanes := by obtain ⟨_, h⟩ := s.sendLine_frame c o w; rw [h]
@[simp] theorem State.sendLine_rels (s : State) (c o : Nat) (w : Bool) : (s.sendLine c o w).rels = s.rels := by obtain ⟨_, h⟩ := s.sendLine_frame c o w; rw [h]
@[simp] theorem State.sendLine_sent (s : State) (c o : Nat) (w : Bool) : (s.sendLine c o w).sent = s.sent := by obtain ⟨_, h⟩ := s.sendLine_frame c o w; rw [h]
@[simp] theorem State.sendLine_cyclic (s : State) (c o : Nat) (w : Bool) : (s.sendLine c o w).cyclic = s.cyclic := by obtain ⟨_, h⟩ := s.sendLine_frame c o w; rw [h]
@[simp] theorem State.sendLine_peers (s : State) (c o : Nat) (w : Bool) : (s.sendLine c o w).peers = s.peers := by obtain ⟨_, h⟩ := s.sendLine_frame c o w; rw [h]
@[simp] theorem State.sendLine_writes (s : State) (c o : Nat) (w : Bool) : (s.sendLine c o w).writes = s.writes := by obtain ⟨_, h⟩ := s.sendLine_frame c o w; rw [h]
@[simp] theorem State.sendLine_inWrites (s : State) (c o : Nat) (w : Bool) : (s.sendLine c o w).inWrites = s.inWrites := by obtain ⟨_, h⟩ := s.sendLine_frame c o w; rw [h]
@[simp] theorem State.sendLine_attn (s : State) (c o : Nat) (w : Bool) : (s.sendLine c o w).attn = s.attn := by obtain ⟨_, h⟩ := s.sendLine_frame c o w; rw [h]
@[simp] theorem State.sendLine_reqs (s : State) (c o : Nat) (w : Bool) : (s.sendLine c o w).reqs = s.reqs := by obtain ⟨_, h⟩ := s.sendLine_frame c o w; rw [h]
@[simp] theorem State.sendLine_steps (s : State) (c o : Nat) (w : Bool) : (s.sendLine c o w).steps = s.steps := by obtain ⟨_, h⟩ := s.sendLine_frame c o w; rw [h]
@[simp] theorem State.sendLine_stepLog (s : State) (c o : Nat) (w : Bool) : (s.sendLine c o w).stepLog = s.stepLog := by obtain ⟨_, h⟩ := s.sendLine_frame c o w; rw [h]
@[simp] theorem State.sendLine_inject (s : State) (c o : Nat) (w : Bool) : (s.sendLine c o w).inject = s.inject := by obtain ⟨_, h⟩ := s.sendLine_frame c o w; rw [h]
@[simp] theorem State.sendLine_masters (s : State) (c o : Nat) (w : Bool) : (s.sendLine c o w).masters = s.masters := by obtain ⟨_, h⟩ := s.sendLine_frame c o w; rw [h]
@[simp] theorem State.sendLine_transfers (s : State) (c o : Nat) (w : Bool) : (s.sendLine c o w).transfers = s.transfers := by obtain ⟨_, h⟩ := s.sendLine_frame c o w; rw [h]
@[simp] theorem State.sendLine_aborted (s : State) (c o : Nat) (w : Bool) : (s.sendLine c o w).aborted = s.aborted := by obtain ⟨_, h⟩ := s.sendLine_frame c o w; rw [h]
@[simp] theorem State.sendLine_maps (s : State) (c o : Nat) (w : Bool) : (s.sendLine c o w).maps = s.maps := by obtain ⟨_, h⟩ := s.sendLine_frame c o w; rw [h]
@[simp] theorem State.sendLine_invocations (s : State) (c o : Nat) (w : Bool) : (s.sendLine c o w).invocations = s.invocations := by obtain ⟨_, h⟩ := s.sendLine_frame c o w; rw [h]
@[simp] theorem State.sendLine_saved (s : State) (c o : Nat) (w : Bool) : (s.sendLine c o w).saved = s.saved := by obtain ⟨_, h⟩ := s.sendLine_frame c o w; rw [h]
@[simp] theorem State.sendLine_stoppingCtx (s : State) (c o : Nat) (w : Bool) : (s.sendLine c o w).stoppingCtx = s.stoppingCtx := by obtain ⟨_, h⟩ := s.sendLine_frame c o w; rw [h]
@[simp] theorem State.sendLine_pins (s : State) (c o : Nat) (w : Bool) : (s.sendLine c o w).pins = s.pins := by obtain ⟨_, h⟩ := s.sendLine_frame c o w; rw [h]
@[simp] theorem State.sendLine_fw (s : State) (c o : Nat) (w : Bool) : (s.sendLine c o w).fw = s.fw := by obtain ⟨_, h⟩ := s.sendLine_frame c o w; rw [h]
@[simp] theorem State.sendLine_fuses (s : State) (c o : Nat) (w : Bool) : (s.sendLine c o w).fuses = s.fuses := by obtain ⟨_, h⟩ := s.sendLine_frame c o w; rw [h]
@[simp] theorem State.sendLine_power (s : State) (c o : Nat) (w : Bool) : (s.sendLine c o w).power = s.power := by obtain ⟨_, h⟩ := s.sendLine_frame c o w; rw [h]
@[simp] theorem State.sendLine_flash (s : State) (c o : Nat) (w : Bool) : (s.sendLine c o w).flash = s.flash := by obtain ⟨_, h⟩ := s.sendLine_frame c o w; rw [h]
@[simp] theorem State.sendLine_repairs (s : State) (c o : Nat) (w : Bool) : (s.sendLine c o w).repairs = s.repairs := by obtain ⟨_, h⟩ := s.sendLine_frame c o w; rw [h]
@[simp] theorem State.sendLine_adapts (s : State) (c o : Nat) (w : Bool) : (s.sendLine c o w).adapts = s.adapts := by obtain ⟨_, h⟩ := s.sendLine_frame c o w; rw [h]
@[simp] theorem State.sendLine_submissions (s : State) (c o : Nat) (w : Bool) : (s.sendLine c o w).submissions = s.submissions := by obtain ⟨_, h⟩ := s.sendLine_frame c o w; rw [h]
@[simp] theorem State.sendLine_cameras (s : State) (c o : Nat) (w : Bool) : (s.sendLine c o w).cameras = s.cameras := by obtain ⟨_, h⟩ := s.sendLine_frame c o w; rw [h]
@[simp] theorem State.sendLine_tokenizer (s : State) (c o : Nat) (w : Bool) : (s.sendLine c o w).tokenizer = s.tokenizer := by obtain ⟨_, h⟩ := s.sendLine_frame c o w; rw [h]
@[simp] theorem State.sendLine_responses (s : State) (c o : Nat) (w : Bool) : (s.sendLine c o w).responses = s.responses := by obtain ⟨_, h⟩ := s.sendLine_frame c o w; rw [h]
@[simp] theorem State.sendLine_owned (s : State) (c o : Nat) (w : Bool) : (s.sendLine c o w).owned = s.owned := by obtain ⟨_, h⟩ := s.sendLine_frame c o w; rw [h]
@[simp] theorem State.sendLine_core (s : State) (c o : Nat) (w : Bool) (c' : Nat) : (s.sendLine c o w).core c' = s.core c' := by obtain ⟨_, h⟩ := s.sendLine_frame c o w; rw [h]; rfl
@[simp] theorem State.sendLine_engine (s : State) (c o : Nat) (w : Bool) (c' e : Nat) : (s.sendLine c o w).engine c' e = s.engine c' e := by obtain ⟨_, h⟩ := s.sendLine_frame c o w; rw [h]; rfl
@[simp] theorem State.sendLine_cluster (s : State) (c o : Nat) (w : Bool) (k : Nat) : (s.sendLine c o w).cluster k = s.cluster k := by obtain ⟨_, h⟩ := s.sendLine_frame c o w; rw [h]; rfl
@[simp] theorem State.sendLine_hq (s : State) (c o : Nat) (w : Bool) (u q : Nat) : (s.sendLine c o w).hq u q = s.hq u q := by obtain ⟨_, h⟩ := s.sendLine_frame c o w; rw [h]; rfl
@[simp] theorem State.sendLine_o (s : State) (c o : Nat) (w : Bool) (k : Nat) : (s.sendLine c o w).o k = s.o k := by obtain ⟨_, h⟩ := s.sendLine_frame c o w; rw [h]; rfl
@[simp] theorem State.sendLine_oBit (s : State) (c o : Nat) (w : Bool) (k i : Nat) : (s.sendLine c o w).oBit k i = s.oBit k i := by obtain ⟨_, h⟩ := s.sendLine_frame c o w; rw [h]; rfl
@[simp] theorem State.sendLine_d (s : State) (c o : Nat) (w : Bool) (k : Nat) : (s.sendLine c o w).d k = s.d k := by obtain ⟨_, h⟩ := s.sendLine_frame c o w; rw [h]; rfl
@[simp] theorem State.sendLine_byte (s : State) (c o : Nat) (w : Bool) (a : Nat) : (s.sendLine c o w).byte a = s.byte a := by obtain ⟨_, h⟩ := s.sendLine_frame c o w; rw [h]; rfl
@[simp] theorem State.sendLine_bytes (s : State) (c o : Nat) (w : Bool) (a n : Nat) : (s.sendLine c o w).bytes a n = s.bytes a n := by obtain ⟨_, h⟩ := s.sendLine_frame c o w; rw [h]; rfl
@[simp] theorem State.sendLine_now (s : State) (c o : Nat) (w : Bool) : (s.sendLine c o w).now = s.now := by obtain ⟨_, h⟩ := s.sendLine_frame c o w; rw [h]; rfl
@[simp] theorem State.sendLine_unitCycle (s : State) (c o : Nat) (w : Bool) (u : Nat) : (s.sendLine c o w).unitCycle u = s.unitCycle u := by obtain ⟨_, h⟩ := s.sendLine_frame c o w; rw [h]; rfl
@[simp] theorem State.sendLine_coreCycle (s : State) (c o : Nat) (w : Bool) (c' : Nat) : (s.sendLine c o w).coreCycle c' = s.coreCycle c' := by obtain ⟨_, h⟩ := s.sendLine_frame c o w; rw [h]; rfl
@[simp] theorem State.sendLine_lane (s : State) (c o : Nat) (w : Bool) (i : Nat) : (s.sendLine c o w).lane i = s.lane i := by obtain ⟨_, h⟩ := s.sendLine_frame c o w; rw [h]; rfl
@[simp] theorem State.sendLine_laneState (s : State) (c o : Nat) (w : Bool) (i : Nat) : (s.sendLine c o w).laneState i = s.laneState i := by obtain ⟨_, h⟩ := s.sendLine_frame c o w; rw [h]; rfl
@[simp] theorem State.sendLine_laneUp (s : State) (c o : Nat) (w : Bool) (i : Nat) : (s.sendLine c o w).laneUp i = s.laneUp i := by obtain ⟨_, h⟩ := s.sendLine_frame c o w; rw [h]; rfl
@[simp] theorem State.sendLine_rel (s : State) (c o : Nat) (w : Bool) (l c' : Nat) : (s.sendLine c o w).rel l c' = s.rel l c' := by obtain ⟨_, h⟩ := s.sendLine_frame c o w; rw [h]; rfl
@[simp] theorem State.sendLine_peer (s : State) (c o : Nat) (w : Bool) (n : Nat) : (s.sendLine c o w).peer n = s.peer n := by obtain ⟨_, h⟩ := s.sendLine_frame c o w; rw [h]; rfl
@[simp] theorem State.sendLine_master (s : State) (c o : Nat) (w : Bool) (m : Nat) : (s.sendLine c o w).master m = s.master m := by obtain ⟨_, h⟩ := s.sendLine_frame c o w; rw [h]; rfl
@[simp] theorem State.sendLine_adapt (s : State) (c o : Nat) (w : Bool) (n : Nat) : (s.sendLine c o w).adapt n = s.adapt n := by obtain ⟨_, h⟩ := s.sendLine_frame c o w; rw [h]; rfl
@[simp] theorem State.sendLine_camera (s : State) (c o : Nat) (w : Bool) (k : Nat) : (s.sendLine c o w).camera k = s.camera k := by obtain ⟨_, h⟩ := s.sendLine_frame c o w; rw [h]; rfl
@[simp] theorem State.sendLine_lineOf (s : State) (c o : Nat) (w : Bool) (a : Nat) : (s.sendLine c o w).lineOf a = s.lineOf a := by obtain ⟨_, h⟩ := s.sendLine_frame c o w; rw [h]; rfl
@[simp] theorem State.sendLine_rgn (s : State) (c o : Nat) (w : Bool) (e w' : Nat) : (s.sendLine c o w).rgn e w' = s.rgn e w' := by obtain ⟨_, h⟩ := s.sendLine_frame c o w; rw [h]; rfl
@[simp] theorem State.sendLine_win (s : State) (c o : Nat) (w : Bool) (n w' : Nat) : (s.sendLine c o w).win n w' = s.win n w' := by obtain ⟨_, h⟩ := s.sendLine_frame c o w; rw [h]; rfl

end Sys2Proof.Machine
end

