-- ==== Sys2Proof/Laws/Objects.lean ====
section
/-! SUPPORT. Which dictionary objects the log, the trace, the health manager and fault injection bring up to date; every
other object keeps its value through them. -/

namespace Sys2Proof.Machine

theorem State.traceRec_o (s : State) (r : TraceRec) (k : Nat) (h : logKey k = false) : (s.traceRec r).o k = s.o k := by
  simp only [logKey, Bool.or_eq_false_iff, beq_eq_false_iff_ne] at h
  unfold State.traceRec
  dsimp only
  split
  · simp [h]
  · split
    · simp [h]; rfl
    · rfl

theorem State.traceTime_o (s : State) (k : Nat) (h : logKey k = false) : s.traceTime.o k = s.o k := by
  unfold State.traceTime
  dsimp only
  split
  · rfl
  · exact s.traceRec_o _ k h

@[simp] theorem State.trace_o (s : State) (a b c : Nat) (x : Option Nat) (d e k : Nat) (h : logKey k = false) :
    (s.trace a b c x d e).o k = s.o k := by
  unfold State.trace
  split
  · rw [State.traceRec_o _ _ _ h, State.traceTime_o _ _ h]
  · rfl

@[simp] theorem State.logEv_o (s : State) (a b c : Nat) (i : LogInfo) (k : Nat) (h : logKey k = false) :
    (s.logEv a b c i).o k = s.o k := by
  have h0 := h
  simp only [logKey, Bool.or_eq_false_iff, beq_eq_false_iff_ne] at h
  unfold State.logEv
  dsimp only
  split
  · rfl
  · rw [State.trace_o _ _ _ _ _ _ _ _ h0]
    simp [h]
    rfl

theorem State.attention_o (s : State) (n k : Nat) (h : healthKey k = false) : (s.attention n).o k = s.o k := by
  unfold State.attention
  have hl : logKey k = false := by
    simp only [healthKey, Bool.or_eq_false_iff] at h; simp [h]
  have hk : k ≠ 0x800005 := by
    rintro rfl; simp [healthKey] at h
  rw [State.logEv_o _ _ _ _ _ _ hl]
  show (s.incO 0x800005 1).o k = _
  simp [hk]

theorem State.setOBit_o (s : State) (j i : Nat) (b : Bool) (k : Nat) (h : k ≠ j) : (s.setOBit j i b).o k = s.o k := by
  simp [State.setOBit, h]

@[simp] theorem State.setSticky_o (s : State) (n k : Nat) (h : healthKey k = false) : (s.setSticky n).o k = s.o k := by
  have hk : k ≠ 0x800002 := by
    rintro rfl; simp [healthKey] at h
  unfold State.setSticky
  split
  · rfl
  · rw [State.attention_o _ _ _ h, State.setOBit_o _ _ _ _ _ hk]

/-- A fold whose steps keep an object keeps it. -/
theorem foldl_o {α : Type} (k : Nat) (f : State → α → State) :
    ∀ (l : List α) (s : State), (∀ x ∈ l, ∀ t : State, (f t x).o k = t.o k) → (l.foldl f s).o k = s.o k
  | [], _, _ => rfl
  | x :: r, s, h => by
    rw [List.foldl_cons, foldl_o k f r (f s x) (fun y hy => h y (List.mem_cons_of_mem _ hy)), h x List.mem_cons_self]

theorem healthKey_part (p : Nat) (h : p < 4) : healthKey (partObj p 4) = true := by
  have h1 : (partObj p 4) / 256 / 4 = 0x840 := by unfold partObj ok; omega
  have h2 : (partObj p 4) % 256 = 4 := by unfold partObj ok; omega
  simp [healthKey, h1, h2]

theorem healthKey_owner (p : Nat) (h : p < 4) : healthKey (ok (0x3100 + p) 5) = true := by
  have h1 : (ok (0x3100 + p) 5) / 256 / 4 = 0xC40 := by unfold ok; omega
  have h2 : (ok (0x3100 + p) 5) % 256 = 5 := by unfold ok; omega
  simp [healthKey, h1, h2]

theorem healthKey_slot (i : Nat) (h : i < 32) : healthKey (slotObj (i + 1) 0xA) = true := by
  have h1 : 0x3040 ≤ (slotObj (i + 1) 0xA) / 256 := by unfold slotObj ok; omega
  have h2 : (slotObj (i + 1) 0xA) / 256 < 0x3060 := by unfold slotObj ok; omega
  have h3 : (slotObj (i + 1) 0xA) % 256 = 0xA := by unfold slotObj ok; omega
  simp [healthKey, h1, h2, h3]

/-- What follows other state is brought up to date; no other object changes. -/
@[simp] theorem State.settle_o (s : State) (k : Nat) (h : healthKey k = false) : s.settle.o k = s.o k := by
  have ne : ∀ j, healthKey j = true → k ≠ j := by
    rintro j hj rfl; rw [hj] at h; cases h
  have h1 : s.settleCounts.o k = s.o k := by
    unfold State.settleCounts
    dsimp only
    rw [foldl_o, foldl_o, foldl_o]
    · intro x hx t
      rw [State.o_setO, if_neg (ne _ (healthKey_part x (List.mem_range.1 hx)))]
    · intro x hx t
      rw [State.o_setO, if_neg (ne _ (healthKey_owner x (List.mem_range.1 hx)))]
    · intro x hx t
      rw [State.o_setO, if_neg (ne _ (healthKey_slot x (List.mem_range.1 hx)))]
  have h2 : ∀ t : State, t.settlePools.o k = t.o k := by
    intro t
    unfold State.settlePools
    refine foldl_o k _ _ _ (fun x _ u => ?_)
    split
    · rfl
    · rw [State.attention_o _ _ _ h, State.o_setO, if_neg (ne _ rfl)]
  have h3 : ∀ t : State, t.settleFlags.o k = t.o k := by
    intro t
    unfold State.settleFlags
    refine foldl_o k _ _ _ (fun x _ u => ?_)
    split
    · rfl
    · dsimp only
      split
      · rw [State.attention_o _ _ _ h, State.setOBit_o _ _ _ _ _ (ne _ rfl)]
      · rw [State.setOBit_o _ _ _ _ _ (ne _ rfl)]
  have h4 : ∀ t : State, t.settleIdle.o k = t.o k := by
    intro t
    unfold State.settleIdle
    refine foldl_o k _ _ _ (fun x _ u => ?_)
    dsimp only
    generalize (if u.partIdle x = true then if Tbl.get 0 u.power.idleFrom x = 0 then u.now + 1 else Tbl.get 0 u.power.idleFrom x
      else 0) = v
    by_cases e : v = Tbl.get 0 u.power.idleFrom x
    · rw [if_pos e]
    · rw [if_neg e]; rfl
  have h5 : ∀ t : State, t.settleState.o k = t.o k := by
    intro t
    unfold State.settleState
    dsimp only
    split
    · rw [State.o_setO, if_neg (ne _ rfl)]
    · rw [State.o_setO, if_neg (ne _ rfl), State.o_setO, if_neg (ne _ rfl), State.o_setO, if_neg (ne _ rfl)]
  have h6 : ∀ t : State, t.settleConds.settleClusters.o k = t.o k := by
    intro t
    unfold State.settleConds State.settleClusters
    dsimp only
    rw [State.o_setO, if_neg (ne _ rfl), State.setOBit_o _ _ _ _ _ (ne _ rfl), State.setOBit_o _ _ _ _ _ (ne _ rfl)]
  unfold State.settle
  rw [h5, h4, h6, h3, h2, h1]

@[simp] theorem State.acted_o (s : State) (k : Nat) (h : k ≠ 0xC00006) : s.acted.o k = s.o k := by
  unfold State.acted
  dsimp only
  split
  · split <;> (show (s.setO _ _).o k = _; simp [h])
  · simp [h]

@[simp] theorem State.sendRel_o (s : State) (l c : Nat) (f : Frame) (k : Nat) (h : k ≠ 0xC00006) :
    (s.sendRel l c f).o k = s.o k := by
  unfold State.sendRel
  dsimp only
  split
  · rfl
  · rw [State.acted_o _ _ h]; rfl

@[simp] theorem State.transmit_o (s : State) (l t : Nat) (d : List Byte) (k : Nat) (h : k ≠ 0xC00006) :
    (s.transmit l t d).o k = s.o k := by
  have hr : ∀ (u : State) (e : List Byte), (u.release l t e).o k = u.o k := by
    intro u e
    obtain ⟨_, _, hh⟩ := u.release_frame l t e
    rw [hh]; rfl
  unfold State.transmit
  split
  · rfl
  · split
    · exact State.acted_o _ _ h
    · rw [hr, State.acted_o _ _ h]
    · split
      · exact State.acted_o _ _ h
      · exact hr _ _
    · exact hr _ _

end Sys2Proof.Machine
end

