-- ==== Sys2Proof/Laws/Engine.lean ====
section
/-! SUPPORT. Reads and writes of SRAM, the reads of an engine command, its stores, and its end: what each leaves alone and
what it leaves in memory. -/

namespace Sys2Proof.Machine

/-! ### Reads and writes of SRAM -/

/-- A state that differs only in the log, the trace and counters, the objects that count events, and error states. -/
def Noted (s t : State) : Prop := (∃ b o e, t = { s with obs := b, obj := o, ecc := e }) ∧ ObjectsBut s t []

theorem Noted.refl (s : State) : Noted s s := ⟨⟨_, _, _, rfl⟩, fun _ _ _ => rfl⟩

theorem Noted.trans {s t u : State} (h : Noted s t) (g : Noted t u) : Noted s u := by
  refine ⟨?_, fun k hk hl => (g.2 k hk hl).trans (h.2 k hk hl)⟩
  obtain ⟨⟨_, _, _, rfl⟩, _⟩ := h
  obtain ⟨⟨_, _, _, rfl⟩, _⟩ := g
  exact ⟨_, _, _, rfl⟩

theorem Noted.logEv (s : State) (a b c : Nat) (i : LogInfo) : Noted s (s.logEv a b c i) := by
  refine ⟨?_, fun k _ hk => s.logEv_o a b c i k hk⟩
  obtain ⟨p, o, h⟩ := s.logEv_frame a b c i
  exact ⟨p, o, s.ecc, h⟩

theorem Noted.event (s : State) (a b c : Nat) : Noted s (s.event a b c) := ⟨⟨_, _, _, rfl⟩, fun _ _ _ => rfl⟩

theorem Noted.ecc (s : State) (e : Tbl Nat) : Noted s { s with ecc := e } := ⟨⟨_, _, _, rfl⟩, fun _ _ _ => rfl⟩

theorem Noted.logWord (s : State) (c w : Nat) : Noted s (s.logWord c w) := by
  unfold State.logWord
  cases s.sram (w * 16) with
  | none => exact .refl s
  | some p => exact .logEv ..

theorem Noted.readWord (s : State) (e : Nat × Nat) : Noted s (s.readWord e) := by
  unfold State.readWord
  split
  · exact (Noted.ecc s _).trans ((Noted.logWord _ _ _).trans (.event ..))
  · exact .logWord ..
  · exact (Noted.ecc s _).trans ((Noted.logWord _ _ _).trans (.event ..))

theorem Noted.fold {α : Type} (f : State → α → State) (h : ∀ s x, Noted s (f s x)) :
    ∀ (l : List α) (s : State), Noted s (l.foldl f s)
  | [], s => .refl s
  | x :: r, s => (h s x).trans (Noted.fold f h r (f s x))

theorem Noted.sramRead (s : State) (a n : Nat) : Noted s (s.sramRead a n).1 := Noted.fold _ Noted.readWord _ _

theorem Noted.writeWord (a n : Nat) (s : State) (e : Nat × Nat) : Noted s (s.writeWord a n e) := by
  have h1 : Noted s (if e.2 = 4 then s.event 0x082 (s.wordMem e.1) 1 else s) := by
    split
    · exact .event ..
    · exact .refl s
  unfold State.writeWord
  dsimp only
  split
  · exact h1.trans (.ecc _ _)
  · split
    · exact h1.trans ((Noted.readWord _ _).trans (.logWord ..))
    · exact h1.trans ((Noted.readWord _ _).trans (.logWord ..))
    · exact h1.trans ((Noted.readWord _ _).trans (.ecc _ _))

/-- A state that differs from another in what is noted, and in memory by some stores. -/
def Stored (s t : State) (l : List (Nat × List Byte)) : Prop :=
  (∃ b o e, t = { s with mem := storeAll s.mem l, obs := b, obj := o, ecc := e }) ∧ ObjectsBut s t []

theorem Stored.nil (s : State) : Stored s s [] := ⟨⟨_, _, _, rfl⟩, fun _ _ _ => rfl⟩

theorem Stored.of_noted {s t : State} (h : Noted s t) : Stored s t [] := by
  obtain ⟨⟨b, o, e, h⟩, g⟩ := h
  exact ⟨⟨b, o, e, h⟩, g⟩

theorem Stored.trans {s t u : State} {l k : List (Nat × List Byte)} (h : Stored s t l) (g : Stored t u k) :
    Stored s u (l ++ k) := by
  refine ⟨?_, fun k hk hl => (g.2 k hk hl).trans (h.2 k hk hl)⟩
  obtain ⟨⟨b, o, e, rfl⟩, _⟩ := h
  obtain ⟨⟨c, p, f, rfl⟩, _⟩ := g
  exact ⟨c, p, f, by simp [storeAll]⟩

/-- A write of SRAM bytes stores them and notes what it meets. -/
theorem Stored.sramWrite (s : State) (a : Nat) (l : List Byte) : Stored s (s.sramWrite a l) [(a, l)] := by
  obtain ⟨⟨b, o, e, h⟩, g⟩ := Noted.fold _ (Noted.writeWord a l.length) (s.dirtyWords a l.length) s
  refine ⟨⟨b, o, e, ?_⟩, fun k hk hl => g k hk hl⟩
  unfold State.sramWrite
  rw [h]
  rfl

theorem Stored.fold {α : Type} (f : State → α → State) (g : α → List (Nat × List Byte)) (h : ∀ s x, Stored s (f s x) (g x)) :
    ∀ (l : List α) (s : State), Stored s (l.foldl f s) (l.flatMap g)
  | [], s => .nil s
  | x :: r, s => by
    rw [List.flatMap_cons]
    exact (h s x).trans (Stored.fold f g h r (f s x))

theorem Stored.mem {s t : State} {l : List (Nat × List Byte)} (h : Stored s t l) : t.mem = storeAll s.mem l := by
  obtain ⟨⟨_, _, _, rfl⟩, _⟩ := h; rfl
theorem Stored.cores {s t : State} {l : List (Nat × List Byte)} (h : Stored s t l) : t.cores = s.cores := by
  obtain ⟨⟨_, _, _, rfl⟩, _⟩ := h; rfl
theorem Stored.core {s t : State} {l : List (Nat × List Byte)} (h : Stored s t l) (c : Nat) : t.core c = s.core c := by
  obtain ⟨⟨_, _, _, rfl⟩, _⟩ := h; rfl
theorem Stored.free {s t : State} {l : List (Nat × List Byte)} (h : Stored s t l) : t.free = s.free := by
  obtain ⟨⟨_, _, _, rfl⟩, _⟩ := h; rfl
theorem Stored.frame {s t : State} {l : List (Nat × List Byte)} (h : Stored s t l) : EngineFrame s t := by
  obtain ⟨⟨_, _, _, rfl⟩, _⟩ := h; rfl

/-- A byte outside every store reads as before. -/
theorem storeAll_other (l : List (Nat × List Byte)) (a : Nat) : ∀ (m : List Host.Cell),
    (∀ p ∈ l, a < p.1 ∨ p.1 + p.2.length ≤ a) → Tbl.get Memory.dflt (storeAll m l) a = Tbl.get Memory.dflt m a := by
  induction l with
  | nil => intros; rfl
  | cons p r ih =>
    intro m h
    refine (ih _ (fun q hq => h q (List.mem_cons_of_mem _ hq))).trans ?_
    exact Tbl.get_setList_other _ _ _ _ _ (h p List.mem_cons_self)

/-! ### Runs and rows -/

theorem Stored.writeRun (s : State) (core : Nat) (v : View) (off : Nat) (r : List Out × List Nat) :
    Stored s (s.writeRun core v off r) (runStores core v off r) := by
  unfold State.writeRun runStores
  dsimp only
  split
  · next h => exact .sramWrite ..
  · next h => exact (Stored.sramWrite ..).trans (.sramWrite ..)

theorem Stored.writeRow (s : State) (core : Nat) (f : Flight) (v : View) (off i0 : Nat) (l : List Num) :
    Stored s (s.writeRow core f v off i0 l) (rowStores core f v off i0 l) := by
  unfold State.writeRow rowStores
  dsimp only
  generalize convertLane v.format f.cmd.veSatf (l.zipIdx.map (fun p => (p.1, f.rndAt (i0 + p.2)))) = r
  exact (Stored.of_noted (.event ..)).trans (.writeRun (s.event 0x008 core (excOf r.1)) core v off r)

theorem Stored.of_eachRow (core : Nat) (rowOf : State → Bound → Flight → Nat → List Num) (s src : State) (b : Bound) (f : Flight) :
    Stored s (eachRow core rowOf s src b f) (zStores core b f (rowOf src b f)) := by
  unfold eachRow zStores
  refine Stored.fold (fun t r => t.writeRow core f (b.v 2) (r * (b.v 2).stride) (r * b.cmd.len) (rowOf src b f r))
    (fun r => rowStores core f (b.v 2) (r * (b.v 2).stride) (r * b.cmd.len) (rowOf src b f r)) ?_ _ s
  intro t r
  exact Stored.writeRow t core f (b.v 2) (r * (b.v 2).stride) (r * b.cmd.len) (rowOf src b f r)

/-! ### The reads of an engine command -/

theorem EngineFrame.trans {s t u : State} (h : EngineFrame s t) (g : EngineFrame t u) : EngineFrame s u := by
  unfold EngineFrame at *
  generalize t.cores = c, t.mem = m, t.obs = b, t.obj = o, t.ecc = e, t.free = n at h
  subst h
  exact g

theorem EngineFrame.of_cores {s t : State} (h : t = { s with cores := t.cores }) : EngineFrame s t := by
  obtain ⟨c, rfl⟩ : ∃ c, t = { s with cores := c } := ⟨_, h⟩
  rfl

theorem ObjectsBut.trans {s t u : State} {l : List Nat} (h : ObjectsBut s t l) (g : ObjectsBut t u l) : ObjectsBut s u l :=
  fun k hk hl => (g k hk hl).trans (h k hk hl)

theorem Noted.readExtent (c : Nat) (x : Extent) (t : State) : Noted t (t.readExtent c x).1 := by
  have : ∀ (k : List (Nat × Nat)) (a : State × Bool), Noted a.1 (k.foldl (fun acc p =>
      let r := acc.1.sramRead (if x.cm then cmAddr (c / 4) p.1 else spadAddr c p.1) p.2
      (r.1, acc.2 || r.2)) a).1 := by
    intro k
    induction k with
    | nil => intro a; exact .refl _
    | cons p r ih => intro a; exact (Noted.sramRead ..).trans (ih _)
  exact this x.runs (t, false)

/-- The reads of an engine command change only what is noted and the counter of free values. -/
theorem gather_eq (s : State) (c : Nat) (l : List Extent) :
    ∃ b o e n, (s.gather c l).1 = { s with obs := b, obj := o, ecc := e, free := n } := by
  obtain ⟨⟨b, o, e, h⟩, _⟩ := Noted.fold (fun t x => (State.readExtent t c x).1) (fun t x => Noted.readExtent c x t) l s
  refine ⟨b, o, e, (s.gather c l).1.free, ?_⟩
  unfold State.gather
  dsimp only
  rw [h]

theorem gather_objects (s : State) (c : Nat) (l : List Extent) : ObjectsBut s (s.gather c l).1 [] :=
  (Noted.fold (fun t x => (State.readExtent t c x).1) (fun t x => Noted.readExtent c x t) l s).2

theorem gather_frame (s : State) (c : Nat) (l : List Extent) : EngineFrame s (s.gather c l).1 := by
  obtain ⟨b, o, e, n, h⟩ := gather_eq s c l
  unfold EngineFrame
  rw [h]

@[simp] theorem gather_core (s : State) (c : Nat) (l : List Extent) (d : Nat) : (s.gather c l).1.core d = s.core d := by
  obtain ⟨b, o, e, n, h⟩ := gather_eq s c l
  rw [h]; rfl
@[simp] theorem gather_cores (s : State) (c : Nat) (l : List Extent) : (s.gather c l).1.cores = s.cores := by
  obtain ⟨b, o, e, n, h⟩ := gather_eq s c l
  rw [h]
theorem gather_mem (s : State) (c : Nat) (l : List Extent) : (s.gather c l).1.mem = s.mem := by
  obtain ⟨b, o, e, n, h⟩ := gather_eq s c l
  rw [h]
@[simp] theorem gather_hqs (s : State) (c : Nat) (l : List Extent) : (s.gather c l).1.hqs = s.hqs := by
  obtain ⟨b, o, e, n, h⟩ := gather_eq s c l
  rw [h]

/-- What the reads of an engine command leave alone. -/
def Gathered (s t : State) : Prop :=
  (∀ d, t.core d = s.core d) ∧ t.mem = s.mem ∧ EngineFrame s t ∧ ObjectsBut s t []

theorem Gathered.gather (s : State) (c : Nat) (l : List Extent) : Gathered s (s.gather c l).1 :=
  ⟨gather_core s c l, gather_mem s c l, gather_frame s c l, gather_objects s c l⟩

theorem Gathered.trans {s t u : State} (h : Gathered s t) (g : Gathered t u) : Gathered s u :=
  ⟨fun d => (g.1 d).trans (h.1 d), g.2.1.trans h.2.1, h.2.2.1.trans g.2.2.1, h.2.2.2.trans g.2.2.2⟩

theorem Gathered.vectorReads (c : Nat) (s : State) (f : Flight) : Gathered s (vectorReads c s f).1 := by
  unfold Machine.vectorReads State.vectorReads
  dsimp only
  split
  · exact (Gathered.gather ..).trans (.gather ..)
  · exact .gather ..

@[simp] theorem vectorReads_core (c : Nat) (s : State) (f : Flight) (d : Nat) : (vectorReads c s f).1.core d = s.core d :=
  (Gathered.vectorReads c s f).1 d
theorem vectorReads_mem (c : Nat) (s : State) (f : Flight) : (vectorReads c s f).1.mem = s.mem :=
  (Gathered.vectorReads c s f).2.1
theorem vectorReads_frame (c : Nat) (s : State) (f : Flight) : EngineFrame s (vectorReads c s f).1 :=
  (Gathered.vectorReads c s f).2.2.1
theorem vectorReads_objects (c : Nat) (s : State) (f : Flight) : ObjectsBut s (vectorReads c s f).1 [] :=
  (Gathered.vectorReads c s f).2.2.2

/-! ### The end of an engine command -/

@[simp] theorem State.setEngine_core (s : State) (c e d : Nat) (y : Engine) :
    (s.setEngine c e y).core d = if d = c then (s.core c).setEngine e y else s.core d := by
  simp [State.setEngine]
@[simp] theorem State.setEngine_byte (s : State) (c e a : Nat) (y : Engine) : (s.setEngine c e y).byte a = s.byte a := rfl
@[simp] theorem State.setEngine_obj (s : State) (c e : Nat) (y : Engine) : (s.setEngine c e y).obj = s.obj := rfl
@[simp] theorem State.setEngine_hqs (s : State) (c e : Nat) (y : Engine) : (s.setEngine c e y).hqs = s.hqs := rfl
@[simp] theorem Core.setEngine_pred (x : Core) (e : Nat) (y : Engine) (rt : Bool) : (x.setEngine e y).pred rt = x.pred rt := rfl
@[simp] theorem Core.setPred_pred (x : Core) (rt r : Bool) (b : PredBank) :
    (x.setPred rt b).pred r = if r = rt then b else x.pred r := by
  unfold Core.pred Core.setPred
  rw [Tbl.get_set]
  cases r <;> cases rt <;> simp
@[simp] theorem Core.setPred_engine (x : Core) (rt : Bool) (b : PredBank) (e : Nat) : (x.setPred rt b).engine e = x.engine e :=
  rfl
@[simp] theorem Core.setEngine_engine (x : Core) (e i : Nat) (y : Engine) :
    (x.setEngine e y).engine i = if i = e then y else x.engine i := Tbl.get_set ..

/-- The command at turn takes the effect `eff` and stands in its engine as `eff` leaves it. -/
theorem perform_eq (s : State) (core e opc : Nat) (eff : State → Flight → State × Flight) (f : Flight)
    (h : s.current core e opc = some f) :
    s.perform core e opc eff = (eff s f).1.setEngine core e
      { (eff s f).1.engine core e with
        flights := updateFirst (Flight.awaits opc) (eff s f).2 ((eff s f).1.engine core e).flights } := by
  unfold State.perform
  rw [h]

/-- The end of a command whose effect leaves the state `u` and the command as `g`: what becomes of its core, of the other
cores and of every other part of the state. -/
theorem perform_end (s u : State) (core e opc : Nat) (eff : State → Flight → State × Flight) (f g : Flight)
    (h : s.current core e opc = some f) (he : eff s f = (u, g)) (hu : ∀ i, u.engine core i = s.engine core i) :
    ∃ t, s.perform core e opc eff = t ∧ Ended s t core e opc g ∧
      t.core core = (u.core core).setEngine e
        { s.engine core e with flights := updateFirst (Flight.awaits opc) g (s.engine core e).flights } ∧
      (∀ d, d ≠ core → t.core d = u.core d) ∧ t = { u with cores := t.cores } := by
  refine ⟨_, rfl, ?_⟩
  rw [perform_eq _ _ _ _ _ _ h, he]
  rw [← hu e]
  refine ⟨⟨?_, ?_⟩, ?_, ?_, rfl⟩
  · rw [← hu e]; simp [State.engine]
  · intro i hi; rw [← hu i]; simp [State.engine, hi]
  · simp [State.engine]
  · intro d hd; simp [hd]

end Sys2Proof.Machine
end

