-- ==== Sys2Proof/Laws/Handles.lean ====
section
/-! SUPPORT. What a push, a pop and an announcement can change. -/

namespace Sys2Proof.Machine

theorem State.sendPair_frame (s : State) (a b c d e f g : Nat) :
    ∃ r o i, (s.sendPair a b c d e f g).1 = { s with rels := r, obj := o, inject := i } := by
  unfold State.sendPair
  split
  · exact ⟨_, _, _, rfl⟩
  · exact s.sendRel_frame _ _ _

theorem State.refusePush_frame (s : State) (u q : Nat) (h : W32) (k : Pusher) :
    ∃ x p o, s.refusePush u q h k = { s with hqs := x, obs := p, obj := o } := by
  unfold State.refusePush
  obtain ⟨p, o, e⟩ := State.logEv_frame (((s.setHq u q { s.hq u q with viol := satAdd 255 (s.hq u q).viol 1 }).event 0x062 u 1))
    0x11 (if u = hubUnit then 7 else 2) u { own := some (hOwn h), ctx := k.ctx, detail := k.detail q }
  exact ⟨_, _, _, e⟩

theorem State.acceptPush_frame (s : State) (u q : Nat) (h : W32) (p : Pusher) :
    ∃ x b o f r i, s.acceptPush u q h p =
      { s with hqs := x, obs := b, obj := o, forwards := f, rels := r, inject := i } := by
  unfold State.acceptPush
  obtain ⟨b, o, e⟩ := (s.event 0x060 u 1).trace_frame 3 u 7 none (q + 128) h.toNat
  extract_lets z cyc x s0 t s1 r stale h1 vis fwd y s2
  have e0 : s0 = _ := e
  clear_value s0
  subst e0
  split
  · split
    · exact ⟨_, _, _, _, _, _, rfl⟩
    · split
      · refine (fun ⟨r, o, i, e⟩ => ⟨_, _, _, _, _, _, e⟩) (State.sendPair_frame s1 _ _ _ _ _ _ _)
      · exact ⟨_, _, _, _, _, _, rfl⟩
  · split
    · refine (fun ⟨r, o, e⟩ => ⟨_, _, _, _, _, _, e⟩) (State.logEv_frame (s2.event 0x063 u 1) _ _ _ _)
    · exact ⟨_, _, _, _, _, _, rfl⟩

/-- A push changes only handle queues, what is logged and counted, handles on their way within the device, and the reliable
channels it sends on. -/
theorem State.push_frame (s : State) (u q : Nat) (h : W32) (p : Pusher) :
    ∃ x b o f r i, s.push u q h p = { s with hqs := x, obs := b, obj := o, forwards := f, rels := r, inject := i } := by
  unfold State.push
  split
  · exact s.acceptPush_frame u q h p
  · obtain ⟨x, b, o, e⟩ := s.refusePush_frame u q h p
    exact ⟨_, _, _, _, _, _, e⟩

/-- An announcement changes only what its push changes. -/
theorem State.announce_frame (s : State) (n w : Nat) :
    ∃ x b o f r i, s.announce n w = { s with hqs := x, obs := b, obj := o, forwards := f, rels := r, inject := i } := by
  unfold State.announce
  dsimp only
  generalize hq : fld (s.win n 1) 0 5 = q
  generalize hh : mkHandle _ _ _ _ _ _ = h
  split
  · exact ⟨_, _, _, _, _, _, rfl⟩
  · obtain ⟨x, b, o, f, r, i, e⟩ := s.push_frame (s.windowCluster n) q h (.announcement n)
    rw [e]
    split
    · exact ⟨_, _, _, _, _, _, rfl⟩
    · exact ⟨_, _, _, _, _, _, rfl⟩

theorem State.sendPacket_frame (s : State) (x : PWrite) (p : PPacket) :
    ∃ r o i, s.sendPacket x p = { s with rels := r, obj := o, inject := i } := by
  unfold State.sendPacket
  split
  · exact s.sendRel_frame _ _ _
  · exact ⟨_, _, _, rfl⟩

theorem State.drainWindows_frame (s : State) :
    ∃ w c, s.drainWindows = { s with wins := w, closingWins := c } := by
  have key : ∀ (l : List Nat) (t : State), ∃ w c,
      l.foldl (fun t n => if t.windowAdmitted n = 0 then t.windowShut n else t) t = { t with wins := w, closingWins := c } := by
    intro l
    induction l with
    | nil => intro t; exact ⟨_, _, rfl⟩
    | cons n l ih =>
      intro t
      have h1 : ∃ w c, (if t.windowAdmitted n = 0 then t.windowShut n else t) = { t with wins := w, closingWins := c } := by
        split
        · exact ⟨_, _, rfl⟩
        · exact ⟨_, _, rfl⟩
      obtain ⟨w, c, h1⟩ := h1
      obtain ⟨x, d, h2⟩ := ih { t with wins := w, closingWins := c }
      exact ⟨x, d, by rw [List.foldl_cons, h1, h2]⟩
  exact key _ _

theorem State.sendCredit_frame (s : State) (t : Transit) :
    ∃ x c r o i, s.sendCredit t = { s with hqs := x, credits := c, rels := r, obj := o, inject := i } := by
  unfold State.sendCredit
  split
  · exact ⟨_, _, _, _, _, rfl⟩
  · dsimp only
    split
    · refine (fun ⟨r, o, i, e⟩ => ⟨_, _, r, o, i, e⟩) (State.sendPair_frame _ _ _ _ _ _ _ _)
    · exact ⟨_, _, _, _, _, rfl⟩


theorem State.credits_frame (l : List Transit) : ∀ (s : State), ∃ x c r o i,
    l.foldl State.sendCredit s = { s with hqs := x, credits := c, rels := r, obj := o, inject := i } := by
  induction l with
  | nil => intro s; exact ⟨_, _, _, _, _, rfl⟩
  | cons t l ih =>
    intro s
    obtain ⟨x, c, r, o, i, e⟩ := s.sendCredit_frame t
    rw [List.foldl_cons, e]
    obtain ⟨x, c, r, o, i, e⟩ := ih { s with hqs := x, credits := c, rels := r, obj := o, inject := i }
    exact ⟨x, c, r, o, i, e⟩

theorem State.pop_frame (s : State) (u q n k : Nat) :
    ∃ x b c r o i, (s.pop u q n k).2 = { s with hqs := x, obs := b, credits := c, rels := r, obj := o, inject := i } := by
  obtain ⟨x, c, r, o, i, e⟩ := State.credits_frame (((s.hq u q).items.take n).flatMap (creditOf (s.hq u q) u q))
    (s.setHq u q { s.hq u q with
      items := (s.hq u q).items.drop n, popCycle := s.unitCycle u, popKey := k
      popCount := (if (s.hq u q).popCycle = s.unitCycle u then (s.hq u q).popCount else 0) + ((s.hq u q).items.take n).length })
  refine ⟨x, (s.event 0x061 u ((s.hq u q).items.take n).length).obs, c, r, o, i, ?_⟩
  show State.event (List.foldl _ _ _) _ _ _ = _
  rw [e]; rfl

theorem State.sendPair_o (s : State) (a b c d e f g k : Nat) (h : k ≠ 0xC00006) : (s.sendPair a b c d e f g).1.o k = s.o k := by
  unfold State.sendPair
  split
  · rfl
  · exact State.sendRel_o _ _ _ _ _ h

/-- A push changes no object but those of the log and the count of injections. -/
theorem State.push_o (s : State) (u q : Nat) (w : W32) (p : Pusher) (k : Nat) (h : logKey k = false) (hk : k ≠ 0xC00006) :
    (s.push u q w p).o k = s.o k := by
  unfold State.push
  split
  · unfold State.acceptPush
    extract_lets z cyc x s0 t s1 r stale h1 vis fwd y s2
    have h0 : s0.o k = s.o k := State.trace_o _ _ _ _ _ _ _ _ h
    clear_value s0
    split
    · split
      · exact h0
      · split
        · exact (State.sendPair_o s1 _ _ _ _ _ _ _ _ hk).trans h0
        · exact h0
    · split
      · exact (State.logEv_o (s2.event 0x063 u 1) _ _ _ _ _ h).trans h0
      · exact h0
  · unfold State.refusePush
    dsimp only
    rw [State.logEv_o _ _ _ _ _ _ h]; rfl

/-- An announcement changes no object but those and the count of the announcements its window did not make. -/
theorem State.announce_o (s : State) (n w k : Nat) (h : logKey k = false) (hk : k ≠ 0xC00006) (hn : k ≠ ok (0x6200 + n) 5) :
    (s.announce n w).o k = s.o k := by
  unfold State.announce
  dsimp only
  generalize hq : fld (s.win n 1) 0 5 = q
  generalize hh : mkHandle _ _ _ _ _ _ = x
  split
  · rfl
  · split
    · exact s.push_o _ _ _ _ _ h hk
    · rw [State.incO, State.o_setO, if_neg hn]; exact s.push_o _ _ _ _ _ h hk

/-- A write that lands in a window stores its bytes, and counts its granules. -/
theorem State.windowStore_frame (s : State) (n off : Nat) (d : List Byte) :
    ∃ b o e, s.windowStore n off d =
      { s with mem := Tbl.setList Memory.dflt s.mem (memBase (s.windowAt n off).1 + (s.windowAt n off).2) d
               obs := b, obj := o, ecc := e } := by
  obtain ⟨⟨b, o, e, h⟩, _⟩ := Stored.sramWrite s (memBase (s.windowAt n off).1 + (s.windowAt n off).2) d
  unfold State.windowStore
  dsimp only
  rw [h]
  exact ⟨_, _, _, rfl⟩

theorem State.windowStore_o (s : State) (n off : Nat) (d : List Byte) (h : n < 64) :
    (s.windowStore n off d).o (ok (0x6200 + n) 3) =
      satAdd (objMax (ok (0x6200 + n) 3)) (s.o (ok (0x6200 + n) 3)) (d.length / 64) := by
  obtain ⟨_, g⟩ := Stored.sramWrite s (memBase (s.windowAt n off).1 + (s.windowAt n off).2) d
  unfold State.windowStore State.incO
  dsimp only
  rw [State.o_setO, if_pos rfl, g _ (by simp) (by unfold logKey ok; simp; omega)]

theorem State.windowRefused_frame (s : State) (n own : Nat) :
    ∃ p o, s.windowRefused n own = { s with obs := p, obj := o } := by
  unfold State.windowRefused
  obtain ⟨p, o, e⟩ := State.logEv_frame ((s.incO (ok (0x6200 + n) 4) 1).event 0x086 (s.windowAt n 0).1 1) 0x0E 7 0
    { own := some own, detail := n }
  exact ⟨p, o, e⟩

theorem State.pushAll_frame (u q : Nat) (p : Pusher) (l : List W32) : ∀ (s : State),
    ∃ x b o f r i, s.pushAll u q l p = { s with hqs := x, obs := b, obj := o, forwards := f, rels := r, inject := i } := by
  unfold State.pushAll
  induction l with
  | nil => intro s; exact ⟨_, _, _, _, _, _, rfl⟩
  | cons h l ih =>
    intro s
    obtain ⟨x, b, o, f, r, i, e⟩ := s.push_frame u q h p
    rw [List.foldl_cons, e]
    obtain ⟨x, b, o, f, r, i, e⟩ := ih { s with hqs := x, obs := b, obj := o, forwards := f, rels := r, inject := i }
    exact ⟨x, b, o, f, r, i, e⟩

/-- The pushes of a command that ends change what pushes change. -/
theorem State.pushOutputs_frame (s : State) (core : Nat) (c : Cmd) (a d : List W32) (k i e : Bool) :
    ∃ x b o f r j, s.pushOutputs core c a d k i e =
      { s with hqs := x, obs := b, obj := o, forwards := f, rels := r, inject := j } := by
  unfold State.pushOutputs
  obtain ⟨x, b, o, f, r, j, h1⟩ := s.pushAll_frame (core / 4) c.outq (.local_ (some (core * 8 + c.eng, c.ctx))) (outHandles c a d k i e)
  dsimp only
  rw [h1]
  obtain ⟨x, b, o, f, r, j, h1⟩ := State.pushAll_frame (core / 4) c.retq (.local_ (some (core * 8 + c.eng, c.ctx))) a
    { s with hqs := x, obs := b, obj := o, forwards := f, rels := r, inject := j }
  rw [h1]
  split
  · obtain ⟨x, b, o, f, r, j, h1⟩ := State.pushAll_frame (core / 4) (fld c.w3 0 5) (.local_ (some (core * 8 + c.eng, c.ctx))) _
      { s with hqs := x, obs := b, obj := o, forwards := f, rels := r, inject := j }
    exact ⟨x, b, o, f, r, j, h1⟩
  · exact ⟨_, _, _, _, _, _, rfl⟩

/-- A push to one queue leaves every other as it was. -/
theorem State.push_hq (s : State) (u q : Nat) (h : W32) (p : Pusher) (v r : Nat) (ne : v * 32 + r ≠ u * 32 + q) :
    (s.push u q h p).hq v r = s.hq v r := by
  have key : ∀ (t : State), t.hqs = s.hqs → ∀ y, (t.setHq u q y).hq v r = s.hq v r := by
    intro t ht y
    rw [State.hq_setHq_other _ _ _ _ _ _ ne]
    unfold State.hq
    rw [ht]
  have hl : ∀ (t : State) (a b c i), (t.logEv a b c i).hq v r = t.hq v r := by
    intro t a b c i
    obtain ⟨_, _, e⟩ := t.logEv_frame a b c i
    rw [e]; rfl
  unfold State.push
  split
  · unfold State.acceptPush
    obtain ⟨b, o, e⟩ := (s.event 0x060 u 1).trace_frame 3 u 7 none (q + 128) h.toNat
    extract_lets z cyc x s0 t s1 r' stale h1 vis fwd y s2
    have h0 : s0.hqs = s.hqs := by unfold s0; rw [e]; rfl
    clear_value s0
    split
    · split
      · exact key _ h0 _
      · split
        · obtain ⟨_, _, _, e⟩ := State.sendPair_frame s1 0x03 t.dev h.toNat u q t.unit t.q
          unfold r'
          rw [e]; exact key _ h0 _
        · exact key _ h0 _
    · split
      · rw [hl]; exact key _ h0 _
      · exact key _ h0 _
  · unfold State.refusePush
    dsimp only
    rw [hl]
    exact key s rfl _

theorem State.pushAll_hq (u q : Nat) (p : Pusher) (v r : Nat) (ne : v * 32 + r ≠ u * 32 + q) (l : List W32) : ∀ (s : State),
    (s.pushAll u q l p).hq v r = s.hq v r := by
  unfold State.pushAll
  induction l with
  | nil => intro s; rfl
  | cons h l ih => intro s; rw [List.foldl_cons, ih, s.push_hq u q h p v r ne]

/-- The pushes of a command that ends reach its OUTQ, its RETQ and, for HINIT, its HQ. -/
theorem State.pushOutputs_hq (s : State) (core : Nat) (c : Cmd) (a d : List W32) (k i e : Bool) (v r : Nat) (hr : r < 32)
    (ne : v ≠ core / 4 ∨ (r ≠ c.outq ∧ r ≠ c.retq ∧ (c.opc = 0x60 → r ≠ fld c.w3 0 5))) :
    (s.pushOutputs core c a d k i e).hq v r = s.hq v r := by
  have ho : c.outq < 32 := by unfold Cmd.outq fld; omega
  have hq : c.retq < 32 := by unfold Cmd.retq fld; omega
  have hh : fld c.w3 0 5 < 32 := by unfold fld; omega
  unfold State.pushOutputs
  dsimp only
  split
  · rename_i he
    have hc : c.opc = 0x60 := by simp at he; exact he.2
    rw [State.pushAll_hq _ _ _ _ _ (by have := fun h => ne.imp id (fun x => x.2.2 hc h); omega),
      State.pushAll_hq _ _ _ _ _ (by omega), State.pushAll_hq _ _ _ _ _ (by omega)]
  · rw [State.pushAll_hq _ _ _ _ _ (by omega), State.pushAll_hq _ _ _ _ _ (by omega)]

end Sys2Proof.Machine
end

