-- ==== Sys2Proof/Laws/Issue.lean ====
section
/-! SUPPORT. What issuing a command can change. -/

namespace Sys2Proof.Machine

/-- A change of one engine of a core leaves the rest of the state. -/
theorem State.setEngine_facts (s : State) (c e : Nat) (y : Engine) :
    (∀ d, d ≠ c → (s.setEngine c e y).core d = s.core d) ∧
      (∀ i, (s.setEngine c e y).engine c i = if i = e then y else s.engine c i) ∧
      s.setEngine c e y = { s with cores := (s.setEngine c e y).cores } := by
  refine ⟨fun d h => by simp [h], fun i => ?_, rfl⟩
  simp only [State.engine, State.setEngine_core, if_pos, Core.setEngine_engine]

theorem State.dequeue_facts (s : State) (core e : Nat) (c : Cmd) (rt : Bool) :
    (∀ d, d ≠ core → (s.dequeue core e c rt).core d = s.core d) ∧
      (∀ i, i ≠ e → (s.dequeue core e c rt).engine core i = s.engine core i) ∧
      ((s.dequeue core e c rt).engine core e).queue = dropClass (s.core core) rt (s.engine core e).queue ∧
      ((s.dequeue core e c rt).engine core e).flights = (s.engine core e).flights ∧
      ((s.dequeue core e c rt).engine core e).lastIssue = some (s.coreCycle core) ∧
      (∃ y, (s.dequeue core e c rt).core core = (s.core core).setEngine e y) ∧
      s.dequeue core e c rt = { s with cores := (s.dequeue core e c rt).cores } := by
  unfold State.dequeue
  dsimp only
  obtain ⟨h1, h2, h3⟩ := s.setEngine_facts core e
    (if c.slotEnd = true then
      if rt = true then { ({ (s.core core).engine e with
        queue := dropClass (s.core core) rt ((s.core core).engine e).queue, lastIssue := some (s.coreCycle core) } : Engine) with
          slotIdx := ((s.core core).engine e).slotIdx + 1 }
      else { ({ (s.core core).engine e with
        queue := dropClass (s.core core) rt ((s.core core).engine e).queue, lastIssue := some (s.coreCycle core) } : Engine) with
          beStart := none }
     else { (s.core core).engine e with
        queue := dropClass (s.core core) rt ((s.core core).engine e).queue, lastIssue := some (s.coreCycle core) })
  refine ⟨h1, fun i hi => (h2 i).trans (if_neg hi), ?_, ?_, ?_, ⟨_, by rw [State.setEngine_core, if_pos rfl]⟩, h3⟩
  · rw [h2 e, if_pos rfl]; split
    · split <;> rfl
    · rfl
  · rw [h2 e, if_pos rfl]; split
    · split <;> rfl
    · rfl
  · rw [h2 e, if_pos rfl]; split
    · split <;> rfl
    · rfl

theorem State.issueTake_frame (s : State) (core : Nat) (q : QEntry) (rt : Bool) :
    ∃ x b o c r i, (s.issueTake core q rt).2.2 =
      { s.dequeue core q.cmd.eng q.cmd rt with hqs := x, obs := b, obj := o, credits := c, rels := r, inject := i } := by
  unfold State.issueTake
  dsimp only
  obtain ⟨b, o, e⟩ := (s.dequeue core q.cmd.eng q.cmd rt).trace_frame 1 core q.cmd.eng (some q.cmd.ctx) q.cmd.opc
    (q.pos + b01 rt * 64 + fld q.cmd.w1 0 16 * 2 ^ 16)
  rw [e]
  generalize s.dequeue core q.cmd.eng q.cmd rt = d at *
  split
  · exact ⟨_, _, _, _, _, _, rfl⟩
  · obtain ⟨x, b', c, r, o', i, e1⟩ := State.pop_frame { d with obs := b, obj := o } (core / 4) q.cmd.inq q.cmd.inN (core * 8 + q.cmd.eng)
    dsimp only
    rw [e1]
    obtain ⟨x, b', c, r, o', i, e1⟩ := State.pop_frame
      { d with hqs := x, obs := b', obj := o', credits := c, rels := r, inject := i } (core / 4) q.cmd.freeq q.cmd.freeN (core * 8 + q.cmd.eng)
    exact ⟨x, b', o', c, r, i, e1⟩

/-- What the issue of an ME command leaves of its core: its engines and predicates, for one. -/
theorem State.meIssue_facts (s : State) (core : Nat) (b : Bound) (n r f d : Nat) :
    (∀ k, k ≠ core → (s.meIssue core b n r f d).1.core k = s.core k) ∧
      (∀ i, (s.meIssue core b n r f d).1.engine core i = s.engine core i) ∧
      ∃ c p, (s.meIssue core b n r f d).1 = { s with cores := c, obs := p } := by
  have h0 : ∀ t : State, (∀ k, k ≠ core → (t.loseHold core).core k = t.core k) ∧
      (∀ i, (t.loseHold core).engine core i = t.engine core i) ∧ ∃ c p, t.loseHold core = { t with cores := c, obs := p } := by
    intro t
    unfold State.loseHold
    dsimp only
    split
    · refine ⟨fun k hk => ?_, fun i => ?_, _, _, rfl⟩
      · show State.core (t.setCore _ _) k = _; simp [hk]
      · show Core.engine (State.core (t.setCore _ _) _) i = _; simp [Core.engine, State.engine]
    · exact ⟨fun _ _ => rfl, fun _ => rfl, _, _, rfl⟩
  have h1 : ∃ t : State, (if (isMatrix b.cmd && b.cmd.init == 2) = true then s else s.loseHold core) = t ∧
      (∀ k, k ≠ core → t.core k = s.core k) ∧ (∀ i, t.engine core i = s.engine core i) ∧
      ∃ c p, t = { s with cores := c, obs := p } := by
    refine ⟨_, rfl, ?_⟩
    split
    · exact ⟨fun _ _ => rfl, fun _ => rfl, _, _, rfl⟩
    · exact h0 s
  obtain ⟨t, ht, k1, k2, c, p, k3⟩ := h1
  unfold State.meIssue
  dsimp only
  rw [ht]
  generalize (match (t.core core).held with
    | some h => if (isMatrix b.cmd && b.cmd.init == 2) = true then h.bank else 1 - (t.core core).lastBank
    | none => 1 - (t.core core).lastBank) = bank
  have ev : ∀ (g h : Bool) (x : Core) (a : Nat) (v : Nat), (∀ i, x.engine i = (t.core core).engine i) →
      ∀ u : State, u = (if g = true then
          (if h = true then ((t.setCore core x).event 0x001 core a).event 0x003 core 1
            else (t.setCore core x).event 0x001 core a).event 0x000 core v
        else if h = true then ((t.setCore core x).event 0x001 core a).event 0x003 core 1
        else (t.setCore core x).event 0x001 core a) →
        (∀ k, k ≠ core → u.core k = s.core k) ∧ (∀ i, u.engine core i = s.engine core i) ∧
        ∃ c p, u = { s with cores := c, obs := p } := by
    intro g h x a v hx
    have g1 : ∀ u : State, u.cores = (t.setCore core x).cores → (∀ k, k ≠ core → u.core k = s.core k) ∧
        ∀ i, u.engine core i = s.engine core i := by
      intro u hu
      have hc : ∀ k, u.core k = (t.setCore core x).core k := by intro k; unfold State.core; rw [hu]
      refine ⟨fun k hk => ?_, fun i => ?_⟩
      · rw [hc, State.core_setCore, if_neg hk, k1 k hk]
      · unfold State.engine; rw [hc, State.core_setCore, if_pos rfl, hx]; exact k2 i
    intro u hu
    subst hu
    cases g <;> cases h <;> exact ⟨(g1 _ rfl).1, (g1 _ rfl).2, _, _, by rw [k3]; rfl⟩
  split
  · dsimp only
    refine ev b.feeds (b.feeds && b.cmd.rampExempt && r != 0) _ _ _ ?_ _ rfl
    exact fun _ => rfl
  · exact ⟨k1, k2, c, p, k3⟩

/-- The swap of a SCALE_SWAP changes no engine and nothing but its core. -/
theorem State.swapAtIssue_facts (s : State) (core : Nat) (c : Cmd) :
    (∀ k, k ≠ core → (s.swapAtIssue core c).core k = s.core k) ∧
      (∀ i, (s.swapAtIssue core c).engine core i = s.engine core i) ∧
      ∃ x, s.swapAtIssue core c = { s with cores := x } := by
  unfold State.swapAtIssue
  split
  · refine ⟨fun k hk => by simp [hk], fun i => ?_, _, rfl⟩
    unfold State.engine
    rw [State.core_setCore, if_pos rfl]; rfl
  · exact ⟨fun _ _ => rfl, fun _ => rfl, _, rfl⟩

/-- A launch adds the command to its engine. -/
theorem State.launch_facts (s : State) (core : Nat) (q : QEntry) (rt rst : Bool) (b : Bound) (ins frees : List W32) :
    (∀ k, k ≠ core → (s.launch core q rt rst b ins frees).core k = s.core k) ∧
      (∀ i, i ≠ q.cmd.eng → (s.launch core q rt rst b ins frees).engine core i = s.engine core i) ∧
      (∃ f, (s.launch core q rt rst b ins frees).engine core q.cmd.eng =
          { s.engine core q.cmd.eng with flights := (s.engine core q.cmd.eng).flights ++ [f] } ∧
        f.cmd = q.cmd ∧ f.pos = q.pos ∧ f.rt = rt ∧ f.issue = s.coreCycle core ∧ f.ins = ins ∧ f.frees = frees ∧
        f.views = b.views ∧ f.geo = b.geo ∧ f.sdesc = b.sdesc ∧ f.seed = (s.core core).seed q.cmd.ctx ∧
        f.bank = (s.core core).scaleBank ∧ f.done = false ∧ f.status = 0 ∧ f.rstcmd = rst ∧ f.stall = 0) ∧
      ∃ c p, s.launch core q rt rst b ins frees = { s with cores := c, obs := p } := by
  have h1 : ∃ p : State × Nat, (if q.cmd.eng = 0 then
        s.meIssue core b (s.coreCycle core) ((s.core core).ramp b (s.coreCycle core))
          (b.time ((s.core core).ramp b (s.coreCycle core))).2 (b.time ((s.core core).ramp b (s.coreCycle core))).1
      else (s, 0)) = p ∧
      (∀ k, k ≠ core → p.1.core k = s.core k) ∧ (∀ i, p.1.engine core i = s.engine core i) ∧
      ∃ c o, p.1 = { s with cores := c, obs := o } := by
    refine ⟨_, rfl, ?_⟩
    split
    · exact s.meIssue_facts core b _ _ _ _
    · exact ⟨fun _ _ => rfl, fun _ => rfl, _, _, rfl⟩
  obtain ⟨p, hp, k1, k2, c, o, k3⟩ := h1
  unfold State.launch
  dsimp only
  rw [hp]
  generalize hf : (Flight.mk q.cmd q.pos rt (s.coreCycle core) (b.time ((s.core core).ramp b (s.coreCycle core))).1
    (s.coreCycle core + (b.time ((s.core core).ramp b (s.coreCycle core))).2) ins frees b.views b.geo b.sdesc
    ((s.core core).seed q.cmd.ctx) (s.core core).scaleBank p.2 s.now false false 0 false none rst
    ((s.core core).ramp b (s.coreCycle core)) 0) = f
  have hm := p.1.setEngine_facts core q.cmd.eng
    { p.1.engine core q.cmd.eng with flights := (p.1.engine core q.cmd.eng).flights ++ [f] }
  dsimp only at hm
  generalize p.1.setEngine core q.cmd.eng _ = u at hm ⊢
  obtain ⟨m1, m2, m3⟩ := hm
  obtain ⟨w1, w2, c', w3⟩ := u.swapAtIssue_facts core q.cmd
  refine ⟨fun k hk => (w1 k hk).trans ((m1 k hk).trans (k1 k hk)),
    fun i hi => (w2 i).trans ((m2 i).trans ((if_neg hi).trans (k2 i))), ⟨f, ?_, ?_⟩, ?_⟩
  · rw [w2, m2, if_pos rfl, k2]
  · rw [← hf]; exact ⟨rfl, rfl, rfl, rfl, rfl, rfl, rfl, rfl, rfl, rfl, rfl, rfl, rfl, rfl, rfl⟩
  · rw [w3, m3, k3]; exact ⟨_, _, rfl⟩

theorem State.countWindow_frame (s : State) (c : Cmd) (n : Nat) :
    ∃ p o, s.countWindow c n = { s with obs := p, obj := o } := by
  unfold State.countWindow
  split
  · exact ⟨_, _, rfl⟩
  · exact ⟨_, _, rfl⟩

/-- What a refused command counts and logs. -/
theorem State.refusal_frame (s : State) (core : Nat) (q : QEntry) (n : Nat) : ∃ p o,
    (if n = 0 then s else (State.countWindow (if q.cmd.eng = 0 then s.event 0x005 core 1 else
      if q.cmd.eng = 1 then s.event 0x00A core 1 else s) q.cmd n).logCmd 0x0E core q.cmd q.pos n) = { s with obs := p, obj := o } := by
  split
  · exact ⟨_, _, rfl⟩
  · have h1 : ∃ p, (if q.cmd.eng = 0 then s.event 0x005 core 1 else
        if q.cmd.eng = 1 then s.event 0x00A core 1 else s) = { s with obs := p } := by
      split
      · exact ⟨_, rfl⟩
      · split <;> exact ⟨_, rfl⟩
    obtain ⟨p, h1⟩ := h1
    rw [h1]
    obtain ⟨p, o, h2⟩ := State.countWindow_frame { s with obs := p } q.cmd n
    rw [h2]
    obtain ⟨p, o, h3⟩ := State.logEv_frame { s with obs := p, obj := o } 0x0E 1 core
      { eng := q.cmd.eng, own := some q.cmd.own, ctx := some q.cmd.ctx, status := n, detail := q.pos }
    exact ⟨p, o, h3⟩

/-- A command that passes pushes its handles and changes no engine. -/
theorem State.pass_frame (s : State) (core : Nat) (q : QEntry) (ins frees : List W32) (a b : Bool) (n : Nat) :
    ∃ x p o f r i, s.pass core q ins frees a b n =
      { s with hqs := x, obs := p, obj := o, forwards := f, rels := r, inject := i } := by
  obtain ⟨p, o, h1⟩ := s.refusal_frame core q n
  unfold State.pass
  dsimp only
  rw [h1]
  obtain ⟨x, p, o, f, r, i, e⟩ := State.pushOutputs_frame { s with obs := p, obj := o } core q.cmd ins frees a b false
  rw [e]
  obtain ⟨p, o, e⟩ := State.trace_frame { s with hqs := x, obs := p, obj := o, forwards := f, rels := r, inject := i }
    2 core q.cmd.eng (some q.cmd.ctx) q.cmd.opc (n + b01 a * 256 + b01 b * 512)
  exact ⟨x, p, o, f, r, i, e⟩

theorem Core.noteMark_engine (x : Core) (c : Cmd) (rt : Bool) (i : Nat) : (x.noteMark c rt).engine i = x.engine i := by
  unfold Core.noteMark
  split <;> rfl

end Sys2Proof.Machine
end

