-- ==== Sys2Proof/Laws/MemoryForm.lean ====
section
/-! SUPPORT. Every operation of the model that stores bytes keeps memory in its canonical form. -/

namespace Sys2Proof.Machine

theorem foldl_form {α : Type} (f : State → α → State)
    (h : ∀ t x, Memory.wf t.mem = true → Memory.wf (f t x).mem = true) :
    ∀ (l : List α) (s : State), Memory.wf s.mem = true → Memory.wf (l.foldl f s).mem = true
  | [], _, w => w
  | x :: r, s, w => foldl_form f h r (f s x) (h s x w)
theorem foldl_fst_form {α β : Type} (f : State × β → α → State × β)
    (h : ∀ t x, Memory.wf t.1.mem = true → Memory.wf (f t x).1.mem = true) :
    ∀ (l : List α) (s : State × β), Memory.wf s.1.mem = true → Memory.wf (l.foldl f s).1.mem = true
  | [], _, w => w
  | x :: r, s, w => foldl_fst_form f h r (f s x) (h s x w)
theorem reset_form : Memory.wf State.reset.mem = true := rfl

theorem State.poke_form (s : State) (a : Nat) (l : List Byte) (h : Memory.wf s.mem = true) :
    Memory.wf (State.poke s a l).mem = true := by
  unfold State.poke
  exact Tbl.wf_setList _ _ _ _ h
theorem State.sramWrite_form (s : State) (a : Nat) (l : List Byte) (h : Memory.wf s.mem = true) :
    Memory.wf (State.sramWrite s a l).mem = true := by
  unfold State.sramWrite
  try dsimp only [State.fresh]
  repeat' (first | with_reducible assumption | with_reducible rfl | with_reducible exact reset_form | (with_reducible apply State.poke_form) | (rw [State.writeWord_mem]) | (with_reducible refine foldl_form _ (fun t x ht => ?_) _ _ ?_) | (with_reducible refine foldl_fst_form _ (fun t x ht => ?_) _ _ ?_) | split | (intro _) | (dsimp only [State.fresh]))
theorem State.putDim_form (s : State) (n : Nat) (w : Nat) (v : Nat) (h : Memory.wf s.mem = true) :
    Memory.wf (State.putDim s n w v).mem = true := by
  unfold State.putDim
  try dsimp only [State.fresh]
  repeat' (first | with_reducible assumption | with_reducible rfl | with_reducible exact reset_form | (with_reducible apply State.sramWrite_form) | (with_reducible refine foldl_form _ (fun t x ht => ?_) _ _ ?_) | (with_reducible refine foldl_fst_form _ (fun t x ht => ?_) _ _ ?_) | split | (intro _) | (dsimp only [State.fresh]))
theorem State.adaptStart_form (s : State) (n : Nat) (h : Memory.wf s.mem = true) :
    Memory.wf (State.adaptStart s n).mem = true := by
  unfold State.adaptStart
  try dsimp only [State.fresh]
  repeat' (first | with_reducible assumption | with_reducible rfl | with_reducible exact reset_form | (with_reducible apply State.putDim_form) | (rw [State.obtainHalves_mem]) | (rw [State.setAdapt_mem]) | (rw [State.setO_mem]) | (with_reducible refine foldl_form _ (fun t x ht => ?_) _ _ ?_) | (with_reducible refine foldl_fst_form _ (fun t x ht => ?_) _ _ ?_) | split | (intro _) | (dsimp only [State.fresh]))
theorem State.pokeFree_form (s : State) (a : Nat) (n : Nat) (h : Memory.wf s.mem = true) :
    Memory.wf (State.pokeFree s a n).mem = true := by
  unfold State.pokeFree
  try dsimp only [State.fresh]
  repeat' (first | with_reducible assumption | with_reducible rfl | with_reducible exact reset_form | (with_reducible apply State.sramWrite_form) | (with_reducible refine foldl_form _ (fun t x ht => ?_) _ _ ?_) | (with_reducible refine foldl_fst_form _ (fun t x ht => ?_) _ _ ?_) | split | (intro _) | (dsimp only [State.fresh]))
theorem State.enterP3_form (s : State) (h : Memory.wf s.mem = true) :
    Memory.wf (State.enterP3 s).mem = true := by
  unfold State.enterP3
  try dsimp only [State.fresh]
  repeat' (first | with_reducible assumption | with_reducible rfl | with_reducible exact reset_form | (with_reducible apply State.pokeFree_form) | (rw [State.retainCluster_mem]) | (rw [State.setPll_mem]) | (rw [State.selfRefreshAll_mem]) | (with_reducible refine foldl_form _ (fun t x ht => ?_) _ _ ?_) | (with_reducible refine foldl_fst_form _ (fun t x ht => ?_) _ _ ?_) | split | (intro _) | (dsimp only [State.fresh]))
theorem State.dropBytes_form (s : State) (p : Nat → Bool) (h : Memory.wf s.mem = true) :
    Memory.wf (State.dropBytes s p).mem = true := by
  unfold State.dropBytes
  exact Tbl.wf_filter _ _ _ h
theorem State.resetUnits_form (s : State) (h : Memory.wf s.mem = true) :
    Memory.wf (State.resetUnits s).mem = true := by
  unfold State.resetUnits
  try dsimp only [State.fresh]
  repeat' (first | with_reducible assumption | with_reducible rfl | with_reducible exact reset_form | (with_reducible apply State.dropBytes_form) | (rw [State.setCore_mem]) | (rw [State.setCluster_mem]) | (with_reducible refine foldl_form _ (fun t x ht => ?_) _ _ ?_) | (with_reducible refine foldl_fst_form _ (fun t x ht => ?_) _ _ ?_) | split | (intro _) | (dsimp only [State.fresh]))
theorem State.keep_form (s : State) (k : Nat) (fails : Bool) (put : Flash → Flash) (r : State × Nat) (hr : Memory.wf r.1.mem = true) (h : Memory.wf s.mem = true) :
    Memory.wf (State.keep s k fails put r).1.mem = true := by
  unfold State.keep
  split
  · exact hr
  · split
    · rw [State.setSticky_mem]; exact hr
    · split
      · rw [State.incO_mem]; exact h
      · rw [State.incO_mem]; exact hr
theorem State.dropSegments_form (s : State) (h : Memory.wf s.mem = true) :
    Memory.wf (State.dropSegments s).mem = true := by
  unfold State.dropSegments
  try dsimp only [State.fresh]
  repeat' (first | with_reducible assumption | with_reducible rfl | with_reducible exact reset_form | (with_reducible apply State.keep_form) | (with_reducible apply State.dropBytes_form) | (rw [State.dropImage_mem]) | (rw [State.rgnSettle_mem]) | (rw [State.setO_mem]) | (rw [State.rgnInstall_mem]) | (rw [State.selfRefreshAll_mem]) | (with_reducible refine foldl_form _ (fun t x ht => ?_) _ _ ?_) | (with_reducible refine foldl_fst_form _ (fun t x ht => ?_) _ _ ?_) | split | (intro _) | (dsimp only [State.fresh]))
theorem State.enterP4_form (s : State) (h : Memory.wf s.mem = true) :
    Memory.wf (State.enterP4 s).mem = true := by
  unfold State.enterP4
  try dsimp only [State.fresh]
  repeat' (first | with_reducible assumption | with_reducible rfl | with_reducible exact reset_form | (with_reducible apply State.dropSegments_form) | (with_reducible apply State.resetUnits_form) | (with_reducible apply State.dropBytes_form) | (rw [State.abortPublications_mem]) | (rw [State.writeSummary_mem]) | (rw [State.endHandoff_mem]) | (rw [State.endTransfers_mem]) | (rw [State.laneOff_mem]) | (rw [State.resetContexts_mem]) | (rw [State.resetWindows_mem]) | (rw [State.clearLoopQueues_mem]) | (rw [State.leaveRun_mem]) | (rw [State.withLoop_mem]) | (rw [State.setO_mem]) | (rw [State.setPll_mem]) | (rw [State.stage_mem]) | (with_reducible refine foldl_form _ (fun t x ht => ?_) _ _ ?_) | (with_reducible refine foldl_fst_form _ (fun t x ht => ?_) _ _ ?_) | split | (intro _) | (dsimp only [State.fresh]))
theorem State.completeEntry_form (s : State) (h : Memory.wf s.mem = true) :
    Memory.wf (State.completeEntry s).mem = true := by
  unfold State.completeEntry
  try dsimp only [State.fresh]
  repeat' (first | with_reducible assumption | with_reducible rfl | with_reducible exact reset_form | (with_reducible apply State.enterP3_form) | (with_reducible apply State.enterP4_form) | (rw [State.setCurrent_mem]) | (rw [State.settle_mem]) | (with_reducible refine foldl_form _ (fun t x ht => ?_) _ _ ?_) | (with_reducible refine foldl_fst_form _ (fun t x ht => ?_) _ _ ?_) | split | (intro _) | (dsimp only [State.fresh]))
theorem untilStop_form {α : Type} (l : List α) (s : State) (f : State → α → State × Nat) (h_f : ∀ t a1, Memory.wf t.mem = true → Memory.wf (f t a1).1.mem = true) (h : Memory.wf s.mem = true) :
    Memory.wf (untilStop l s f).1.mem = true := by
  unfold untilStop
  try dsimp only [State.fresh]
  repeat' (first | with_reducible assumption | with_reducible rfl | with_reducible exact reset_form | (with_reducible apply h_f) | (with_reducible refine foldl_form _ (fun t x ht => ?_) _ _ ?_) | (with_reducible refine foldl_fst_form _ (fun t x ht => ?_) _ _ ?_) | split | (intro _) | (dsimp only [State.fresh]))
theorem State.restoreRegion_form (n core a : Nat) (q : Requester) (t : State) (r : Nat × Nat) (h : Memory.wf t.mem = true) :
    Memory.wf (State.restoreRegion n core a q t r).1.mem = true := by
  have hp : Memory.wf (t.pointSave n core r.1 (a + 128 + r.2 * 0x8000)).mem = true := by rw [State.pointSave_mem]; exact h
  unfold State.restoreRegion
  dsimp only
  split
  · rw [State.farReadRun_mem]; exact hp
  · split
    · refine State.sramWrite_form _ _ _ ?_
      rw [State.farReadRun_mem]; exact hp
    · rw [State.farReadRun_mem]; exact hp
theorem restoreFrom_form (n core : Nat) (a : Nat × Requester) (r : State × Nat × List Byte) (h : Memory.wf r.1.mem = true) :
    Memory.wf (restoreFrom n core a r).1.mem = true := by
  unfold restoreFrom
  split
  · exact h
  · rw [restoreEnd_mem]
    exact untilStop_form _ _ _ (fun t x ht => State.restoreRegion_form _ _ _ _ _ _ ht) h
theorem resumed_form (n : Nat) (r : State × Nat) (h : Memory.wf r.1.mem = true) :
    Memory.wf (resumed n r).mem = true := by
  unfold resumed
  split
  · rw [State.saveFailed_mem]; exact h
  · rw [State.setCtxState_mem, State.setCtxEn_mem, State.enterTable_mem]; exact h
theorem ite_form (c : Prop) [Decidable c] (a b : State × Nat) (ha : Memory.wf a.1.mem = true)
    (hb : Memory.wf b.1.mem = true) : Memory.wf (if c then a else b).1.mem = true := by
  split
  · exact ha
  · exact hb
theorem pair_form (s : State) (b : Nat) (h : Memory.wf s.mem = true) : Memory.wf (s, b).1.mem = true := h
theorem State.restoreCore_eq (s : State) (n core : Nat) :
    s.restoreCore n core = if Tbl.get 0 s.saved (64 + 32 * n + core) = (s.core core).width + 1 then
      restoreFrom n core (s.saveRecord n core) (s.farReadRun (s.saveRecord n core).2 (s.saveRecord n core).1 128)
    else (s, 0x04) := rfl
theorem restoreRead_form (s : State) (n core : Nat) (a : Nat × Requester) (h : Memory.wf s.mem = true) :
    Memory.wf (restoreFrom n core a (s.farReadRun a.2 a.1 128)).1.mem = true :=
  restoreFrom_form _ _ _ _ (by rw [State.farReadRun_mem]; exact h)
theorem State.restoreCore_form (s : State) (n : Nat) (core : Nat) (h : Memory.wf s.mem = true) :
    Memory.wf (State.restoreCore s n core).1.mem = true :=
  Eq.subst (motive := fun r => Memory.wf r.1.mem = true) (State.restoreCore_eq s n core).symm
    (ite_form _ _ _ (restoreRead_form s n core (s.saveRecord n core) h) (pair_form s 4 h))
theorem resumeCore_form (n : Nat) (s : State) (core : Nat) (h : Memory.wf s.mem = true) :
    Memory.wf (resumeCore n s core).1.mem = true :=
  State.restoreCore_form s n core h
theorem resumedRun_form (s : State) (n : Nat) (h : Memory.wf s.mem = true) :
    Memory.wf (resumed n (untilStop (s.configCores n) s (resumeCore n)), 0).1.mem = true :=
  pair_form _ 0 (resumed_form _ _ (untilStop_form _ _ _ (fun t x ht => resumeCore_form n t x ht) h))
theorem State.ctxResume_eq (s : State) (n : Nat) : s.ctxResume n = if s.ctxState n ≠ 4 then (s, 0x06)
    else (resumed n (untilStop (s.configCores n) s (resumeCore n)), 0) := rfl
theorem State.ctxResume_form (s : State) (n : Nat) (h : Memory.wf s.mem = true) :
    Memory.wf (State.ctxResume s n).1.mem = true := 
  Eq.subst (motive := fun r => Memory.wf r.1.mem = true) (State.ctxResume_eq s n).symm
    (ite_form _ _ _ (pair_form s 6 h) (resumedRun_form s n h))
theorem State.resumeRequest_form (s : State) (n : Nat) (h : Memory.wf s.mem = true) :
    Memory.wf (State.resumeRequest s n).1.mem = true := by
  unfold State.resumeRequest
  try dsimp only [State.fresh]
  repeat' (first | with_reducible assumption | with_reducible rfl | with_reducible exact reset_form | (with_reducible apply State.ctxResume_form) | (rw [State.holdResume_mem]) | (with_reducible refine foldl_form _ (fun t x ht => ?_) _ _ ?_) | (with_reducible refine foldl_fst_form _ (fun t x ht => ?_) _ _ ?_) | split | (intro _) | (dsimp only [State.fresh]))
theorem State.changeFreqs_form (s : State) (h : Memory.wf s.mem = true) :
    Memory.wf (State.changeFreqs s).mem = true := by
  unfold State.changeFreqs
  try dsimp only [State.fresh]
  repeat' (first | with_reducible assumption | with_reducible rfl | with_reducible exact reset_form | (with_reducible apply State.resumeRequest_form) | (with_reducible refine foldl_form _ (fun t x ht => ?_) _ _ ?_) | (with_reducible refine foldl_fst_form _ (fun t x ht => ?_) _ _ ?_) | split | (intro _) | (dsimp only [State.fresh]))
theorem tryConfig_mem (s : State) (n k : Nat) (img : List Byte) (cores codes : List Nat) (tuple : Nat) (m : Mapped × State)
    (h : (s.tryConfig n k img cores codes tuple).mapped = some m) : m.2.mem = s.mem := by
  unfold State.tryConfig at h
  dsimp only at h
  have h0 : ∀ (o : Option Mapped), (match o with | some m => s.dropQueues m | none => s : State).mem = s.mem := by
    intro o; cases o <;> simp
  split at h
  · cases h
  · split at h
    · cases h
    · split at h
      · cases h
      · rw [← Option.some.inj h]
        exact (State.installQueues_mem ..).trans (h0 _)
theorem State.wipe_form (s : State) (a : Nat) (n : Nat) (h : Memory.wf s.mem = true) :
    Memory.wf (State.wipe s a n).mem = true := by
  unfold State.wipe
  exact Tbl.wf_clear _ _ _ _ h
theorem State.sramClear_form (s : State) (a : Nat) (n : Nat) (h : Memory.wf s.mem = true) :
    Memory.wf (State.sramClear s a n).mem = true := by
  unfold State.sramClear
  try dsimp only [State.fresh]
  repeat' (first | with_reducible assumption | with_reducible rfl | with_reducible exact reset_form | (with_reducible apply State.wipe_form) | (rw [State.event_mem]) | (with_reducible refine foldl_form _ (fun t x ht => ?_) _ _ ?_) | (with_reducible refine foldl_fst_form _ (fun t x ht => ?_) _ _ ?_) | split | (intro _) | (dsimp only [State.fresh]))
theorem State.clearRegion_form (s : State) (m : Nat) (n : Nat) (h : Memory.wf s.mem = true) :
    Memory.wf (State.clearRegion s m n).mem = true := by
  unfold State.clearRegion
  try dsimp only [State.fresh]
  repeat' (first | with_reducible assumption | with_reducible rfl | with_reducible exact reset_form | (with_reducible apply State.sramClear_form) | (with_reducible refine foldl_form _ (fun t x ht => ?_) _ _ ?_) | (with_reducible refine foldl_fst_form _ (fun t x ht => ?_) _ _ ?_) | split | (intro _) | (dsimp only [State.fresh]))
theorem State.takeRegion_form (s : State) (own : Nat) (r : Nat × Nat) (h : Memory.wf s.mem = true) :
    Memory.wf (State.takeRegion s own r).mem = true := by
  unfold State.takeRegion
  try dsimp only [State.fresh]
  repeat' (first | with_reducible assumption | with_reducible rfl | with_reducible exact reset_form | (with_reducible apply State.clearRegion_form) | (rw [State.ownerMapWrite_mem]) | (with_reducible refine foldl_form _ (fun t x ht => ?_) _ _ ?_) | (with_reducible refine foldl_fst_form _ (fun t x ht => ?_) _ _ ?_) | split | (intro _) | (dsimp only [State.fresh]))
theorem State.place__form (s : State) (img : List Byte) (p : MapProg) (recs : List Placement) (h : Memory.wf s.mem = true) :
    Memory.wf (State.place_ s img p recs).mem = true := by
  unfold State.place_
  try dsimp only [State.fresh]
  repeat' (first | with_reducible assumption | with_reducible rfl | with_reducible exact reset_form | (with_reducible apply State.sramWrite_form) | (with_reducible refine foldl_form _ (fun t x ht => ?_) _ _ ?_) | (with_reducible refine foldl_fst_form _ (fun t x ht => ?_) _ _ ?_) | split | (intro _) | (dsimp only [State.fresh]))
theorem State.placeAll_form (s : State) (own : Nat) (img : List Byte) (es : List DirEntry) (m : Mapped) (h : Memory.wf s.mem = true) :
    Memory.wf (State.placeAll s own img es m).mem = true := by
  unfold State.placeAll
  try dsimp only [State.fresh]
  repeat' (first | with_reducible assumption | with_reducible rfl | with_reducible exact reset_form | (with_reducible apply State.takeRegion_form) | (with_reducible apply State.place__form) | (with_reducible refine foldl_form _ (fun t x ht => ?_) _ _ ?_) | (with_reducible refine foldl_fst_form _ (fun t x ht => ?_) _ _ ?_) | split | (intro _) | (dsimp only [State.fresh]))
theorem State.useVariant_form (s : State) (n : Nat) (img : List Byte) (t : Trial) (m : Mapped) (h : Memory.wf s.mem = true) :
    Memory.wf (State.useVariant s n img t m).mem = true := by
  unfold State.useVariant
  try dsimp only [State.fresh]
  repeat' (first | with_reducible assumption | with_reducible rfl | with_reducible exact reset_form | (with_reducible apply State.placeAll_form) | (rw [State.installTables_mem]) | (rw [State.rewind_mem]) | (rw [State.setO_mem]) | (rw [State.endPublished_mem]) | (with_reducible refine foldl_form _ (fun t x ht => ?_) _ _ ?_) | (with_reducible refine foldl_fst_form _ (fun t x ht => ?_) _ _ ?_) | split | (intro _) | (dsimp only [State.fresh]))
theorem State.startRun_form (s : State) (n : Nat) (img : List Byte) (t : Trial) (m : Mapped) (h : Memory.wf s.mem = true) :
    Memory.wf (State.startRun s n img t m).mem = true := by
  unfold State.startRun
  try dsimp only [State.fresh]
  repeat' (first | with_reducible assumption | with_reducible rfl | with_reducible exact reset_form | (with_reducible apply State.useVariant_form) | (with_reducible apply State.adaptStart_form) | (rw [State.incO_mem]) | (rw [State.setO_mem]) | (rw [State.enterTable_mem]) | (rw [State.clearLeased_mem]) | (rw [State.setClass_mem]) | (rw [State.seedContext_mem]) | (rw [State.setCtxEn_mem]) | (rw [State.setCtxState_mem]) | (rw [State.loadPlan_mem]) | (with_reducible refine foldl_form _ (fun t x ht => ?_) _ _ ?_) | (with_reducible refine foldl_fst_form _ (fun t x ht => ?_) _ _ ?_) | split | (intro _) | (dsimp only [State.fresh]))
theorem State.startOn_form (s : State) (n : Nat) (k : Nat) (img : List Byte) (cores : List Nat) (tuples : List Nat) (h : Memory.wf s.mem = true) :
    Memory.wf (State.startOn s n k img cores tuples).mem = true := by
  unfold State.startOn
  extract_lets codes trials
  have ht : ∀ t m, trials.head? = some t → t.mapped = some m → m.2.mem = s.mem := by
    intro t m ht hm
    obtain ⟨l, hl⟩ : ∃ l, trials = t :: l := by
      cases htr : trials with
      | nil => rw [htr] at ht; cases ht
      | cons x l => rw [htr] at ht; cases ht; exact ⟨l, rfl⟩
    have hmem : t ∈ trials := by rw [hl]; exact List.mem_cons_self
    obtain ⟨u, -, hu⟩ := List.mem_map.1 hmem
    exact tryConfig_mem s n k img cores codes u m (by rw [hu]; exact hm)
  clear_value codes trials
  split
  · rw [State.refuseStart_mem, State.noVariant_mem, State.setO_mem]; exact h
  · split
    · rw [State.refuseStart_mem]; exact h
    · rw [State.refuseStart_mem]; exact h
    · next t _ hh =>
      split
      · rw [State.refuseStart_mem]; exact h
      · rw [State.refuseStart_mem]; exact h
      · next m _ hm =>
        have hm2 : Memory.wf m.2.mem = true := by rw [ht t m hh hm]; exact h
        split
        · rw [State.refuseStart_mem]; exact h
        · split
          · dsimp only
            split
            · exact State.startRun_form _ _ _ _ _ (by rw [State.admitted_mem]; exact hm2)
            · rw [State.refuseStart_mem, State.setO_mem]; exact h
          · exact State.startRun_form _ _ _ _ _ hm2
theorem State.ctxBegin_form (s : State) (n : Nat) (h : Memory.wf s.mem = true) :
    Memory.wf (State.ctxBegin s n).mem = true := by
  unfold State.ctxBegin
  try dsimp only [State.fresh]
  repeat' (first | with_reducible assumption | with_reducible rfl | with_reducible exact reset_form | (with_reducible apply State.startOn_form) | (rw [State.enterTable_mem]) | (rw [State.refuseStart_mem]) | (with_reducible refine foldl_form _ (fun t x ht => ?_) _ _ ?_) | (with_reducible refine foldl_fst_form _ (fun t x ht => ?_) _ _ ?_) | split | (intro _) | (dsimp only [State.fresh]))
theorem State.serveWaiting_form (s : State) (h : Memory.wf s.mem = true) :
    Memory.wf (State.serveWaiting s).mem = true := by
  unfold State.serveWaiting
  try dsimp only [State.fresh]
  repeat' (first | with_reducible assumption | with_reducible rfl | with_reducible exact reset_form | (with_reducible apply State.ctxResume_form) | (with_reducible apply State.ctxBegin_form) | (rw [State.holdResume_mem]) | (with_reducible refine foldl_form _ (fun t x ht => ?_) _ _ ?_) | (with_reducible refine foldl_fst_form _ (fun t x ht => ?_) _ _ ?_) | split | (intro _) | (dsimp only [State.fresh]))
theorem State.resumeMarked_form (s : State) (h : Memory.wf s.mem = true) :
    Memory.wf (State.resumeMarked s).mem = true := by
  unfold State.resumeMarked
  try dsimp only [State.fresh]
  repeat' (first | with_reducible assumption | with_reducible rfl | with_reducible exact reset_form | (with_reducible apply State.resumeRequest_form) | (with_reducible apply State.serveWaiting_form) | (with_reducible refine foldl_form _ (fun t x ht => ?_) _ _ ?_) | (with_reducible refine foldl_fst_form _ (fun t x ht => ?_) _ _ ?_) | split | (intro _) | (dsimp only [State.fresh]))
theorem State.followTarget_form (s : State) (h : Memory.wf s.mem = true) :
    Memory.wf (State.followTarget s).mem = true := by
  unfold State.followTarget
  try dsimp only [State.fresh]
  repeat' (first | with_reducible assumption | with_reducible rfl | with_reducible exact reset_form | (with_reducible apply State.resumeMarked_form) | (with_reducible apply State.completeEntry_form) | (rw [State.exitP3_mem]) | (rw [State.exitP4_mem]) | (rw [State.beginEntry_mem]) | (with_reducible refine foldl_form _ (fun t x ht => ?_) _ _ ?_) | (with_reducible refine foldl_fst_form _ (fun t x ht => ?_) _ _ ?_) | split | (intro _) | (dsimp only [State.fresh]))
theorem State.afterPreempt_form (s : State) (h : Memory.wf s.mem = true) :
    Memory.wf (State.afterPreempt s).mem = true := by
  unfold State.afterPreempt
  try dsimp only [State.fresh]
  repeat' (first | with_reducible assumption | with_reducible rfl | with_reducible exact reset_form | (with_reducible apply State.changeFreqs_form) | (with_reducible apply State.completeEntry_form) | (with_reducible apply State.resumeMarked_form) | (with_reducible apply State.followTarget_form) | (with_reducible refine foldl_form _ (fun t x ht => ?_) _ _ ?_) | (with_reducible refine foldl_fst_form _ (fun t x ht => ?_) _ _ ?_) | split | (intro _) | (dsimp only [State.fresh]))
theorem State.lineWrite_form (s : State) (a : Nat) (frt : Nat) (d : List Byte) (h : Memory.wf s.mem = true) :
    Memory.wf (State.lineWrite s a frt d).mem = true := by
  unfold State.lineWrite
  try dsimp only [State.fresh]
  repeat' (first | with_reducible assumption | with_reducible rfl | with_reducible exact reset_form | (with_reducible apply State.poke_form) | (rw [State.sendLine_mem]) | (rw [State.setLine_mem]) | (with_reducible refine foldl_form _ (fun t x ht => ?_) _ _ ?_) | (with_reducible refine foldl_fst_form _ (fun t x ht => ?_) _ _ ?_) | split | (intro _) | (dsimp only [State.fresh]))
theorem State.linePartial_form (s : State) (a : Nat) (frt : Nat) (d : List Byte) (h : Memory.wf s.mem = true) :
    Memory.wf (State.linePartial s a frt d).1.mem = true := by
  unfold State.linePartial
  try dsimp only [State.fresh]
  repeat' (first | with_reducible assumption | with_reducible rfl | with_reducible exact reset_form | (with_reducible apply State.poke_form) | (rw [State.lineRead_mem]) | (rw [State.sendLine_mem]) | (rw [State.setLine_mem]) | (rw [State.incO_mem]) | (rw [State.logLine_mem]) | (with_reducible refine foldl_form _ (fun t x ht => ?_) _ _ ?_) | (with_reducible refine foldl_fst_form _ (fun t x ht => ?_) _ _ ?_) | split | (intro _) | (dsimp only [State.fresh]))
theorem State.dramStore_form (s : State) (a : Nat) (frt : Nat) (d : List Byte) (h : Memory.wf s.mem = true) :
    Memory.wf (State.dramStore s a frt d).1.mem = true := by
  unfold State.dramStore
  try dsimp only [State.fresh]
  repeat' (first | with_reducible assumption | with_reducible rfl | with_reducible exact reset_form | (with_reducible apply State.lineWrite_form) | (with_reducible apply State.linePartial_form) | (with_reducible refine foldl_form _ (fun t x ht => ?_) _ _ ?_) | (with_reducible refine foldl_fst_form _ (fun t x ht => ?_) _ _ ?_) | split | (intro _) | (dsimp only [State.fresh]))
theorem State.hubPutAt_form (s : State) (own : Nat) (a : Nat) (d : List Byte) (y4 : Place) (h : Memory.wf s.mem = true) :
    Memory.wf (State.hubPutAt s own a d y4).1.mem = true := by
  unfold State.hubPutAt
  try dsimp only [State.fresh]
  repeat' (first | with_reducible assumption | with_reducible rfl | with_reducible exact reset_form | (with_reducible apply State.sramWrite_form) | (with_reducible apply State.dramStore_form) | (rw [State.regionRefusal_mem]) | (rw [State.logEv_mem]) | (with_reducible refine foldl_form _ (fun t x ht => ?_) _ _ ?_) | (with_reducible refine foldl_fst_form _ (fun t x ht => ?_) _ _ ?_) | split | (intro _) | (dsimp only [State.fresh]))
theorem State.hubPut_form (s : State) (own : Nat) (a : Nat) (d : List Byte) (h : Memory.wf s.mem = true) :
    Memory.wf (State.hubPut s own a d).1.mem = true := by
  unfold State.hubPut
  try dsimp only [State.fresh]
  repeat' (first | with_reducible assumption | with_reducible rfl | with_reducible exact reset_form | (with_reducible apply State.hubPutAt_form) | (with_reducible refine foldl_form _ (fun t x ht => ?_) _ _ ?_) | (with_reducible refine foldl_fst_form _ (fun t x ht => ?_) _ _ ?_) | split | (intro _) | (dsimp only [State.fresh]))
theorem State.unitDim_form (s : State) (own n w v : Nat) (h : Memory.wf s.mem = true) :
    Memory.wf (State.unitDim s own n w v).mem = true := by
  unfold State.unitDim
  try dsimp only [State.fresh]
  repeat' (first | with_reducible assumption | with_reducible rfl | with_reducible exact reset_form | (with_reducible apply State.hubPut_form) | (with_reducible refine foldl_form _ (fun t x ht => ?_) _ _ ?_) | (with_reducible refine foldl_fst_form _ (fun t x ht => ?_) _ _ ?_) | split | (intro _) | (dsimp only [State.fresh]))
theorem State.announceDim_form (s : State) (own ctx d0 d1 seq : Nat) (h : Memory.wf s.mem = true) :
    Memory.wf (State.announceDim s own ctx d0 d1 seq).mem = true := by
  unfold State.announceDim
  try dsimp only [State.fresh]
  repeat' (first | with_reducible assumption | with_reducible rfl | with_reducible exact reset_form | (with_reducible apply State.unitDim_form) | (with_reducible refine foldl_form _ (fun t x ht => ?_) _ _ ?_) | (with_reducible refine foldl_fst_form _ (fun t x ht => ?_) _ _ ?_) | split | (intro _) | (dsimp only [State.fresh]))
theorem State.remap_form (s : State) (n : Nat) (h : Memory.wf s.mem = true) :
    Memory.wf (State.remap s n).mem = true := by
  unfold State.remap
  try dsimp only [State.fresh]
  repeat' (first | with_reducible assumption | with_reducible rfl | with_reducible exact reset_form | (with_reducible apply State.useVariant_form) | (rw [State.refuseVariant_mem]) | (rw [State.recreateRings_mem]) | (rw [State.admitted_mem]) | (rw [State.loadPlan_mem]) | (with_reducible refine foldl_form _ (fun t x ht => ?_) _ _ ?_) | (with_reducible refine foldl_fst_form _ (fun t x ht => ?_) _ _ ?_) | split | (intro _) | (dsimp only [State.fresh]))
theorem State.retireCluster_form (s : State) (k : Nat) (h : Memory.wf s.mem = true) :
    Memory.wf (State.retireCluster s k).mem = true := by
  unfold State.retireCluster
  try dsimp only [State.fresh]
  repeat' (first | with_reducible assumption | with_reducible rfl | with_reducible exact reset_form | (with_reducible apply State.remap_form) | (rw [State.setOBit_mem]) | (rw [State.logEv_mem]) | (rw [State.fillAll_mem]) | (rw [State.refreshReady_mem]) | (rw [State.settle_mem]) | (with_reducible refine foldl_form _ (fun t x ht => ?_) _ _ ?_) | (with_reducible refine foldl_fst_form _ (fun t x ht => ?_) _ _ ?_) | split | (intro _) | (dsimp only [State.fresh]))
theorem State.checkCluster_form (s : State) (c : Nat) (h : Memory.wf s.mem = true) :
    Memory.wf (State.checkCluster s c).mem = true := by
  unfold State.checkCluster
  try dsimp only [State.fresh]
  repeat' (first | with_reducible assumption | with_reducible rfl | with_reducible exact reset_form | (with_reducible apply State.retireCluster_form) | (with_reducible refine foldl_form _ (fun t x ht => ?_) _ _ ?_) | (with_reducible refine foldl_fst_form _ (fun t x ht => ?_) _ _ ?_) | split | (intro _) | (dsimp only [State.fresh]))
theorem State.applyAll_form (s : State) (l : List Repair) (h : Memory.wf s.mem = true) :
    Memory.wf (State.applyAll s l).mem = true := by
  unfold State.applyAll
  try dsimp only [State.fresh]
  repeat' (first | with_reducible assumption | with_reducible rfl | with_reducible exact reset_form | (with_reducible apply State.checkCluster_form) | (with_reducible apply State.remap_form) | (rw [State.applyRepair_mem]) | (rw [State.setRepairs_mem]) | (rw [State.emptyCore_mem]) | (rw [State.fillAll_mem]) | (rw [State.refreshReady_mem]) | (rw [State.returnGroup_mem]) | (rw [State.settle_mem]) | (with_reducible refine foldl_form _ (fun t x ht => ?_) _ _ ?_) | (with_reducible refine foldl_fst_form _ (fun t x ht => ?_) _ _ ?_) | split | (intro _) | (dsimp only [State.fresh]))
theorem State.hubPutRun_form (s : State) (own : Nat) (a : Nat) (d : List Byte) (h : Memory.wf s.mem = true) :
    Memory.wf (State.hubPutRun s own a d).1.mem = true := by
  unfold State.hubPutRun
  try dsimp only [State.fresh]
  repeat' (first | with_reducible assumption | with_reducible rfl | with_reducible exact reset_form | (with_reducible apply untilStop_form) | (with_reducible apply State.hubPut_form) | (with_reducible refine foldl_form _ (fun t x ht => ?_) _ _ ?_) | (with_reducible refine foldl_fst_form _ (fun t x ht => ?_) _ _ ?_) | split | (intro _) | (dsimp only [State.fresh]))
theorem State.cameraEnable_form (s : State) (k : Nat) (v : Nat) (h : Memory.wf s.mem = true) :
    Memory.wf (State.cameraEnable s k v).1.mem = true := by
  unfold State.cameraEnable
  try dsimp only [State.fresh]
  repeat' (first | with_reducible assumption | with_reducible rfl | with_reducible exact reset_form | (with_reducible apply State.hubPutRun_form) | (rw [State.abandonAll_mem]) | (rw [State.setO_mem]) | (rw [State.setCamera_mem]) | (with_reducible refine foldl_form _ (fun t x ht => ?_) _ _ ?_) | (with_reducible refine foldl_fst_form _ (fun t x ht => ?_) _ _ ?_) | split | (intro _) | (dsimp only [State.fresh]))
theorem State.writeAt_form (s : State) (frt : Nat) (a : Nat) (d : List Byte) (y4 : Place) (h : Memory.wf s.mem = true) :
    Memory.wf (State.writeAt s frt a d y4).1.mem = true := by
  unfold State.writeAt
  try dsimp only [State.fresh]
  repeat' (first | with_reducible assumption | with_reducible rfl | with_reducible exact reset_form | (with_reducible apply State.dramStore_form) | (with_reducible apply State.sramWrite_form) | (with_reducible refine foldl_form _ (fun t x ht => ?_) _ _ ?_) | (with_reducible refine foldl_fst_form _ (fun t x ht => ?_) _ _ ?_) | split | (intro _) | (dsimp only [State.fresh]))
theorem State.farWrite_form (s : State) (r : Requester) (frt : Nat) (a : Nat) (d : List Byte) (h : Memory.wf s.mem = true) :
    Memory.wf (State.farWrite s r frt a d).1.mem = true := by
  unfold State.farWrite
  try dsimp only [State.fresh]
  repeat' (first | with_reducible assumption | with_reducible rfl | with_reducible exact reset_form | (with_reducible apply State.writeAt_form) | (rw [State.logFar_mem]) | (with_reducible refine foldl_form _ (fun t x ht => ?_) _ _ ?_) | (with_reducible refine foldl_fst_form _ (fun t x ht => ?_) _ _ ?_) | split | (intro _) | (dsimp only [State.fresh]))
theorem State.farWriteRun_form (s : State) (r : Requester) (frt : Nat) (a : Nat) (d : List Byte) (h : Memory.wf s.mem = true) :
    Memory.wf (State.farWriteRun s r frt a d).1.mem = true := by
  unfold State.farWriteRun
  try dsimp only [State.fresh]
  repeat' (first | with_reducible assumption | with_reducible rfl | with_reducible exact reset_form | (with_reducible apply untilStop_form) | (with_reducible apply State.farWrite_form) | (with_reducible refine foldl_form _ (fun t x ht => ?_) _ _ ?_) | (with_reducible refine foldl_fst_form _ (fun t x ht => ?_) _ _ ?_) | split | (intro _) | (dsimp only [State.fresh]))
theorem beginSave_form (n core : Nat) (r : State × Nat) (h : Memory.wf r.1.mem = true) :
    Memory.wf (beginSave n core r).mem = true := by rw [beginSave_mem]; exact h
theorem savePoint_form (t : State) (n core : Nat) (a : Nat × Requester) (hd : List Byte) (h : Memory.wf t.mem = true) :
    Memory.wf (beginSave n core (t.farWriteRun a.2 0 a.1 hd)).mem = true :=
  beginSave_form n core _ (State.farWriteRun_form _ _ _ _ _ h)
theorem savePointAt_form (t : State) (n core : Nat) (h : Memory.wf t.mem = true) :
    Memory.wf (beginSave n core (t.farWriteRun (t.saveRecord n core).2 0 (t.saveRecord n core).1 (t.saveHeader n core))).mem = true :=
  savePoint_form t n core (t.saveRecord n core) (t.saveHeader n core) h
theorem dropHeld_form (s : State) (core : Nat) (b : Bool) (h : Memory.wf s.mem = true) :
    Memory.wf (if b then s.loseHold core else s).mem = true := by
  split
  · rw [State.loseHold_mem]; exact h
  · exact h
theorem State.cheapPoint_form (s : State) (n : Nat) (core : Nat) (h : Memory.wf s.mem = true) :
    Memory.wf (State.cheapPoint s n core).mem = true := by
  have hh := dropHeld_form s core (((s.core core).held.map (fun h => h.ctx == n)).getD false) h
  have h2 := savePointAt_form _ n core hh
  rw [State.cheapPoint]
  generalize beginSave n core _ = r at h2 ⊢
  split
  · exact h
  · exact h2
theorem State.clearCluster_form (s : State) (k : Nat) (h : Memory.wf s.mem = true) :
    Memory.wf (State.clearCluster s k).mem = true := by
  unfold State.clearCluster
  try dsimp only [State.fresh]
  repeat' (first | with_reducible assumption | with_reducible rfl | with_reducible exact reset_form | (with_reducible apply State.sramClear_form) | (rw [State.loseHold_mem]) | (rw [State.closeWindowsOf_mem]) | (rw [State.clearClusterQueues_mem]) | (rw [State.setCore_mem]) | (rw [State.setCluster_mem]) | (with_reducible refine foldl_form _ (fun t x ht => ?_) _ _ ?_) | (with_reducible refine foldl_fst_form _ (fun t x ht => ?_) _ _ ?_) | split | (intro _) | (dsimp only [State.fresh]))
theorem State.closeBatch_form (s : State) (n : Nat) (h : Memory.wf s.mem = true) :
    Memory.wf (State.closeBatch s n).mem = true := by
  unfold State.closeBatch
  try dsimp only [State.fresh]
  repeat' (first | with_reducible assumption | with_reducible rfl | with_reducible exact reset_form | (with_reducible apply State.sramWrite_form) | (with_reducible apply State.putDim_form) | (rw [State.setAdapt_mem]) | (with_reducible refine foldl_form _ (fun t x ht => ?_) _ _ ?_) | (with_reducible refine foldl_fst_form _ (fun t x ht => ?_) _ _ ?_) | split | (intro _) | (dsimp only [State.fresh]))
theorem State.closeGroup_form (f : Nat) (s : State) (g : Nat) (h : Memory.wf s.mem = true) :
    Memory.wf (State.closeGroup f s g).mem = true := by
  unfold State.closeGroup
  try dsimp only [State.fresh]
  repeat' (first | with_reducible assumption | with_reducible rfl | with_reducible exact reset_form | (with_reducible apply State.sramWrite_form) | (rw [State.withLoop_mem]) | (rw [State.trace_mem]) | (rw [State.incO_mem]) | (rw [State.setGroupFrame_mem]) | (rw [State.pop_mem]) | (rw [State.push_mem]) | (with_reducible refine foldl_form _ (fun t x ht => ?_) _ _ ?_) | (with_reducible refine foldl_fst_form _ (fun t x ht => ?_) _ _ ?_) | split | (intro _) | (dsimp only [State.fresh]))
theorem State.ctxStart_form (s : State) (n : Nat) (h : Memory.wf s.mem = true) :
    Memory.wf (State.ctxStart s n).1.mem = true := by
  unfold State.ctxStart
  try dsimp only [State.fresh]
  repeat' (first | with_reducible assumption | with_reducible rfl | with_reducible exact reset_form | (with_reducible apply State.ctxBegin_form) | (with_reducible refine foldl_form _ (fun t x ht => ?_) _ _ ?_) | (with_reducible refine foldl_fst_form _ (fun t x ht => ?_) _ _ ?_) | split | (intro _) | (dsimp only [State.fresh]))
theorem State.startRequest_form (s : State) (n : Nat) (h : Memory.wf s.mem = true) :
    Memory.wf (State.startRequest s n).1.mem = true := by
  unfold State.startRequest
  try dsimp only [State.fresh]
  repeat' (first | with_reducible assumption | with_reducible rfl | with_reducible exact reset_form | (with_reducible apply State.ctxStart_form) | (rw [State.enterTable_mem]) | (rw [State.setCtxState_mem]) | (with_reducible refine foldl_form _ (fun t x ht => ?_) _ _ ?_) | (with_reducible refine foldl_fst_form _ (fun t x ht => ?_) _ _ ?_) | split | (intro _) | (dsimp only [State.fresh]))
theorem State.stopRequest_form (s : State) (n : Nat) (h : Memory.wf s.mem = true) :
    Memory.wf (State.stopRequest s n).1.mem = true := by
  unfold State.stopRequest
  try dsimp only [State.fresh]
  repeat' (first | with_reducible assumption | with_reducible rfl | with_reducible exact reset_form | (with_reducible apply State.afterPreempt_form) | (with_reducible apply State.serveWaiting_form) | (rw [State.ctxStop_mem]) | (with_reducible refine foldl_form _ (fun t x ht => ?_) _ _ ?_) | (with_reducible refine foldl_fst_form _ (fun t x ht => ?_) _ _ ?_) | split | (intro _) | (dsimp only [State.fresh]))
theorem State.contextControl_form (s : State) (n : Nat) (v : Nat) (h : Memory.wf s.mem = true) :
    Memory.wf (State.contextControl s n v).1.mem = true := by
  unfold State.contextControl
  try dsimp only [State.fresh]
  repeat' (first | with_reducible assumption | with_reducible rfl | with_reducible exact reset_form | (with_reducible apply State.startRequest_form) | (with_reducible apply State.stopRequest_form) | (with_reducible apply State.resumeRequest_form) | (rw [State.ctxPreempt_mem]) | (with_reducible refine foldl_form _ (fun t x ht => ?_) _ _ ?_) | (with_reducible refine foldl_fst_form _ (fun t x ht => ?_) _ _ ?_) | split | (intro _) | (dsimp only [State.fresh]))
theorem State.cool500_form (s : State) (h : Memory.wf s.mem = true) :
    Memory.wf (State.cool500 s).mem = true := by
  unfold State.cool500
  try dsimp only [State.fresh]
  repeat' (first | with_reducible assumption | with_reducible rfl | with_reducible exact reset_form | (with_reducible apply State.afterPreempt_form) | (rw [State.ctxPreempt_mem]) | (with_reducible refine foldl_form _ (fun t x ht => ?_) _ _ ?_) | (with_reducible refine foldl_fst_form _ (fun t x ht => ?_) _ _ ?_) | split | (intro _) | (dsimp only [State.fresh]))
theorem State.putCamWord_form (s : State) (k : Nat) (w : Nat) (v : Nat) (h : Memory.wf s.mem = true) :
    Memory.wf (State.putCamWord s k w v).mem = true := by
  unfold State.putCamWord
  try dsimp only [State.fresh]
  repeat' (first | with_reducible assumption | with_reducible rfl | with_reducible exact reset_form | (with_reducible apply State.hubPut_form) | (with_reducible refine foldl_form _ (fun t x ht => ?_) _ _ ?_) | (with_reducible refine foldl_fst_form _ (fun t x ht => ?_) _ _ ?_) | split | (intro _) | (dsimp only [State.fresh]))
theorem State.deliver__form (s : State) (k : Nat) (h : Memory.wf s.mem = true) :
    Memory.wf (State.deliver_ s k).mem = true := by
  unfold State.deliver_
  try dsimp only [State.fresh]
  repeat' (first | with_reducible assumption | with_reducible rfl | with_reducible exact reset_form | (with_reducible apply untilStop_form) | (with_reducible apply State.hubPutRun_form) | (with_reducible apply State.putCamWord_form) | (with_reducible apply State.announceDim_form) | (rw [State.setCamera_mem]) | (rw [State.abandonCount_mem]) | (rw [State.incO_mem]) | (with_reducible refine foldl_form _ (fun t x ht => ?_) _ _ ?_) | (with_reducible refine foldl_fst_form _ (fun t x ht => ?_) _ _ ?_) | split | (intro _) | (dsimp only [State.fresh]))
theorem State.writeRun_form (s : State) (core : Nat) (v : View) (off : Nat) (r : List Out × List Nat) (h : Memory.wf s.mem = true) :
    Memory.wf (State.writeRun s core v off r).mem = true := by
  unfold State.writeRun
  try dsimp only [State.fresh]
  repeat' (first | with_reducible assumption | with_reducible rfl | with_reducible exact reset_form | (with_reducible apply State.sramWrite_form) | (with_reducible refine foldl_form _ (fun t x ht => ?_) _ _ ?_) | (with_reducible refine foldl_fst_form _ (fun t x ht => ?_) _ _ ?_) | split | (intro _) | (dsimp only [State.fresh]))
theorem State.drainRun_form (s : State) (core : Nat) (b : Bound) (bank at_ : Nat) (run : Nat × List (Nat × Num)) (h : Memory.wf s.mem = true) :
    Memory.wf (State.drainRun s core b bank at_ run).mem = true := by
  unfold State.drainRun
  try dsimp only [State.fresh]
  repeat' (first | with_reducible assumption | with_reducible rfl | with_reducible exact reset_form | (with_reducible apply State.writeRun_form) | (rw [State.setCore_mem]) | (rw [State.event_mem]) | (with_reducible refine foldl_form _ (fun t x ht => ?_) _ _ ?_) | (with_reducible refine foldl_fst_form _ (fun t x ht => ?_) _ _ ?_) | split | (intro _) | (dsimp only [State.fresh]))
theorem State.putDomain_form (s : State) (m : Nat) (k : Nat) (d : List Byte) (e : Env) (h : Memory.wf s.mem = true) :
    Memory.wf (State.putDomain s m k d e).1.mem = true := by
  unfold State.putDomain
  refine State.keep_form _ _ _ _ _ ?_ ?_
  all_goals first | exact h | (rw [State.writeDomain_mem]; exact h)
theorem streamSegment_form (s : State) (k off : Nat) (last : Bool) (d all : List Byte) (r : State × Nat)
    (h : Memory.wf s.mem = true) (hr : s.streamSegment k off last d all = some r) : Memory.wf r.1.mem = true := by
  unfold State.streamSegment at hr
  split at hr
  · rw [← Option.some.inj hr]; split <;> simp [h]
  · rw [← Option.some.inj hr]; split <;> simp [h]
  · cases hr
theorem State.writeSegment_form (s : State) (m : Nat) (x : DictMsg) (e : Env) (h : Memory.wf s.mem = true) :
    Memory.wf (State.writeSegment s m x e).1.mem = true := by
  unfold State.writeSegment
  dsimp only
  have h0 : Memory.wf (if x.offset.toNat = 0 then s.reuse m x.tid.toNat else s : State).mem = true := by
    split
    · rw [State.reuse_mem]; exact h
    · exact h
  generalize (if x.offset.toNat = 0 then s.reuse m x.tid.toNat else s : State) = s0 at h0 ⊢
  split
  · exact h0
  · split
    · rw [State.endTransfer_mem]; exact h0
    · split
      · next r hr =>
        have hf := streamSegment_form _ _ _ _ _ _ _ h0 hr
        split
        · rw [State.setTransfer_mem]; exact hf
        · exact hf
      · split
        · split
          · rw [State.setTransfer_mem]; exact h0
          · exact h0
        · split
          · rw [State.setTransfer_mem]; exact State.putDomain_form s0 _ _ _ _ h0
          · exact State.putDomain_form s0 _ _ _ _ h0
theorem onlyWhile_form (s : State) (cond : Bool) (r : State × Nat) (hr : Memory.wf r.1.mem = true) (h : Memory.wf s.mem = true) :
    Memory.wf (onlyWhile s cond r).1.mem = true := by
  unfold onlyWhile
  split
  · exact hr
  · exact h
theorem State.writeContext_form (s : State) (k : Nat) (v : Nat) (h : Memory.wf s.mem = true) :
    Memory.wf (State.writeContext s k v).1.mem = true := by
  unfold State.writeContext
  try dsimp only [State.fresh]
  repeat' (first | with_reducible assumption | with_reducible rfl | with_reducible exact reset_form | (with_reducible apply State.contextControl_form) | (with_reducible apply onlyWhile_form) | (rw [State.publishFrom_mem]) | (rw [State.storeObj_mem]) | (rw [State.pinWrite_mem]) | (rw [State.unload_mem]) | (rw [State.closeWrite_mem]) | (rw [State.publish_mem]) | (with_reducible refine foldl_form _ (fun t x ht => ?_) _ _ ?_) | (with_reducible refine foldl_fst_form _ (fun t x ht => ?_) _ _ ?_) | split | (intro _) | (dsimp only [State.fresh]))
theorem State.tokenizerEnable_form (s : State) (v : Nat) (h : Memory.wf s.mem = true) :
    Memory.wf (State.tokenizerEnable s v).1.mem = true := by
  unfold State.tokenizerEnable
  try dsimp only [State.fresh]
  repeat' (first | with_reducible assumption | with_reducible rfl | with_reducible exact reset_form | (with_reducible apply State.hubPutRun_form) | (rw [State.setO_mem]) | (with_reducible refine foldl_form _ (fun t x ht => ?_) _ _ ?_) | (with_reducible refine foldl_fst_form _ (fun t x ht => ?_) _ _ ?_) | split | (intro _) | (dsimp only [State.fresh]))
theorem State.writeUnit_form (s : State) (m : Nat) (k : Nat) (v : Nat) (h : Memory.wf s.mem = true) :
    Memory.wf (State.writeUnit s m k v).1.mem = true := by
  unfold State.writeUnit
  try dsimp only [State.fresh]
  repeat' (first | with_reducible assumption | with_reducible rfl | with_reducible exact reset_form | (with_reducible apply State.cameraEnable_form) | (with_reducible apply State.tokenizerEnable_form) | (rw [State.loopEnable_mem]) | (rw [State.flushWrite_mem]) | (rw [State.storeObj_mem]) | (rw [State.regionOpen_mem]) | (rw [State.regionClose_mem]) | (rw [State.windowRequest_mem]) | (rw [State.windowClose_mem]) | (rw [State.setDevNum_mem]) | (rw [State.laneEnable_mem]) | (rw [State.retrain_mem]) | (rw [State.switchWrite_mem]) | (with_reducible refine foldl_form _ (fun t x ht => ?_) _ _ ?_) | (with_reducible refine foldl_fst_form _ (fun t x ht => ?_) _ _ ?_) | split | (intro _) | (dsimp only [State.fresh]))
theorem State.targetWrite_form (s : State) (v : Nat) (h : Memory.wf s.mem = true) :
    Memory.wf (State.targetWrite s v).1.mem = true := by
  unfold State.targetWrite
  try dsimp only [State.fresh]
  repeat' (first | with_reducible assumption | with_reducible rfl | with_reducible exact reset_form | (with_reducible apply State.followTarget_form) | (rw [State.setO_mem]) | (with_reducible refine foldl_form _ (fun t x ht => ?_) _ _ ?_) | (with_reducible refine foldl_fst_form _ (fun t x ht => ?_) _ _ ?_) | split | (intro _) | (dsimp only [State.fresh]))
theorem State.wake_form (s : State) (how : Nat) (h : Memory.wf s.mem = true) :
    Memory.wf (State.wake s how).mem = true := by
  unfold State.wake
  try dsimp only [State.fresh]
  repeat' (first | with_reducible assumption | with_reducible rfl | with_reducible exact reset_form | (with_reducible apply State.followTarget_form) | (rw [State.setO_mem]) | (with_reducible refine foldl_form _ (fun t x ht => ?_) _ _ ?_) | (with_reducible refine foldl_fst_form _ (fun t x ht => ?_) _ _ ?_) | split | (intro _) | (dsimp only [State.fresh]))
theorem State.wakeWrite_form (s : State) (v : Nat) (h : Memory.wf s.mem = true) :
    Memory.wf (State.wakeWrite s v).1.mem = true := by
  unfold State.wakeWrite
  try dsimp only [State.fresh]
  repeat' (first | with_reducible assumption | with_reducible rfl | with_reducible exact reset_form | (with_reducible apply State.wake_form) | (rw [State.setO_mem]) | (with_reducible refine foldl_form _ (fun t x ht => ?_) _ _ ?_) | (with_reducible refine foldl_fst_form _ (fun t x ht => ?_) _ _ ?_) | split | (intro _) | (dsimp only [State.fresh]))
theorem State.writeControl_form (s : State) (m : Nat) (k : Nat) (v : Nat) (e : Env) (h : Memory.wf s.mem = true) :
    Memory.wf (State.writeControl s m k v e).1.mem = true := by
  unfold State.writeControl
  try dsimp only [State.fresh]
  repeat' (first | with_reducible assumption | with_reducible rfl | with_reducible exact reset_form | (with_reducible apply State.targetWrite_form) | (with_reducible apply State.wakeWrite_form) | (rw [State.hostMajor_mem]) | (rw [State.tokenRequest_mem]) | (rw [State.seize_mem]) | (rw [State.restoreDefaults_mem]) | (rw [State.clearLog_mem]) | (rw [State.cycleAck_mem]) | (rw [State.resetRequest_mem]) | (rw [State.setOBit_mem]) | (rw [State.settle_mem]) | (rw [State.traceEnable_mem]) | (rw [State.fwErase_mem]) | (rw [State.activate_mem]) | (rw [State.lifeRequest_mem]) | (rw [State.arm_mem]) | (rw [State.endSession_mem]) | (rw [State.setClusters_mem]) | (rw [State.setFreq_mem]) | (rw [State.storeObj_mem]) | (with_reducible refine foldl_form _ (fun t x ht => ?_) _ _ ?_) | (with_reducible refine foldl_fst_form _ (fun t x ht => ?_) _ _ ?_) | split | (intro _) | (dsimp only [State.fresh]))
theorem State.writeFixed_form (s : State) (m : Nat) (k : Nat) (v : Nat) (e : Env) (h : Memory.wf s.mem = true) :
    Memory.wf (State.writeFixed s m k v e).1.mem = true := by
  unfold State.writeFixed
  try dsimp only [State.fresh]
  repeat' (first | with_reducible assumption | with_reducible rfl | with_reducible exact reset_form | (with_reducible apply State.writeContext_form) | (with_reducible apply State.writeUnit_form) | (with_reducible apply State.writeControl_form) | (with_reducible apply onlyWhile_form) | (with_reducible refine foldl_form _ (fun t x ht => ?_) _ _ ?_) | (with_reducible refine foldl_fst_form _ (fun t x ht => ?_) _ _ ?_) | split | (intro _) | (dsimp only [State.fresh]))
theorem State.putFixed_form (s : State) (m : Nat) (k : Nat) (v : Nat) (e : Env) (h : Memory.wf s.mem = true) :
    Memory.wf (State.putFixed s m k v e).1.mem = true := by
  unfold State.putFixed
  try dsimp only [State.fresh]
  repeat' (first | with_reducible assumption | with_reducible rfl | with_reducible exact reset_form | (with_reducible apply State.keep_form) | (with_reducible apply State.writeFixed_form) | (with_reducible refine foldl_form _ (fun t x ht => ?_) _ _ ?_) | (with_reducible refine foldl_fst_form _ (fun t x ht => ?_) _ _ ?_) | split | (intro _) | (dsimp only [State.fresh]))
theorem State.execute_form (s : State) (m : Nat) (op : Nat) (r : ObjRow) (x : DictMsg) (e : Env) (h : Memory.wf s.mem = true) :
    Memory.wf (State.execute s m op r x e).1.mem = true := by
  unfold State.execute
  try dsimp only [State.fresh]
  repeat' (first | with_reducible assumption | with_reducible rfl | with_reducible exact reset_form | (with_reducible apply State.writeSegment_form) | (with_reducible apply State.putFixed_form) | (rw [State.readSegment_mem]) | (rw [State.readObj_mem]) | (with_reducible refine foldl_form _ (fun t x ht => ?_) _ _ ?_) | (with_reducible refine foldl_fst_form _ (fun t x ht => ?_) _ _ ?_) | split | (intro _) | (dsimp only [State.fresh]))
theorem State.garble_form (s : State) (word : Nat) (h : Memory.wf s.mem = true) :
    Memory.wf (State.garble s word).mem = true := by
  unfold State.garble
  try dsimp only [State.fresh]
  repeat' (first | with_reducible assumption | with_reducible rfl | with_reducible exact reset_form | (with_reducible apply State.poke_form) | (with_reducible refine foldl_form _ (fun t x ht => ?_) _ _ ?_) | (with_reducible refine foldl_fst_form _ (fun t x ht => ?_) _ _ ?_) | split | (intro _) | (dsimp only [State.fresh]))
theorem State.granuleClear_form (s : State) (dram : Bool) (g : Nat) (h : Memory.wf s.mem = true) :
    Memory.wf (State.granuleClear s dram g).mem = true := by
  unfold State.granuleClear
  try dsimp only [State.fresh]
  repeat' (first | with_reducible assumption | with_reducible rfl | with_reducible exact reset_form | (with_reducible apply State.wipe_form) | (with_reducible apply State.sramClear_form) | (rw [State.setO_mem]) | (with_reducible refine foldl_form _ (fun t x ht => ?_) _ _ ?_) | (with_reducible refine foldl_fst_form _ (fun t x ht => ?_) _ _ ?_) | split | (intro _) | (dsimp only [State.fresh]))
theorem State.hostCyclic_form (s : State) (lane : Nat) (seq : Nat) (ok : Bool) (f : State → State) (h_f : ∀ t, Memory.wf t.mem = true → Memory.wf (f t).mem = true) (h : Memory.wf s.mem = true) :
    Memory.wf (State.hostCyclic s lane seq ok f).mem = true := by
  unfold State.hostCyclic
  try dsimp only [State.fresh]
  repeat' (first | with_reducible assumption | with_reducible rfl | with_reducible exact reset_form | (with_reducible apply h_f) | (rw [State.noteCyclic_mem]) | (rw [State.discardFrame_mem]) | (with_reducible refine foldl_form _ (fun t x ht => ?_) _ _ ?_) | (with_reducible refine foldl_fst_form _ (fun t x ht => ?_) _ _ ?_) | split | (intro _) | (dsimp only [State.fresh]))
theorem busyCheck_fst (s : State) (m op : Nat) (x : DictMsg) (t : State) (o : Option Answer)
    (h : s.busyCheck m op x = (t, o)) : t.mem = s.mem := by
  rw [← State.busyCheck_mem s m op x, h]
theorem State.request_form (s : State) (m : Nat) (op : Nat) (x : DictMsg) (e : Env) (h : Memory.wf s.mem = true) :
    Memory.wf (State.request s m op x e).1.mem = true := by
  unfold State.request
  extract_lets k
  split
  · next t a hb => rw [busyCheck_fst _ _ _ _ _ _ hb]; exact h
  · split
    · exact h
    · split
      · split
        · rw [State.reuse_mem]; exact h
        · exact h
      · split
        · exact h
        · split
          · exact h
          · dsimp only
            split
            · exact h
            · exact State.execute_form _ _ _ _ _ _ h
theorem State.respond_form (s : State) (m : Nat) (op : Nat) (x : DictMsg) (e : Env) (h : Memory.wf s.mem = true) :
    Memory.wf (State.respond s m op x e).1.mem = true := by
  unfold State.respond
  try dsimp only [State.fresh]
  repeat' (first | with_reducible assumption | with_reducible rfl | with_reducible exact reset_form | (with_reducible apply State.request_form) | (with_reducible refine foldl_form _ (fun t x ht => ?_) _ _ ?_) | (with_reducible refine foldl_fst_form _ (fun t x ht => ?_) _ _ ?_) | split | (intro _) | (dsimp only [State.fresh]))
theorem State.serveOn_form (s : State) (lane : Nat) (m : Nat) (op : Nat) (x : DictMsg) (e : Env) (h : Memory.wf s.mem = true) :
    Memory.wf (State.serveOn s lane m op x e).mem = true := by
  unfold State.serveOn
  try dsimp only [State.fresh]
  repeat' (first | with_reducible assumption | with_reducible rfl | with_reducible exact reset_form | (with_reducible apply State.respond_form) | (rw [State.sendRel_mem]) | (with_reducible refine foldl_form _ (fun t x ht => ?_) _ _ ?_) | (with_reducible refine foldl_fst_form _ (fun t x ht => ?_) _ _ ?_) | split | (intro _) | (dsimp only [State.fresh]))
theorem State.serve_form (s : State) (m : Nat) (op : Nat) (x : DictMsg) (e : Env) (h : Memory.wf s.mem = true) :
    Memory.wf (State.serve s m op x e).mem = true := by
  unfold State.serve
  try dsimp only [State.fresh]
  repeat' (first | with_reducible assumption | with_reducible rfl | with_reducible exact reset_form | (with_reducible apply State.respond_form) | (with_reducible apply State.serveOn_form) | (with_reducible refine foldl_form _ (fun t x ht => ?_) _ _ ?_) | (with_reducible refine foldl_fst_form _ (fun t x ht => ?_) _ _ ?_) | split | (intro _) | (dsimp only [State.fresh]))
theorem State.hostSegment_form (s : State) (m : Nat) (k : Nat) (g : Segment) (e : optParam Env Env.clear) (h : Memory.wf s.mem = true) :
    Memory.wf (State.hostSegment s m k g e).mem = true := by
  unfold State.hostSegment
  try dsimp only [State.fresh]
  repeat' (first | with_reducible assumption | with_reducible rfl | with_reducible exact reset_form | (with_reducible apply State.serve_form) | (with_reducible refine foldl_form _ (fun t x ht => ?_) _ _ ?_) | (with_reducible refine foldl_fst_form _ (fun t x ht => ?_) _ _ ?_) | split | (intro _) | (dsimp only [State.fresh]))
theorem State.hostWrite_form (s : State) (m : Nat) (tid : BitVec 8) (k : Nat) (v : Nat) (e : optParam Env Env.clear) (h : Memory.wf s.mem = true) :
    Memory.wf (State.hostWrite s m tid k v e).mem = true := by
  unfold State.hostWrite
  try dsimp only [State.fresh]
  repeat' (first | with_reducible assumption | with_reducible rfl | with_reducible exact reset_form | (with_reducible apply State.serve_form) | (with_reducible refine foldl_form _ (fun t x ht => ?_) _ _ ?_) | (with_reducible refine foldl_fst_form _ (fun t x ht => ?_) _ _ ?_) | split | (intro _) | (dsimp only [State.fresh]))
theorem State.sensorCyclic_form (s : State) (lane : Nat) (seq : Nat) (d : List Byte) (f : State → State) (h_f : ∀ t, Memory.wf t.mem = true → Memory.wf (f t).mem = true) (h : Memory.wf s.mem = true) :
    Memory.wf (State.sensorCyclic s lane seq d f).mem = true := by
  unfold State.sensorCyclic
  try dsimp only [State.fresh]
  repeat' (first | with_reducible assumption | with_reducible rfl | with_reducible exact reset_form | (with_reducible apply h_f) | (rw [State.noteCyclic_mem]) | (rw [State.discardFrame_mem]) | (with_reducible refine foldl_form _ (fun t x ht => ?_) _ _ ?_) | (with_reducible refine foldl_fst_form _ (fun t x ht => ?_) _ _ ?_) | split | (intro _) | (dsimp only [State.fresh]))
theorem State.sourceOutput_form (s : State) (n : Nat) (t : Nat) (v : Nat) (h : Memory.wf s.mem = true) :
    Memory.wf (State.sourceOutput s n t v).mem = true := by
  unfold State.sourceOutput
  try dsimp only [State.fresh]
  repeat' (first | with_reducible assumption | with_reducible rfl | with_reducible exact reset_form | (with_reducible apply State.sramWrite_form) | (rw [State.setSource_mem]) | (rw [State.setO_mem]) | (with_reducible refine foldl_form _ (fun t x ht => ?_) _ _ ?_) | (with_reducible refine foldl_fst_form _ (fun t x ht => ?_) _ _ ?_) | split | (intro _) | (dsimp only [State.fresh]))
theorem State.sourceSample_form (s : State) (n : Nat) (p : Nat × Nat) (h : Memory.wf s.mem = true) :
    Memory.wf (State.sourceSample s n p).mem = true := by
  unfold State.sourceSample
  try dsimp only [State.fresh]
  repeat' (first | with_reducible assumption | with_reducible rfl | with_reducible exact reset_form | (with_reducible apply State.sourceOutput_form) | (rw [State.incO_mem]) | (rw [State.setO_mem]) | (rw [State.gather_mem]) | (rw [State.setSource_mem]) | (with_reducible refine foldl_form _ (fun t x ht => ?_) _ _ ?_) | (with_reducible refine foldl_fst_form _ (fun t x ht => ?_) _ _ ?_) | split | (intro _) | (dsimp only [State.fresh]))
theorem State.onSamplePkt_form (s : State) (lane : Nat) (d : List Byte) (excess : Bool) (h : Memory.wf s.mem = true) :
    Memory.wf (State.onSamplePkt s lane d excess).mem = true := by
  unfold State.onSamplePkt
  try dsimp only [State.fresh]
  repeat' (first | with_reducible assumption | with_reducible rfl | with_reducible exact reset_form | (with_reducible apply State.sourceSample_form) | (rw [State.incO_mem]) | (with_reducible refine foldl_form _ (fun t x ht => ?_) _ _ ?_) | (with_reducible refine foldl_fst_form _ (fun t x ht => ?_) _ _ ?_) | split | (intro _) | (dsimp only [State.fresh]))
theorem State.onAcyc_form (s : State) (lane : Nat) (seq : Nat) (d : List Byte) (e : Env) (h : Memory.wf s.mem = true) :
    Memory.wf (State.onAcyc s lane seq d e).mem = true := by
  unfold State.onAcyc
  try dsimp only [State.fresh]
  repeat' (first | with_reducible assumption | with_reducible rfl | with_reducible exact reset_form | (with_reducible apply State.serveOn_form) | (rw [State.discardFrame_mem]) | (rw [State.relReceive_mem]) | (with_reducible refine foldl_form _ (fun t x ht => ?_) _ _ ?_) | (with_reducible refine foldl_fst_form _ (fun t x ht => ?_) _ _ ?_) | split | (intro _) | (dsimp only [State.fresh]))
theorem State.windowStore_form (s : State) (n : Nat) (off : Nat) (d : List Byte) (h : Memory.wf s.mem = true) :
    Memory.wf (State.windowStore s n off d).mem = true := by
  unfold State.windowStore
  try dsimp only [State.fresh]
  repeat' (first | with_reducible assumption | with_reducible rfl | with_reducible exact reset_form | (with_reducible apply State.sramWrite_form) | (rw [State.incO_mem]) | (with_reducible refine foldl_form _ (fun t x ht => ?_) _ _ ?_) | (with_reducible refine foldl_fst_form _ (fun t x ht => ?_) _ _ ?_) | split | (intro _) | (dsimp only [State.fresh]))
theorem State.packetIn_form (s : State) (dev : Nat) (tag : Nat) (n : Nat) (own : Nat) (woff : Nat) (notify : Bool) (last : Bool) (d : List Byte) (h : Memory.wf s.mem = true) :
    Memory.wf (State.packetIn s dev tag n own woff notify last d).1.mem = true := by
  unfold State.packetIn
  try dsimp only [State.fresh]
  repeat' (first | with_reducible assumption | with_reducible rfl | with_reducible exact reset_form | (with_reducible apply State.windowStore_form) | (rw [State.announce_mem]) | (rw [State.windowRefused_mem]) | (rw [State.retried_mem]) | (with_reducible refine foldl_form _ (fun t x ht => ?_) _ _ ?_) | (with_reducible refine foldl_fst_form _ (fun t x ht => ?_) _ _ ?_) | split | (intro _) | (dsimp only [State.fresh]))
theorem State.onPeerWrite_form (s : State) (lane : Nat) (cls : Nat) (seq : Nat) (w2 : Nat) (w3 : Nat) (d : List Byte) (h : Memory.wf s.mem = true) :
    Memory.wf (State.onPeerWrite s lane cls seq w2 w3 d).mem = true := by
  unfold State.onPeerWrite
  try dsimp only [State.fresh]
  repeat' (first | with_reducible assumption | with_reducible rfl | with_reducible exact reset_form | (with_reducible apply State.packetIn_form) | (rw [State.discardFrame_mem]) | (rw [State.relReceive_mem]) | (rw [State.sendRel_mem]) | (with_reducible refine foldl_form _ (fun t x ht => ?_) _ _ ?_) | (with_reducible refine foldl_fst_form _ (fun t x ht => ?_) _ _ ?_) | split | (intro _) | (dsimp only [State.fresh]))
theorem State.served_form (s : State) (y1 : RxFrame) (h : Memory.wf s.mem = true) :
    Memory.wf (State.served s y1).mem = true := by
  unfold State.served
  try dsimp only [State.fresh]
  repeat' (first | with_reducible assumption | with_reducible rfl | with_reducible exact reset_form | (with_reducible apply State.hostCyclic_form) | (with_reducible apply State.sensorCyclic_form) | (with_reducible apply State.onSamplePkt_form) | (with_reducible apply State.onAcyc_form) | (with_reducible apply State.onPeerWrite_form) | (rw [State.onSync_mem]) | (rw [State.onSamples_mem]) | (rw [State.onLine_mem]) | (rw [State.onBulk_mem]) | (rw [State.onAck_mem]) | (rw [State.discardFrame_mem]) | (rw [State.onLaneMode_mem]) | (rw [State.onPeer_mem]) | (rw [State.onEcho_mem]) | (with_reducible refine foldl_form _ (fun t x ht => ?_) _ _ ?_) | (with_reducible refine foldl_fst_form _ (fun t x ht => ?_) _ _ ?_) | split | (intro _) | (dsimp only [State.fresh]))
theorem State.passFrame_form (s : State) (f : RxFrame) (h : Memory.wf s.mem = true) :
    Memory.wf (State.passFrame s f).mem = true := by
  unfold State.passFrame
  try dsimp only [State.fresh]
  repeat' (first | with_reducible assumption | with_reducible rfl | with_reducible exact reset_form | (with_reducible apply State.served_form) | (with_reducible refine foldl_form _ (fun t x ht => ?_) _ _ ?_) | (with_reducible refine foldl_fst_form _ (fun t x ht => ?_) _ _ ?_) | split | (intro _) | (dsimp only [State.fresh]))
theorem State.inbound_form (s : State) (f : RxFrame) (h : Memory.wf s.mem = true) :
    Memory.wf (State.inbound s f).mem = true := by
  unfold State.inbound
  try dsimp only [State.fresh]
  repeat' (first | with_reducible assumption | with_reducible rfl | with_reducible exact reset_form | (with_reducible apply State.passFrame_form) | (rw [State.acted_mem]) | (rw [State.crcError_mem]) | (with_reducible refine foldl_form _ (fun t x ht => ?_) _ _ ?_) | (with_reducible refine foldl_fst_form _ (fun t x ht => ?_) _ _ ?_) | split | (intro _) | (dsimp only [State.fresh]))
theorem State.invocationStart_form (s : State) (n : Nat) (h : Memory.wf s.mem = true) :
    Memory.wf (State.invocationStart s n).mem = true := by
  unfold State.invocationStart
  extract_lets a look rec_
  have hl : Memory.wf look.1.mem = true := by unfold look; rw [State.sramRead_mem]; exact h
  clear_value look rec_ a
  split
  · exact h
  · extract_lets
    split
    · exact h
    · split
      · exact hl
      · split
        · exact hl
        · split
          · exact State.sramWrite_form _ _ _ (State.sramWrite_form _ _ _ hl)
          · split
            · exact hl
            · next m hm =>
              have hm2 : Memory.wf m.2.mem = true := by rw [tryConfig_mem _ _ _ _ _ _ _ m hm]; exact hl
              extract_lets s2 s3
              have h3 : Memory.wf s3.mem = true := State.sramWrite_form _ _ _ (State.sramWrite_form _ _ _ hm2)
              clear_value s3
              split
              · exact h3
              · exact State.useVariant_form _ _ _ _ _ h3
theorem State.localWrite_form (s : State) (core : Nat) (off : Nat) (d : List Byte) (h : Memory.wf s.mem = true) :
    Memory.wf (State.localWrite s core off d).mem = true := by
  unfold State.localWrite
  try dsimp only [State.fresh]
  repeat' (first | with_reducible assumption | with_reducible rfl | with_reducible exact reset_form | (with_reducible apply State.sramWrite_form) | (with_reducible refine foldl_form _ (fun t x ht => ?_) _ _ ?_) | (with_reducible refine foldl_fst_form _ (fun t x ht => ?_) _ _ ?_) | split | (intro _) | (dsimp only [State.fresh]))
theorem State.mgmtServe_form (s : State) (f : MgmtFrame) (e : Env) (h : Memory.wf s.mem = true) :
    Memory.wf (State.mgmtServe s f e).mem = true := by
  unfold State.mgmtServe
  try dsimp only [State.fresh]
  repeat' (first | with_reducible assumption | with_reducible rfl | with_reducible exact reset_form | (with_reducible apply State.respond_form) | (rw [State.incO_mem]) | (rw [State.putSent_mem]) | (rw [State.mgmtDiscovery_mem]) | (rw [State.mgmtAnswer_mem]) | (with_reducible refine foldl_form _ (fun t x ht => ?_) _ _ ?_) | (with_reducible refine foldl_fst_form _ (fun t x ht => ?_) _ _ ?_) | split | (intro _) | (dsimp only [State.fresh]))
theorem State.mgmtArrive_form (s : State) (f : MgmtFrame) (e : Env) (h : Memory.wf s.mem = true) :
    Memory.wf (State.mgmtArrive s f e).mem = true := by
  unfold State.mgmtArrive
  try dsimp only [State.fresh]
  repeat' (first | with_reducible assumption | with_reducible rfl | with_reducible exact reset_form | (with_reducible apply State.mgmtServe_form) | (rw [State.stage_mem]) | (rw [State.incO_mem]) | (with_reducible refine foldl_form _ (fun t x ht => ?_) _ _ ?_) | (with_reducible refine foldl_fst_form _ (fun t x ht => ?_) _ _ ?_) | split | (intro _) | (dsimp only [State.fresh]))
theorem State.moveIn_form (s : State) (core : Nat) (r : Requester) (f : Fmt) (n : Nat) (m : Nat × Nat × Nat) (h : Memory.wf s.mem = true) :
    Memory.wf (State.moveIn s core r f n m).1.mem = true := by
  unfold State.moveIn
  try dsimp only [State.fresh]
  repeat' (first | with_reducible assumption | with_reducible rfl | with_reducible exact reset_form | (with_reducible apply State.localWrite_form) | (with_reducible apply untilStop_form) | (rw [State.farReadRun_mem]) | (rw [State.farRead_mem]) | (with_reducible refine foldl_form _ (fun t x ht => ?_) _ _ ?_) | (with_reducible refine foldl_fst_form _ (fun t x ht => ?_) _ _ ?_) | split | (intro _) | (dsimp only [State.fresh]))
theorem State.moveOut_form (s : State) (core : Nat) (r : Requester) (f : Fmt) (n : Nat) (m : Nat × Nat × Nat) (h : Memory.wf s.mem = true) :
    Memory.wf (State.moveOut s core r f n m).1.mem = true := by
  unfold State.moveOut
  try dsimp only [State.fresh]
  repeat' (first | with_reducible assumption | with_reducible rfl | with_reducible exact reset_form | (with_reducible apply State.farWriteRun_form) | (rw [State.localRead_mem]) | (with_reducible refine foldl_form _ (fun t x ht => ?_) _ _ ?_) | (with_reducible refine foldl_fst_form _ (fun t x ht => ?_) _ _ ?_) | split | (intro _) | (dsimp only [State.fresh]))
theorem State.packageReset_form (s : State) (x : ResetStep) (h : Memory.wf s.mem = true) :
    Memory.wf (State.packageReset s x).mem = true := by
  unfold State.packageReset
  try dsimp only [State.fresh]
  repeat' (first | with_reducible assumption | with_reducible rfl | with_reducible exact reset_form | (with_reducible apply State.resetUnits_form) | (rw [State.endTransfers_mem]) | (rw [State.resetWindows_mem]) | (rw [State.resetContexts_mem]) | (rw [State.resetSlots_mem]) | (rw [State.clearLoopQueues_mem]) | (rw [State.leaveRun_mem]) | (rw [State.withLoop_mem]) | (rw [State.setO_mem]) | (rw [State.incO_mem]) | (rw [State.setOBit_mem]) | (rw [State.selfRefreshAll_mem]) | (rw [State.endHandoff_mem]) | (rw [State.bootParts_mem]) | (rw [State.settle_mem]) | (rw [State.beginTests_mem]) | (with_reducible refine foldl_form _ (fun t x ht => ?_) _ _ ?_) | (with_reducible refine foldl_fst_form _ (fun t x ht => ?_) _ _ ?_) | split | (intro _) | (dsimp only [State.fresh]))
theorem State.perform_form (s : State) (core : Nat) (e : Nat) (opc : Nat) (eff : State → Flight → State × Flight) (h_eff : ∀ t a1, Memory.wf t.mem = true → Memory.wf (eff t a1).1.mem = true) (h : Memory.wf s.mem = true) :
    Memory.wf (State.perform s core e opc eff).mem = true := by
  unfold State.perform
  try dsimp only [State.fresh]
  repeat' (first | with_reducible assumption | with_reducible rfl | with_reducible exact reset_form | (with_reducible apply h_eff) | (rw [State.setEngine_mem]) | (with_reducible refine foldl_form _ (fun t x ht => ?_) _ _ ?_) | (with_reducible refine foldl_fst_form _ (fun t x ht => ?_) _ _ ?_) | split | (intro _) | (dsimp only [State.fresh]))
theorem State.placeImage_form (s : State) (k : Nat) (own : Nat) (p : Nat) (e : Nat) (img : List Byte) (h : Memory.wf s.mem = true) :
    Memory.wf (State.placeImage s k own p e img).mem = true := by
  unfold State.placeImage
  try dsimp only [State.fresh]
  repeat' (first | with_reducible assumption | with_reducible rfl | with_reducible exact reset_form | (with_reducible apply State.wipe_form) | (with_reducible apply State.poke_form) | (rw [State.rgnInstall_mem]) | (rw [State.setO_mem]) | (with_reducible refine foldl_form _ (fun t x ht => ?_) _ _ ?_) | (with_reducible refine foldl_fst_form _ (fun t x ht => ?_) _ _ ?_) | split | (intro _) | (dsimp only [State.fresh]))
theorem State.powerCycled_form (s : State) (_h : Memory.wf s.mem = true) :
    Memory.wf (State.powerCycled s).mem = true := by
  unfold State.powerCycled
  try dsimp only [State.fresh]
  repeat' (first | with_reducible assumption | with_reducible rfl | with_reducible exact reset_form | (rw [State.setCore_mem]) | (rw [State.setO_mem]) | (rw [State.setD_mem]) | (rw [State.swapsDue_mem]) | (rw [State.derivePages_mem]) | (with_reducible refine foldl_form _ (fun t x ht => ?_) _ _ ?_) | (with_reducible refine foldl_fst_form _ (fun t x ht => ?_) _ _ ?_) | split | (intro _) | (dsimp only [State.fresh]))
theorem State.powerOn_form (s : State) (h : Memory.wf s.mem = true) :
    Memory.wf (State.powerOn s).mem = true := by
  unfold State.powerOn
  try dsimp only [State.fresh]
  repeat' (first | with_reducible assumption | with_reducible rfl | with_reducible exact reset_form | (with_reducible apply State.served_form) | (with_reducible apply State.powerCycled_form) | (rw [State.loadSummary_mem]) | (rw [State.setO_mem]) | (rw [State.chargeCycle_mem]) | (rw [State.stage_mem]) | (rw [State.bootParts_mem]) | (rw [State.settle_mem]) | (with_reducible refine foldl_form _ (fun t x ht => ?_) _ _ ?_) | (with_reducible refine foldl_fst_form _ (fun t x ht => ?_) _ _ ?_) | split | (intro _) | (dsimp only [State.fresh]))
theorem State.putTokens_form (s : State) (l : List Nat) (h : Memory.wf s.mem = true) :
    Memory.wf (State.putTokens s l).mem = true := by
  unfold State.putTokens
  try dsimp only [State.fresh]
  repeat' (first | with_reducible assumption | with_reducible rfl | with_reducible exact reset_form | (with_reducible apply State.hubPut_form) | (rw [State.incO_mem]) | (with_reducible refine foldl_form _ (fun t x ht => ?_) _ _ ?_) | (with_reducible refine foldl_fst_form _ (fun t x ht => ?_) _ _ ?_) | split | (intro _) | (dsimp only [State.fresh]))
theorem State.rebuild_form (s : State) (h : Memory.wf s.mem = true) :
    Memory.wf (State.rebuild s).mem = true := by
  unfold State.rebuild
  try dsimp only [State.fresh]
  repeat' (first | with_reducible assumption | with_reducible rfl | with_reducible exact reset_form | (with_reducible apply State.dropBytes_form) | (rw [State.derivePages_mem]) | (rw [State.rgnDrop_mem]) | (rw [State.setO_mem]) | (rw [State.slotFails_mem]) | (rw [State.ctxStopped_mem]) | (rw [State.abandonAll_mem]) | (rw [State.settle_mem]) | (with_reducible refine foldl_form _ (fun t x ht => ?_) _ _ ?_) | (with_reducible refine foldl_fst_form _ (fun t x ht => ?_) _ _ ?_) | split | (intro _) | (dsimp only [State.fresh]))
theorem State.refreshes_form (s : State) (ch : Nat) (y2 : Nat) (h : Memory.wf s.mem = true) :
    Memory.wf (State.refreshes s ch y2).mem = true := by
  induction y2 generalizing s with
  | zero => exact h
  | succ n ih =>
    unfold State.refreshes
    exact ih _ (by rw [State.refresh_mem]; exact h)
theorem State.reload_form (s : State) (k : Nat) (damaged : Bool) (h : Memory.wf s.mem = true) :
    Memory.wf (State.reload s k damaged).mem = true := by
  unfold State.reload
  try dsimp only [State.fresh]
  repeat' (first | with_reducible assumption | with_reducible rfl | with_reducible exact reset_form | (with_reducible apply State.placeImage_form) | (rw [State.rgnDrop_mem]) | (rw [State.slotFails_mem]) | (rw [State.setO_mem]) | (rw [State.settle_mem]) | (rw [State.measure_mem]) | (with_reducible refine foldl_form _ (fun t x ht => ?_) _ _ ?_) | (with_reducible refine foldl_fst_form _ (fun t x ht => ?_) _ _ ?_) | split | (intro _) | (dsimp only [State.fresh]))
theorem State.restartCtx_form (s : State) (n : Nat) (h : Memory.wf s.mem = true) :
    Memory.wf (State.restartCtx s n).mem = true := by
  unfold State.restartCtx
  try dsimp only [State.fresh]
  repeat' (first | with_reducible assumption | with_reducible rfl | with_reducible exact reset_form | (with_reducible apply State.ctxBegin_form) | (rw [State.setCtxRst_mem]) | (rw [State.ctxStopped_mem]) | (rw [State.setO_mem]) | (rw [State.recreateRings_mem]) | (rw [State.ctxRestarted_mem]) | (with_reducible refine foldl_form _ (fun t x ht => ?_) _ _ ?_) | (with_reducible refine foldl_fst_form _ (fun t x ht => ?_) _ _ ?_) | split | (intro _) | (dsimp only [State.fresh]))
theorem State.restartReady_form (s : State) (h : Memory.wf s.mem = true) :
    Memory.wf (State.restartReady s).mem = true := by
  unfold State.restartReady
  try dsimp only [State.fresh]
  repeat' (first | with_reducible assumption | with_reducible rfl | with_reducible exact reset_form | (with_reducible apply State.restartCtx_form) | (rw [State.dropRestarting_mem]) | (rw [State.setO_mem]) | (rw [State.recompose_mem]) | (with_reducible refine foldl_form _ (fun t x ht => ?_) _ _ ?_) | (with_reducible refine foldl_fst_form _ (fun t x ht => ?_) _ _ ?_) | split | (intro _) | (dsimp only [State.fresh]))
theorem State.runTile_form (s : State) (src : State) (core : Nat) (b : Bound) (f : Flight) (p : TileAt × Nat) (h : Memory.wf s.mem = true) :
    Memory.wf (State.runTile s src core b f p).mem = true := by
  unfold State.runTile
  try dsimp only [State.fresh]
  repeat' (first | with_reducible assumption | with_reducible rfl | with_reducible exact reset_form | (with_reducible apply State.drainRun_form) | (rw [State.setCore_mem]) | (rw [State.event_mem]) | (with_reducible refine foldl_form _ (fun t x ht => ?_) _ _ ?_) | (with_reducible refine foldl_fst_form _ (fun t x ht => ?_) _ _ ?_) | split | (intro _) | (dsimp only [State.fresh]))
theorem State.testFindings_form (s : State) (c : Nat) (cols : List Nat) (failed : Bool) (h : Memory.wf s.mem = true) :
    Memory.wf (State.testFindings s c cols failed).mem = true := by
  unfold State.testFindings
  try dsimp only [State.fresh]
  repeat' (first | with_reducible assumption | with_reducible rfl | with_reducible exact reset_form | (with_reducible apply State.checkCluster_form) | (rw [State.applyRepair_mem]) | (rw [State.setRepairs_mem]) | (rw [State.logEv_mem]) | (with_reducible refine foldl_form _ (fun t x ht => ?_) _ _ ?_) | (with_reducible refine foldl_fst_form _ (fun t x ht => ?_) _ _ ?_) | split | (intro _) | (dsimp only [State.fresh]))
theorem State.tilesIn_form (s : State) (core : Nat) (r : Requester) (b : Bound) (res : Nat) (ct : Nat × Nat) (h : Memory.wf s.mem = true) :
    Memory.wf (State.tilesIn s core r b res ct).1.mem = true := by
  unfold State.tilesIn
  try dsimp only [State.fresh]
  repeat' (first | with_reducible assumption | with_reducible rfl | with_reducible exact reset_form | (with_reducible apply State.localWrite_form) | (rw [State.farReadRun_mem]) | (with_reducible refine foldl_form _ (fun t x ht => ?_) _ _ ?_) | (with_reducible refine foldl_fst_form _ (fun t x ht => ?_) _ _ ?_) | split | (intro _) | (dsimp only [State.fresh]))
theorem State.tilesOut_form (s : State) (core : Nat) (r : Requester) (b : Bound) (res : Nat) (ct : Nat × Nat) (h : Memory.wf s.mem = true) :
    Memory.wf (State.tilesOut s core r b res ct).1.mem = true := by
  unfold State.tilesOut
  try dsimp only [State.fresh]
  repeat' (first | with_reducible assumption | with_reducible rfl | with_reducible exact reset_form | (with_reducible apply untilStop_form) | (with_reducible apply State.farWriteRun_form) | (rw [State.localRead_mem]) | (with_reducible refine foldl_form _ (fun t x ht => ?_) _ _ ?_) | (with_reducible refine foldl_fst_form _ (fun t x ht => ?_) _ _ ?_) | split | (intro _) | (dsimp only [State.fresh]))
theorem State.trip_form (s : State) (h : Memory.wf s.mem = true) :
    Memory.wf (State.trip s).mem = true := by
  have h2 : Memory.wf (((s.setO 0x1F2001 4).incO 0x200009 1).logEv 0x21 0 0 {}).mem = true := by
    rw [State.logEv_mem, State.incO_mem, State.setO_mem]; exact h
  rw [State.trip]
  generalize (((s.setO 0x1F2001 4).incO 0x200009 1).logEv 0x21 0 0 {}) = s2 at h2 ⊢
  dsimp only
  rw [State.settle_mem]
  dsimp only
  split
  · exact h2
  · rw [State.setCurrent_mem]; exact State.enterP4_form _ h2
theorem State.writeRow_form (s : State) (core : Nat) (f : Flight) (v : View) (off : Nat) (i0 : Nat) (l : List Num) (h : Memory.wf s.mem = true) :
    Memory.wf (State.writeRow s core f v off i0 l).mem = true := by
  unfold State.writeRow
  try dsimp only [State.fresh]
  repeat' (first | with_reducible assumption | with_reducible rfl | with_reducible exact reset_form | (with_reducible apply State.writeRun_form) | (rw [State.event_mem]) | (with_reducible refine foldl_form _ (fun t x ht => ?_) _ _ ?_) | (with_reducible refine foldl_fst_form _ (fun t x ht => ?_) _ _ ?_) | split | (intro _) | (dsimp only [State.fresh]))
theorem copyEffect_form (core : Nat) (s : State) (f : Flight) (h : Memory.wf s.mem = true) :
    Memory.wf (copyEffect core s f).1.mem = true := by
  unfold copyEffect
  try dsimp only [State.fresh]
  repeat' (first | with_reducible assumption | with_reducible rfl | with_reducible exact reset_form | (with_reducible apply untilStop_form) | (with_reducible apply State.sramWrite_form) | (rw [State.localRetried_mem]) | (rw [State.sramRead_mem]) | (with_reducible refine foldl_form _ (fun t x ht => ?_) _ _ ?_) | (with_reducible refine foldl_fst_form _ (fun t x ht => ?_) _ _ ?_) | split | (intro _) | (dsimp only [State.fresh]))
theorem eachRow_form (core : Nat) (rowOf : State → Bound → Flight → Nat → List Num) (s : State) (src : State) (b : Bound) (f : Flight) (h : Memory.wf s.mem = true) :
    Memory.wf (eachRow core rowOf s src b f).mem = true := by
  unfold eachRow
  try dsimp only [State.fresh]
  repeat' (first | with_reducible assumption | with_reducible rfl | with_reducible exact reset_form | (with_reducible apply State.writeRow_form) | (with_reducible refine foldl_form _ (fun t x ht => ?_) _ _ ?_) | (with_reducible refine foldl_fst_form _ (fun t x ht => ?_) _ _ ?_) | split | (intro _) | (dsimp only [State.fresh]))
theorem dropoutBody_form (core : Nat) (s : State) (src : State) (b : Bound) (f : Flight) (h : Memory.wf s.mem = true) :
    Memory.wf (dropoutBody core s src b f).mem = true := by
  unfold dropoutBody
  try dsimp only [State.fresh]
  repeat' (first | with_reducible assumption | with_reducible rfl | with_reducible exact reset_form | (with_reducible apply eachRow_form) | (with_reducible apply State.sramWrite_form) | (with_reducible refine foldl_form _ (fun t x ht => ?_) _ _ ?_) | (with_reducible refine foldl_fst_form _ (fun t x ht => ?_) _ _ ?_) | split | (intro _) | (dsimp only [State.fresh]))
theorem fillEffect_form (core : Nat) (s : State) (f : Flight) (h : Memory.wf s.mem = true) :
    Memory.wf (fillEffect core s f).1.mem = true := by
  unfold fillEffect
  try dsimp only [State.fresh]
  repeat' (first | with_reducible assumption | with_reducible rfl | with_reducible exact reset_form | (with_reducible apply State.sramWrite_form) | (rw [State.localRetried_mem]) | (with_reducible refine foldl_form _ (fun t x ht => ?_) _ _ ?_) | (with_reducible refine foldl_fst_form _ (fun t x ht => ?_) _ _ ?_) | split | (intro _) | (dsimp only [State.fresh]))
theorem gatherBody_form (core : Nat) (s : State) (src : State) (b : Bound) (f : Flight) (h : Memory.wf s.mem = true) :
    Memory.wf (gatherBody core s src b f).mem = true := by
  unfold gatherBody
  try dsimp only [State.fresh]
  repeat' (first | with_reducible assumption | with_reducible rfl | with_reducible exact reset_form | (with_reducible apply eachRow_form) | (rw [State.event_mem]) | (with_reducible refine foldl_form _ (fun t x ht => ?_) _ _ ?_) | (with_reducible refine foldl_fst_form _ (fun t x ht => ?_) _ _ ?_) | split | (intro _) | (dsimp only [State.fresh]))
theorem loadScalesEffect_form (core : Nat) (s : State) (f : Flight) (h : Memory.wf s.mem = true) :
    Memory.wf (loadScalesEffect core s f).1.mem = true := by
  unfold loadScalesEffect
  try dsimp only [State.fresh]
  repeat' (first | with_reducible assumption | with_reducible rfl | with_reducible exact reset_form | (rw [State.gather_mem]) | (rw [State.setCore_mem]) | (rw [State.event_mem]) | (with_reducible refine foldl_form _ (fun t x ht => ?_) _ _ ?_) | (with_reducible refine foldl_fst_form _ (fun t x ht => ?_) _ _ ?_) | split | (intro _) | (dsimp only [State.fresh]))
theorem lutBody_form (core : Nat) (s : State) (src : State) (b : Bound) (f : Flight) (h : Memory.wf s.mem = true) :
    Memory.wf (lutBody core s src b f).mem = true := by
  unfold lutBody
  try dsimp only [State.fresh]
  repeat' (first | with_reducible assumption | with_reducible rfl | with_reducible exact reset_form | (with_reducible apply eachRow_form) | (rw [State.setCore_mem]) | (with_reducible refine foldl_form _ (fun t x ht => ?_) _ _ ?_) | (with_reducible refine foldl_fst_form _ (fun t x ht => ?_) _ _ ?_) | split | (intro _) | (dsimp only [State.fresh]))
theorem matrixEffect_form (core : Nat) (s : State) (f : Flight) (h : Memory.wf s.mem = true) :
    Memory.wf (matrixEffect core s f).1.mem = true := by
  unfold matrixEffect
  try dsimp only [State.fresh]
  repeat' (first | with_reducible assumption | with_reducible rfl | with_reducible exact reset_form | (with_reducible apply State.runTile_form) | (rw [State.gather_mem]) | (rw [State.setCore_mem]) | (rw [State.event_mem]) | (with_reducible refine foldl_form _ (fun t x ht => ?_) _ _ ?_) | (with_reducible refine foldl_fst_form _ (fun t x ht => ?_) _ _ ?_) | split | (intro _) | (dsimp only [State.fresh]))
theorem normBody_form (core : Nat) (s : State) (src : State) (b : Bound) (f : Flight) (h : Memory.wf s.mem = true) :
    Memory.wf (normBody core s src b f).mem = true := by
  unfold normBody
  try dsimp only [State.fresh]
  repeat' (first | with_reducible assumption | with_reducible rfl | with_reducible exact reset_form | (with_reducible apply eachRow_form) | (rw [State.setCore_mem]) | (with_reducible refine foldl_form _ (fun t x ht => ?_) _ _ ?_) | (with_reducible refine foldl_fst_form _ (fun t x ht => ?_) _ _ ?_) | split | (intro _) | (dsimp only [State.fresh]))
theorem poolBody_form (core : Nat) (s : State) (src : State) (b : Bound) (f : Flight) (h : Memory.wf s.mem = true) :
    Memory.wf (poolBody core s src b f).mem = true := by
  unfold poolBody
  try dsimp only [State.fresh]
  repeat' (first | with_reducible assumption | with_reducible rfl | with_reducible exact reset_form | (with_reducible apply State.writeRow_form) | (with_reducible refine foldl_form _ (fun t x ht => ?_) _ _ ?_) | (with_reducible refine foldl_fst_form _ (fun t x ht => ?_) _ _ ?_) | split | (intro _) | (dsimp only [State.fresh]))
theorem quantRow_form (core : Nat) (quant : Bool) (src : State) (b : Bound) (f : Flight) (s : State) (r : Nat) (h : Memory.wf s.mem = true) :
    Memory.wf (quantRow core quant src b f s r).mem = true := by
  unfold quantRow
  dsimp only
  apply State.writeRun_form
  rw [State.event_mem, State.setCore_mem]
  exact h
theorem quantBody_form (core : Nat) (quant : Bool) (s : State) (src : State) (b : Bound) (f : Flight) (h : Memory.wf s.mem = true) :
    Memory.wf (quantBody core quant s src b f).mem = true := by
  unfold quantBody
  have h1 : Memory.wf ((List.range b.cmd.rows).foldl (quantRow core quant src b f) s).mem = true :=
    foldl_form _ (fun t x ht => quantRow_form core quant src b f t x ht) _ _ h
  dsimp only
  split
  · rw [State.event_mem]; exact h1
  · exact h1
theorem reduceBody_form (core : Nat) (s : State) (src : State) (b : Bound) (f : Flight) (h : Memory.wf s.mem = true) :
    Memory.wf (reduceBody core s src b f).mem = true := by
  unfold reduceBody
  try dsimp only [State.fresh]
  repeat' (first | with_reducible assumption | with_reducible rfl | with_reducible exact reset_form | (with_reducible apply State.writeRow_form) | (with_reducible refine foldl_form _ (fun t x ht => ?_) _ _ ?_) | (with_reducible refine foldl_fst_form _ (fun t x ht => ?_) _ _ ?_) | split | (intro _) | (dsimp only [State.fresh]))
theorem vectorEffect_form (core : Nat) (body : State →   State → Bound → Flight → State) (s : State) (f : Flight) (h_body : ∀ t a1 a2 a3, Memory.wf t.mem = true → Memory.wf (body t a1 a2 a3).mem = true) (h : Memory.wf s.mem = true) :
    Memory.wf (vectorEffect core body s f).1.mem = true := by
  unfold vectorEffect
  try dsimp only [State.fresh]
  repeat' (first | with_reducible assumption | with_reducible rfl | with_reducible exact reset_form | (with_reducible apply h_body) | (rw [State.vectorReads_mem]) | (rw [State.event_mem]) | (with_reducible refine foldl_form _ (fun t x ht => ?_) _ _ ?_) | (with_reducible refine foldl_fst_form _ (fun t x ht => ?_) _ _ ?_) | split | (intro _) | (dsimp only [State.fresh]))
theorem reduceEffect_form (core : Nat) (s : State) (f : Flight) (h : Memory.wf s.mem = true) :
    Memory.wf (reduceEffect core s f).1.mem = true := by
  unfold reduceEffect
  try dsimp only [State.fresh]
  repeat' (first | with_reducible assumption | with_reducible rfl | with_reducible exact reset_form | (with_reducible apply vectorEffect_form) | (with_reducible apply reduceBody_form) | (rw [State.gather_mem]) | (with_reducible refine foldl_form _ (fun t x ht => ?_) _ _ ?_) | (with_reducible refine foldl_fst_form _ (fun t x ht => ?_) _ _ ?_) | split | (intro _) | (dsimp only [State.fresh]))
theorem streamEnd_form (s : State) (f : Flight) (r : State × Nat) (runs : List (Nat × Nat)) (code : Nat) (unit : Nat) (n : Nat) (hr : Memory.wf r.1.mem = true) (h : Memory.wf s.mem = true) :
    Memory.wf (streamEnd s f r runs code unit n).1.mem = true := by
  unfold streamEnd
  split
  · rw [State.farRetried_mem]; exact h
  · split <;> (rw [State.event_mem]; exact hr)
theorem sampleBody_form (core : Nat) (s : State) (src : State) (b : Bound) (f : Flight) (h : Memory.wf s.mem = true) :
    Memory.wf (sampleBody core s src b f).mem = true := by
  unfold sampleBody
  try dsimp only [State.fresh]
  repeat' (first | with_reducible assumption | with_reducible rfl | with_reducible exact reset_form | (with_reducible apply State.sramWrite_form) | (rw [State.sampleRecord_mem]) | (rw [State.event_mem]) | (rw [State.incO_mem]) | (with_reducible refine foldl_form _ (fun t x ht => ?_) _ _ ?_) | (with_reducible refine foldl_fst_form _ (fun t x ht => ?_) _ _ ?_) | split | (intro _) | (dsimp only [State.fresh]))
theorem scatterRow_form (core : Nat) (src : State) (b : Bound) (f : Flight) (a : State × List Nat) (r : Nat) (h : Memory.wf a.1.mem = true) :
    Memory.wf (scatterRow core src b f a r).1.mem = true := by
  unfold scatterRow
  split
  · exact h
  · exact State.writeRow_form _ _ _ _ _ _ _ h
theorem scatterBody_form (core : Nat) (s : State) (src : State) (b : Bound) (f : Flight) (h : Memory.wf s.mem = true) :
    Memory.wf (scatterBody core s src b f).mem = true := by
  unfold scatterBody
  rw [State.event_mem]
  exact foldl_fst_form _ (fun t x ht => scatterRow_form core src b f t x ht) _ (s, []) h
theorem softmaxBody_form (core : Nat) (s : State) (src : State) (b : Bound) (f : Flight) (h : Memory.wf s.mem = true) :
    Memory.wf (softmaxBody core s src b f).mem = true := by
  unfold softmaxBody
  try dsimp only [State.fresh]
  repeat' (first | with_reducible assumption | with_reducible rfl | with_reducible exact reset_form | (with_reducible apply eachRow_form) | (rw [State.event_mem]) | (with_reducible refine foldl_form _ (fun t x ht => ?_) _ _ ?_) | (with_reducible refine foldl_fst_form _ (fun t x ht => ?_) _ _ ?_) | split | (intro _) | (dsimp only [State.fresh]))
theorem spillEffect_form (core : Nat) (s : State) (f : Flight) (h : Memory.wf s.mem = true) :
    Memory.wf (spillEffect core s f).1.mem = true := by
  unfold spillEffect
  try dsimp only [State.fresh]
  repeat' (first | with_reducible assumption | with_reducible rfl | with_reducible exact reset_form | (with_reducible apply State.farWrite_form) | (with_reducible apply streamEnd_form) | (with_reducible apply untilStop_form) | (with_reducible refine foldl_form _ (fun t x ht => ?_) _ _ ?_) | (with_reducible refine foldl_fst_form _ (fun t x ht => ?_) _ _ ?_) | split | (intro _) | (dsimp only [State.fresh]))
theorem streamEffect_form (core : Nat) (isIn : Bool) (s : State) (f : Flight) (h : Memory.wf s.mem = true) :
    Memory.wf (streamEffect core isIn s f).1.mem = true := by
  unfold streamEffect
  try dsimp only [State.fresh]
  repeat' (first | with_reducible assumption | with_reducible rfl | with_reducible exact reset_form | (with_reducible apply State.tilesIn_form) | (with_reducible apply State.tilesOut_form) | (with_reducible apply streamEnd_form) | (with_reducible apply untilStop_form) | (with_reducible apply State.moveIn_form) | (with_reducible apply State.moveOut_form) | (rw [State.localRetried_mem]) | (with_reducible refine foldl_form _ (fun t x ht => ?_) _ _ ?_) | (with_reducible refine foldl_fst_form _ (fun t x ht => ?_) _ _ ?_) | split | (intro _) | (dsimp only [State.fresh]))
theorem winWriteEffect_form (core : Nat) (s : State) (f : Flight) (h : Memory.wf s.mem = true) :
    Memory.wf (winWriteEffect core s f).1.mem = true := by
  unfold winWriteEffect
  try dsimp only [State.fresh]
  repeat' (first | with_reducible assumption | with_reducible rfl | with_reducible exact reset_form | (with_reducible apply State.windowStore_form) | (rw [State.localRetried_mem]) | (rw [State.sramRead_mem]) | (rw [State.announce_mem]) | (rw [State.windowRefused_mem]) | (rw [State.retried_mem]) | (rw [State.sendPacket_mem]) | (with_reducible refine foldl_form _ (fun t x ht => ?_) _ _ ?_) | (with_reducible refine foldl_fst_form _ (fun t x ht => ?_) _ _ ?_) | split | (intro _) | (dsimp only [State.fresh]))
theorem State.afterEngine_form (t s : State) (core : Nat) (ok : Bool) (h : Memory.wf t.mem = true) :
    Memory.wf (State.afterEngine t s core ok).mem = true := by
  unfold State.afterEngine
  try dsimp only [State.fresh]
  repeat' (first | with_reducible assumption | with_reducible rfl | with_reducible exact reset_form | (with_reducible apply State.afterPreempt_form) | (with_reducible apply State.serveWaiting_form) | (rw [State.finishStops_mem]) | (rw [State.saveGoesOn_mem]) | (with_reducible refine foldl_form _ (fun t x ht => ?_) _ _ ?_) | (with_reducible refine foldl_fst_form _ (fun t x ht => ?_) _ _ ?_) | split | (intro _) | (dsimp only [State.fresh]))
end Sys2Proof.Machine
end

