-- ==== Sys2Proof/Laws/Stream.lean ====
section
/-! SUPPORT. Accesses that are admitted and meet no error: what a far read returns, what a far write stores, and that the rest
of the state stays as it was. -/

namespace Sys2Proof.Machine

/-! ### Lists of consecutive keys -/

theorem Tbl.getList_append {α : Type} (d : α) (t : Tbl α) : ∀ (m k n : Nat),
    Tbl.getList d t k (m + n) = Tbl.getList d t k m ++ Tbl.getList d t (k + m) n
  | 0, k, n => by simp [Tbl.getList]
  | m + 1, k, n => by
    rw [show m + 1 + n = (m + n) + 1 by omega, Tbl.getList, Tbl.getList, Tbl.getList_append d t m (k + 1) n,
      show k + (m + 1) = k + 1 + m by omega]
    rfl

theorem Tbl.getList_length {α : Type} (d : α) (t : Tbl α) : ∀ (n k : Nat), (Tbl.getList d t k n).length = n
  | 0, _ => rfl
  | n + 1, k => by simp [Tbl.getList, Tbl.getList_length d t n]

theorem Tbl.setList_append {α : Type} [DecidableEq α] (d : α) : ∀ (l r : List α) (t : Tbl α) (k : Nat),
    Tbl.setList d t k (l ++ r) = Tbl.setList d (Tbl.setList d t k l) (k + l.length) r
  | [], r, t, k => by simp [Tbl.setList]
  | v :: l, r, t, k => by
    rw [List.cons_append, Tbl.setList, Tbl.setList, Tbl.setList_append d l r, List.length_cons,
      show k + (l.length + 1) = k + 1 + l.length by omega]

/-! ### The accesses of a run -/

/-- The end of the first `i` accesses of a run. -/
def accessEnd (a n i : Nat) : Nat := min (a + n) (max a ((a / 64 + i) * 64))

/-- An access of a run lies within the run. -/
theorem accessRuns_within {a n : Nat} {c : Nat × Nat} (h : c ∈ accessRuns a n) : a ≤ c.1 ∧ c.1 + c.2 ≤ a + n := by
  unfold accessRuns at h
  split at h
  · simp at h
  · obtain ⟨i, hi, rfl⟩ := List.mem_map.1 h
    rw [List.mem_range] at hi
    dsimp only
    omega

/-- Access `i` of a run starts where the ones before it end. -/
theorem access_start (a n i : Nat) (_ : n ≠ 0) (h : i < (a + n - 1) / 64 + 1 - a / 64) :
    accessEnd a n i = max a ((a / 64 + i) * 64) ∧
      accessEnd a n (i + 1) = min (a + n) ((a / 64 + i) * 64 + 64) ∧ accessEnd a n i ≤ accessEnd a n (i + 1) := by
  unfold accessEnd
  omega

theorem access_last (a n : Nat) (_ : n ≠ 0) : accessEnd a n ((a + n - 1) / 64 + 1 - a / 64) = a + n := by
  unfold accessEnd
  omega

theorem access_first (a n : Nat) : accessEnd a n 0 = a := by
  unfold accessEnd
  omega

/-- The accesses of a run, read in order, give the run. -/
theorem accessRuns_getList {α : Type} (d : α) (t : Tbl α) (a n : Nat) :
    (accessRuns a n).flatMap (fun c => Tbl.getList d t c.1 c.2) = Tbl.getList d t a n := by
  by_cases hn : n = 0
  · subst hn; simp [accessRuns, Tbl.getList]
  · have key : ∀ k, k ≤ (a + n - 1) / 64 + 1 - a / 64 →
        ((List.range k).map (fun i => (max a ((a / 64 + i) * 64), min (a + n) ((a / 64 + i) * 64 + 64) - max a ((a / 64 + i) * 64)))).flatMap
          (fun c => Tbl.getList d t c.1 c.2) = Tbl.getList d t a (accessEnd a n k - a) := by
      intro k
      induction k with
      | zero => intro _; rw [access_first]; simp [Tbl.getList]
      | succ k ih =>
        intro hk
        obtain ⟨h1, h2, h3⟩ := access_start a n k hn (by omega)
        rw [List.range_succ, List.map_append, List.flatMap_append, ih (by omega)]
        have h4 : a ≤ accessEnd a n k := by rw [h1]; omega
        rw [show accessEnd a n (k + 1) - a = (accessEnd a n k - a) + (accessEnd a n (k + 1) - accessEnd a n k) by omega,
          Tbl.getList_append, show a + (accessEnd a n k - a) = accessEnd a n k by omega]
        simp [h1, h2]
    have := key _ (Nat.le_refl _)
    rw [access_last a n hn, show a + n - a = n by omega] at this
    unfold accessRuns
    rw [if_neg hn]
    exact this

/-- The accesses of a run, written in order, store the run. -/
theorem accessRuns_setList {α : Type} [DecidableEq α] (d : α) (l : List α) (t : Tbl α) (a : Nat) :
    (accessRuns a l.length).foldl (fun t c => Tbl.setList d t c.1 ((l.drop (c.1 - a)).take c.2)) t = Tbl.setList d t a l := by
  by_cases hn : l.length = 0
  · rw [List.length_eq_zero_iff] at hn; subst hn; simp [accessRuns, Tbl.setList]
  · have key : ∀ k, k ≤ (a + l.length - 1) / 64 + 1 - a / 64 →
        ((List.range k).map (fun i => (max a ((a / 64 + i) * 64), min (a + l.length) ((a / 64 + i) * 64 + 64) - max a ((a / 64 + i) * 64)))).foldl
          (fun t c => Tbl.setList d t c.1 ((l.drop (c.1 - a)).take c.2)) t = Tbl.setList d t a (l.take (accessEnd a l.length k - a)) := by
      intro k
      induction k with
      | zero => intro _; rw [access_first]; simp [Tbl.setList]
      | succ k ih =>
        intro hk
        obtain ⟨h1, h2, h3⟩ := access_start a l.length k hn (by omega)
        have h4 : a ≤ accessEnd a l.length k := by rw [h1]; omega
        have h5 : accessEnd a l.length k ≤ a + l.length := by unfold accessEnd; omega
        rw [List.range_succ, List.map_append, List.foldl_append, ih (by omega)]
        rw [show accessEnd a l.length (k + 1) - a = (accessEnd a l.length k - a) + (accessEnd a l.length (k + 1) - accessEnd a l.length k) by omega,
          List.take_add, Tbl.setList_append]
        simp only [List.map_cons, List.map_nil, List.foldl_cons, List.foldl_nil]
        rw [List.length_take, show a + min (accessEnd a l.length k - a) l.length = accessEnd a l.length k by omega, ← h1, ← h2]
    have := key _ (Nat.le_refl _)
    rw [access_last a _ hn, show a + l.length - a = l.length by omega, List.take_length] at this
    unfold accessRuns
    rw [if_neg hn]
    exact this

/-! ### States that differ in memory, the DRAM protocol and the sideband of lines -/

/-- `u` is `s` but for memory, channels and sideband, and every line sound in `s` is sound in `u`. -/
def Moved (s u : State) : Prop :=
  (∃ m c l, u = { s with mem := m, chans := c, line := l }) ∧ ∀ a, LineSound s a → LineSound u a

theorem Moved.refl (s : State) : Moved s s := ⟨⟨_, _, _, rfl⟩, fun _ h => h⟩

theorem Moved.trans {s t u : State} (h : Moved s t) (g : Moved t u) : Moved s u := by
  refine ⟨?_, fun a ha => g.2 a (h.2 a ha)⟩
  obtain ⟨⟨_, _, _, rfl⟩, _⟩ := h
  obtain ⟨⟨_, _, _, rfl⟩, _⟩ := g
  exact ⟨_, _, _, rfl⟩

theorem Moved.farStatus {s u : State} (h : Moved s u) (r : Requester) (w : Bool) (a n : Nat) :
    u.farStatus r w a n = s.farStatus r w a n := by
  obtain ⟨⟨_, _, _, rfl⟩, _⟩ := h; rfl

theorem Moved.place {s u : State} (h : Moved s u) (a : Nat) : u.place a = s.place a := by
  obtain ⟨⟨_, _, _, rfl⟩, _⟩ := h; rfl

theorem Moved.dirtyWords {s u : State} (h : Moved s u) (a n : Nat) : u.dirtyWords a n = s.dirtyWords a n := by
  obtain ⟨⟨_, _, _, rfl⟩, _⟩ := h; rfl

/-- Sound words stay sound in a smaller range. -/
theorem WordsSound.sub {s : State} {a n b k : Nat} (h : WordsSound s a n) (h1 : a ≤ b) (h2 : b + k ≤ a + n) :
    WordsSound s b k := by
  unfold WordsSound State.dirtyWords at *
  rw [List.filter_eq_nil_iff] at *
  intro e he hc
  refine h e he ?_
  simp only [Bool.and_eq_true, decide_eq_true_eq] at *
  omega

theorem sramRead_sound {s : State} {a n : Nat} (h : WordsSound s a n) : s.sramRead a n = (s, false) := by
  unfold State.sramRead
  rw [h]; rfl

theorem sramWrite_sound {s : State} {a : Nat} {l : List Byte} (h : WordsSound s a l.length) : s.sramWrite a l = s.poke a l := by
  unfold State.sramWrite
  rw [h]; rfl

theorem Moved.poke (s : State) (a : Nat) (l : List Byte) : Moved s (s.poke a l) := ⟨⟨_, _, _, rfl⟩, fun _ h => h⟩

theorem send_moved (s : State) (c p f : Nat) : Moved s (s.send c p f) := ⟨⟨_, _, _, rfl⟩, fun _ h => h⟩

theorem sendLine_moved (s : State) (c o : Nat) (w : Bool) : Moved s (s.sendLine c o w) := ⟨⟨_, _, _, rfl⟩, fun _ h => h⟩

/-- A read of a sound line returns data and changes only the command protocol. -/
theorem lineRead_sound {s : State} {a : Nat} (h : LineSound s a) :
    (s.lineRead a).2 = true ∧ Moved s (s.lineRead a).1 ∧ (s.lineRead a).1.mem = s.mem ∧ (s.lineRead a).1.line = s.line := by
  unfold State.lineRead
  simp only [h.1, h.2.1, h.2.2.1, h.2.2.2, Bool.false_eq_true, if_false, Bool.false_and]
  exact ⟨trivial, ⟨⟨_, _, _, rfl⟩, fun _ h => h⟩, rfl, rfl⟩

/-- An admitted far read that meets no error returns the bytes of memory. -/
theorem farRead_sound {s u : State} (hm : Moved s u) (r : Requester) (a n : Nat) (h0 : s.farStatus r false a n = 0)
    (hs : FarSound s a n) :
    ∃ v, u.farRead r a n = (v, 0, Tbl.getList Memory.dflt u.mem a n) ∧ Moved s v ∧ v.mem = u.mem ∧ v.line = u.line := by
  unfold State.farRead
  rw [hm.farStatus, h0, if_neg (by simp), hm.place]
  unfold FarSound at hs
  have hsram : WordsSound s a n → u.sramRead a n = (u, false) := fun h =>
    sramRead_sound (show WordsSound u a n from (hm.dirtyWords a n).trans h)
  cases hp : s.place a with
  | dram x =>
    rw [hp] at hs
    obtain ⟨h1, h2, h3, h4⟩ := lineRead_sound (hm.2 _ hs)
    refine ⟨(u.lineRead (x / 64 * 64)).1, ?_, hm.trans h2, h3, h4⟩
    unfold State.readAt
    dsimp only
    rw [h1]
    unfold State.bytes
    rw [h3]
    rfl
  | _ =>
    rw [hp] at hs
    refine ⟨u, ?_, hm, rfl, rfl⟩
    unfold State.readAt
    dsimp only
    rw [hsram hs]
    rfl

/-- The FRT mode and a TAG that verifies leave the error bits of a sideband. -/
theorem sideband_sound (w f : Nat) (h : nbit w 0 = false ∧ nbit w 4 = false ∧ nbit w 5 = false ∧ nbit w 6 = false) :
    nbit (nput (nput w 1 2 f) 5 1 0) 0 = false ∧ nbit (nput (nput w 1 2 f) 5 1 0) 4 = false ∧
      nbit (nput (nput w 1 2 f) 5 1 0) 5 = false ∧ nbit (nput (nput w 1 2 f) 5 1 0) 6 = false := by
  unfold nbit nput nfld at *
  simp only [beq_eq_false_iff_ne, Nat.reducePow] at *
  omega

theorem written_sound (f : Nat) : nbit (f % 4 * 2) 0 = false ∧ nbit (f % 4 * 2) 4 = false ∧
    nbit (f % 4 * 2) 5 = false ∧ nbit (f % 4 * 2) 6 = false := by
  unfold nbit
  simp only [beq_eq_false_iff_ne, Nat.reducePow]
  omega

theorem setLine_moved {s : State} (a v : Nat)
    (h : nbit v 0 = false ∧ nbit v 4 = false ∧ nbit v 5 = false ∧ nbit v 6 = false) : Moved s (s.setLine a v) := by
  refine ⟨⟨_, _, _, rfl⟩, fun b hb => ?_⟩
  unfold LineSound State.lineOf State.setLine at *
  rw [Tbl.get_set]
  split
  · exact h
  · exact hb

/-- Bytes written to a sound line are stored. -/
theorem dramStore_sound {s : State} {a frt : Nat} {d : List Byte} (h : LineSound s (a / 64 * 64)) :
    (s.dramStore a frt d).2 = true ∧ Moved s (s.dramStore a frt d).1 ∧
      (s.dramStore a frt d).1.mem = Tbl.setList Memory.dflt s.mem a d := by
  unfold State.dramStore
  split
  · unfold State.lineWrite
    generalize s.dramMap a = p
    refine ⟨rfl, ?_, rfl⟩
    exact ((sendLine_moved s p.1 p.2 true).trans (setLine_moved a _ (written_sound frt))).trans (.poke ..)
  · unfold State.linePartial
    dsimp only
    obtain ⟨h1, h2, h3, h4⟩ := lineRead_sound h
    rw [h1, if_pos rfl]
    refine ⟨rfl, ?_, ?_⟩
    · refine ((h2.trans (sendLine_moved ..)).trans (setLine_moved _ _ (sideband_sound _ frt ?_))).trans (.poke ..)
      exact (sendLine_moved _ _ _ _).2 _ (h2.2 _ h)
    · rw [← h3]
      generalize (s.lineRead (a / 64 * 64)).1 = u
      rfl

/-- An admitted far write that meets no error stores its bytes. -/
theorem farWrite_sound {s u : State} (hm : Moved s u) (r : Requester) (frt a : Nat) (d : List Byte)
    (h0 : s.farStatus r true a d.length = 0) (hs : FarSound s a d.length) (hx : ∀ x, s.place a = .dram x → x = a) :
    ∃ v, u.farWrite r frt a d = (v, 0) ∧ Moved s v ∧ v.mem = Tbl.setList Memory.dflt u.mem a d := by
  unfold State.farWrite
  dsimp only
  rw [hm.farStatus, h0, if_neg (by simp), hm.place]
  unfold FarSound at hs
  have hsram : WordsSound s a d.length → u.sramWrite a d = u.poke a d := fun h =>
    sramWrite_sound (show WordsSound u a d.length from (hm.dirtyWords a d.length).trans h)
  cases hp : s.place a with
  | dram x =>
    have := hx x hp
    subst this
    rw [hp] at hs
    obtain ⟨h1, h2, h3⟩ := dramStore_sound (frt := frt) (d := d) (hm.2 _ hs)
    refine ⟨(u.dramStore x frt d).1, ?_, hm.trans h2, h3⟩
    unfold State.writeAt
    dsimp only
    rw [h1]
    rfl
  | _ =>
    rw [hp] at hs
    refine ⟨u.poke a d, ?_, hm.trans (.poke ..), rfl⟩
    unfold State.writeAt
    dsimp only
    rw [hsram hs]

theorem place_dram (s : State) (a x : Nat) (h : s.place a = .dram x) : x = a := by
  unfold State.place at h
  repeat' (first | (split at h) | (simp at h; done))
  all_goals simp_all

/-- A step that answers 0 on every element of a list, in order; where `k` holds it leaves the sideband of every line. -/
theorem untilStop_all {α : Type} (k : Prop) (f : State → α → State × Nat) (g : List Host.Cell → α → List Host.Cell)
    (s : State) : ∀ (l : List α) (u : State), Moved s u →
      (∀ x ∈ l, ∀ t, Moved s t → ∃ v, f t x = (v, 0) ∧ Moved s v ∧ v.mem = g t.mem x ∧ (k → v.line = t.line)) →
      ∃ v, untilStop l u f = (v, 0) ∧ Moved s v ∧ v.mem = l.foldl g u.mem ∧ (k → v.line = u.line)
  | [], u, hu, _ => ⟨u, rfl, hu, rfl, fun _ => rfl⟩
  | x :: l, u, hu, h => by
    obtain ⟨v, h1, h2, h3, h4⟩ := h x List.mem_cons_self u hu
    obtain ⟨w, k1, k2, k3, k4⟩ := untilStop_all k f g s l v h2 (fun y hy => h y (List.mem_cons_of_mem _ hy))
    refine ⟨w, ?_, k2, by rw [k3, h3]; rfl, fun hk => (k4 hk).trans (h4 hk)⟩
    unfold untilStop at k1 ⊢
    rw [List.foldl_cons, if_pos rfl, h1]
    exact k1

/-- A granted far run reads as memory holds it. -/
theorem farReadRun_sound {s u : State} (hm : Moved s u) (r : Requester) (a n : Nat) (h : FarGranted s r false a n) :
    ∃ v, u.farReadRun r a n = (v, 0, Tbl.getList Memory.dflt u.mem a n) ∧ Moved s v ∧ v.mem = u.mem ∧ v.line = u.line := by
  have key : ∀ (l : List (Nat × Nat)) (t : State) (p : List Byte), Moved s t →
      (∀ c ∈ l, s.farStatus r false c.1 c.2 = 0 ∧ FarSound s c.1 c.2) →
      ∃ v, l.foldl (readStep r) (t, 0, p) = (v, 0, p ++ l.flatMap (fun c => Tbl.getList Memory.dflt t.mem c.1 c.2)) ∧
        Moved s v ∧ v.mem = t.mem ∧ v.line = t.line := by
    intro l
    induction l with
    | nil => intro t p ht _; exact ⟨t, by simp, ht, rfl, rfl⟩
    | cons c l ih =>
      intro t p ht hl
      obtain ⟨v, h1, h2, h3, h4⟩ := farRead_sound ht r c.1 c.2 (hl c List.mem_cons_self).1 (hl c List.mem_cons_self).2
      obtain ⟨w, k1, k2, k3, k4⟩ := ih v (p ++ Tbl.getList Memory.dflt t.mem c.1 c.2) h2 (fun y hy => hl y (List.mem_cons_of_mem _ hy))
      refine ⟨w, ?_, k2, k3.trans h3, k4.trans h4⟩
      rw [List.foldl_cons]
      have e : readStep r (t, 0, p) c = (v, 0, p ++ Tbl.getList Memory.dflt t.mem c.1 c.2) := by
        unfold readStep
        rw [if_pos rfl]
        dsimp only
        rw [h1]
      rw [e, k1, h3]
      simp
  obtain ⟨v, h1, h2, h3, h4⟩ := key (accessRuns a n) u [] hm h
  refine ⟨v, ?_, h2, h3, h4⟩
  unfold State.farReadRun
  rw [h1, accessRuns_getList, List.nil_append]

/-- A granted far run is stored. -/
theorem farWriteRun_sound {s u : State} (hm : Moved s u) (r : Requester) (frt a : Nat) (d : List Byte)
    (h : FarGranted s r true a d.length) :
    ∃ v, u.farWriteRun r frt a d = (v, 0) ∧ Moved s v ∧ v.mem = Tbl.setList Memory.dflt u.mem a d := by
  obtain ⟨v, h1, h2, h3, _⟩ := untilStop_all False (fun s c => s.farWrite r frt c.1 ((d.drop (c.1 - a)).take c.2))
    (fun m c => Tbl.setList Memory.dflt m c.1 ((d.drop (c.1 - a)).take c.2)) s (accessRuns a d.length) u hm (by
      intro c hc t ht
      have hw := accessRuns_within hc
      have hl : ((d.drop (c.1 - a)).take c.2).length = c.2 := by
        rw [List.length_take, List.length_drop]; omega
      have hg := h c hc
      obtain ⟨v, k1, k2, k3⟩ := farWrite_sound ht r frt c.1 ((d.drop (c.1 - a)).take c.2) (by rw [hl]; exact hg.1)
        (by rw [hl]; exact hg.2) (fun x => place_dram s c.1 x)
      exact ⟨v, k1, k2, k3, False.elim⟩)
  refine ⟨v, h1, h2, ?_⟩
  rw [h3, accessRuns_setList]

end Sys2Proof.Machine
end

