-- ==== Sys2Proof/Laws/Vector.lean ====
section
/-! SUPPORT. What the body of each vector command stores, and what the end of a vector command leaves. -/

namespace Sys2Proof.Machine

/-- What the body of a vector command does to the state after the reads. -/
def Body (core : Nat) (s t : State) (l : List (Nat × List Byte)) (x : Core) (k : List Nat) : Prop :=
  t.mem = storeAll s.mem l ∧ t.core core = x ∧ OtherCores s t core ∧ EngineFrame s t ∧ ObjectsBut s t k

theorem Stored.body {s t : State} {l} (h : Stored s t l) (core : Nat) : Body core s t l (s.core core) [] :=
  ⟨h.mem, h.core core, fun d _ => h.core d, h.frame, h.2⟩

theorem Body.trans {core : Nat} {s t u : State} {l m x y k} (h : Body core s t l x k) (g : Body core t u m y k) :
    Body core s u (l ++ m) y k := by
  refine ⟨?_, g.2.1, fun d hd => (g.2.2.1 d hd).trans (h.2.2.1 d hd), h.2.2.2.1.trans g.2.2.2.1, h.2.2.2.2.trans g.2.2.2.2⟩
  rw [g.1, h.1]; simp [storeAll]

theorem Body.event {core : Nat} {s t : State} {l x k} (h : Body core s t l x k) (a b c : Nat) :
    Body core s (t.event a b c) l x k := by
  have := h.trans (u := t.event a b c) (m := []) (y := x) ⟨rfl, h.2.1, fun d _ => rfl, rfl, fun _ _ _ => rfl⟩
  simpa using this

theorem vec_end (core : Nat) (s : State) (opc : Nat) (f : Flight) (body) (l x k)
    (h : s.current core 1 opc = some f)
    (hx : ∀ i, x.engine i = (s.core core).engine i)
    (hb : Body core (vectorReads core s f).1 (body (vectorReads core s f).1 (vectorReads core s f).2.1 (f.bound (s.core core).width) f) l x k) :
    ∃ t, s.perform core 1 opc (vectorEffect core body) = t ∧ VectorDone s t core opc (vectorEnd core s f) l x k ∧
      (∀ j, t.o j = (body (vectorReads core s f).1 (vectorReads core s f).2.1 (f.bound (s.core core).width) f).o j) := by
  have hb2 := ((hb.event 0x008 core ((((f.bound (s.core core).width).readRows core (vectorReads core s f).2.1).map (fun p => (vectorReads core s f).2.1.badScales core p.1 p.2)).sum))).event 0x006 core (f.bound (s.core core).width).groupCycles
  obtain ⟨t, e, hE, hc, ho, ht⟩ := perform_end s _ core 1 opc (vectorEffect core body) f _ h rfl (by
    intro i
    have := hb2.2.1
    unfold State.engine
    rw [← hx i]
    exact congrArg (fun y => y.engine i) this)
  refine ⟨t, e, ⟨?_, ?_, ?_, ?_, ?_⟩, ?_⟩
  · rw [ht]; exact hb2.1.trans (by rw [vectorReads_mem])
  · rw [hc]; exact congrArg (fun y => Core.setEngine y 1 _) hb2.2.1
  · intro d hd; rw [ho d hd]; exact (hb2.2.2.1 d hd).trans (by simp)
  · have e1 := (vectorReads_frame core s f).trans hb2.2.2.2.1
    refine e1.trans ?_
    exact EngineFrame.of_cores ht
  · intro j hj hl
    refine Eq.trans ?_ (Eq.trans (hb2.2.2.2.2 j hj hl) (vectorReads_objects core s f j (by simp) hl))
    rw [ht]; rfl
  · intro j; rw [ht]; rfl

theorem vec_stored (core : Nat) (s : State) (opc : Nat) (f : Flight) (body) (l)
    (h : s.current core 1 opc = some f)
    (hb : Stored (vectorReads core s f).1 (body (vectorReads core s f).1 (vectorReads core s f).2.1 (f.bound (s.core core).width) f) l) :
    ∃ t, s.perform core 1 opc (vectorEffect core body) = t ∧ VectorDone s t core opc (vectorEnd core s f) l (s.core core) [] := by
  obtain ⟨t, e, r, _⟩ := vec_end core s opc f body l (s.core core) [] h (fun _ => rfl) (by
    have := hb.body core
    rwa [vectorReads_core] at this)
  exact ⟨t, e, r⟩

theorem Stored.event {s t l} (h : Stored s t l) (a b c : Nat) : Stored s (t.event a b c) l := by
  have := h.trans (Stored.of_noted (Noted.event t a b c)); simpa using this

theorem tab_body (core : Nat) {s t : State} {l} (y : Core → Core) (h : Stored s t l) :
    Body core s (t.setCore core (y (t.core core))) l (y (s.core core)) [] := by
  have := (h.body core).trans (u := t.setCore core (y (t.core core))) (m := []) (y := y (s.core core))
    ⟨rfl, by simp [h.core], fun d hd => by simp [hd], rfl, fun _ _ _ => rfl⟩
  simpa using this

theorem norm_body (core : Nat) (s src : State) (b : Bound) (f : Flight) :
    Body core s (normBody core s src b f) (zStores core b f (normRow core src b f))
     (if bit b.cmd.w5 1 then
          { s.core core with tableBuf := src.bytes ((b.v 1).addr core (b.v 1).base) (4 * b.cmd.len) ++
                               src.bytes ((b.v 3).addr core (b.v 3).base) (4 * b.cmd.len) }
         else s.core core) [] := by
  unfold normBody
  dsimp only
  have h0 := Stored.of_eachRow core (normRow core) s src b f
  by_cases h : bit b.cmd.w5 1 = true
  · rw [if_pos h, if_pos h]
    exact tab_body core (fun x => { x with tableBuf := _ }) h0
  · rw [if_neg h, if_neg h]
    exact h0.body core

theorem lut_body (core : Nat) (s src : State) (b : Bound) (f : Flight) :
    Body core s (lutBody core s src b f) (zStores core b f (fun r => (src.row core (b.v 0) (r * (b.v 0).stride) b.cmd.len).map (lutOf (src.row core (b.v 3) 0 256) (ofBits32 b.cmd.w6.toNat) (ofBits32 b.cmd.w7.toNat))))
     { s.core core with tableBuf := src.bytes ((b.v 3).addr core (b.v 3).base) 1024 } [] := by
  unfold lutBody
  dsimp only
  exact tab_body core (fun x => { x with tableBuf := _ }) (Stored.of_eachRow core (fun src b _ r => (src.row core (b.v 0) (r * (b.v 0).stride) b.cmd.len).map _) s src b f)

theorem dropout_body (core : Nat) (s src : State) (b : Bound) (f : Flight) :
    Stored s (dropoutBody core s src b f) (zStores core b f (dropoutRow core src b f) ++ (if bit b.cmd.w5 16 then
          (List.range b.cmd.rows).map (fun r => ((b.v 1).addr core ((b.v 1).base + r * (b.v 1).stride), maskRow b f r))
         else [])) := by
  unfold dropoutBody
  dsimp only
  have h0 := Stored.of_eachRow core (dropoutRow core) s src b f
  by_cases h : bit b.cmd.w5 16 = true
  · rw [if_pos h, if_pos h]
    refine h0.trans ?_
    rw [List.map_eq_flatMap]
    exact Stored.fold (fun u r => u.sramWrite ((b.v 1).addr core ((b.v 1).base + r * (b.v 1).stride)) (maskRow b f r)) (fun r => [((b.v 1).addr core ((b.v 1).base + r * (b.v 1).stride), maskRow b f r)]) (fun t r => Stored.sramWrite t _ _) _ _
  · rw [if_neg h, if_neg h, List.append_nil]
    exact h0

theorem pool_body (core : Nat) (s src : State) (b : Bound) (f : Flight) :
    Stored s (poolBody core s src b f) ((List.range b.cmd.len).flatMap (fun ch =>
        rowStores core f (b.v 2) (ch * (b.v 2).stride) (ch * (b.g.oh * b.g.ow)) ((List.range (b.g.oh * b.g.ow)).map (fun m =>
          poolOf (fld b.cmd.w5 4 2) (bit b.cmd.w5 6)
            ((b.v 0).format.value (b.g.padv % 2 ^ (b.v 0).format.bits) 127) (poolTaps core src b ch m))))) := by
  unfold poolBody
  dsimp only
  generalize (b.v 0).format.value (b.g.padv % 2 ^ (b.v 0).format.bits) 127 = pv
  exact Stored.fold (fun t ch => t.writeRow core f (b.v 2) (ch * (b.v 2).stride) (ch * (b.g.oh * b.g.ow)) ((List.range (b.g.oh * b.g.ow)).map (fun m =>
          poolOf (fld b.cmd.w5 4 2) (bit b.cmd.w5 6) pv (poolTaps core src b ch m)))) (fun ch =>
        rowStores core f (b.v 2) (ch * (b.v 2).stride) (ch * (b.g.oh * b.g.ow)) ((List.range (b.g.oh * b.g.ow)).map (fun m =>
          poolOf (fld b.cmd.w5 4 2) (bit b.cmd.w5 6) pv (poolTaps core src b ch m)))) (fun t ch => Stored.writeRow t core f (b.v 2) (ch * (b.v 2).stride) (ch * (b.g.oh * b.g.ow)) _) _ s

theorem reduce_body (core : Nat) (s src : State) (b : Bound) (f : Flight) :
    Stored s (reduceBody core s src b f) ((reduceRows core src b).zipIdx.flatMap (fun p =>
          rowStores core f (b.v 2) (p.2 * (b.v 2).stride) (p.2 * b.cmd.len) [p.1.1])) := by
  unfold reduceBody
  generalize (reduceRows core src b).zipIdx = l
  have h := Stored.fold (α := (Num × Num) × Nat) (fun t p => t.writeRow core f (b.v 2) (p.2 * (b.v 2).stride) (p.2 * b.cmd.len) [p.1.1])
    (fun p => rowStores core f (b.v 2) (p.2 * (b.v 2).stride) (p.2 * b.cmd.len) [p.1.1])
    (fun t p => Stored.writeRow t core f (b.v 2) (p.2 * (b.v 2).stride) (p.2 * b.cmd.len) [p.1.1]) l s
  exact h

theorem row_mem (s t : State) (h : s.mem = t.mem) (c : Nat) (v : View) (o n : Nat) : s.row c v o n = t.row c v o n := by
  have hb : ∀ a, s.byte a = t.byte a := by intro a; unfold State.byte; rw [h]
  have hbs : ∀ a n, s.bytes a n = t.bytes a n := by
    intro a n; unfold State.bytes; rw [h]
  unfold State.row State.value State.operand State.elem State.scaleByte
  simp [hb, hbs]

theorem scatter_fold (core : Nat) (s src : State) (b : Bound) (f : Flight) : ∀ (l : List Nat) (a : State × List Nat) (st : List (Nat × List Byte)),
   Stored s a.1 st →
   let r := l.foldl (scatterRow core src b f) a
   let q := l.foldl (fun a r =>
    match rowIndex core src b r with
    | none => a
    | some i =>
      let z := b.v 2
      let x := src.row core (b.v 0) (r * (b.v 0).stride) b.cmd.len
      let old := (if a.2.contains i then { s with mem := storeAll s.mem a.1 } else src).row core z (i * z.stride) b.cmd.len
      (a.1 ++ rowStores core f z (i * z.stride) (r * b.cmd.len)
        (if bit b.cmd.w5 16 then (x.zip old).map (fun p => add32 p.2 p.1) else x), i :: a.2)) (st, a.2)
   Stored s r.1 q.1
  | [], a, st, h => h
  | r :: l, a, st, h => by
    dsimp only
    rw [List.foldl_cons, List.foldl_cons]
    have ih := scatter_fold core s src b f l
    unfold scatterRow
    cases e : rowIndex core src b r with
    | none => exact ih a st h
    | some i =>
      dsimp only
      have eo : (if a.2.contains i = true then a.1 else src).row core (b.v 2) (i * (b.v 2).stride) b.cmd.len =
         (if a.2.contains i = true then { s with mem := storeAll s.mem st } else src).row core (b.v 2) (i * (b.v 2).stride) b.cmd.len := by
        split
        · exact row_mem _ _ h.mem ..
        · rfl
      rw [eo]
      exact ih (_, i :: a.2) _ (h.trans (Stored.writeRow ..))

theorem takeNote_eq (x : Core) (n : StatNote) : x.takeNote n = { x with stats := (x.takeNote n).stats } := by
  unfold Core.takeNote
  cases n.mag with
  | none => dsimp only; split <;> rfl
  | some m =>
    dsimp only
    by_cases h : (ofBits32 (x.stat n.ch 0).toNat).lt (ofBits32 m) = true
    · rw [if_pos h]; split <;> rfl
    · rw [if_neg h]; split <;> rfl

theorem noteStat_eq (x : Core) (f : Fmt) (c : Nat) (o : Out) : x.noteStat f c o = { x with stats := (x.noteStat f c o).stats } :=
  takeNote_eq x _

theorem noteStats_eq (f : Fmt) : ∀ (l : List (Nat × Out)) (x : Core), x.noteStats f l = { x with stats := (x.noteStats f l).stats }
  | [], x => rfl
  | p :: l, x => by
    have h1 := noteStat_eq x f p.1 p.2
    have h2 := noteStats_eq f l (x.noteStat f p.1 p.2)
    have e : x.noteStats f (p :: l) = (x.noteStat f p.1 p.2).noteStats f l := rfl
    rw [e, h2]
    generalize ((x.noteStat f p.1 p.2).noteStats f l).stats = q
    rw [h1]

theorem quantRow_body (core : Nat) (quant : Bool) (src : State) (b : Bound) (f : Flight) (x : Core) (st : Tbl W32) (s : State) (r : Nat)
    (hs : s.core core = { x with stats := st }) :
    Body core s (quantRow core quant src b f s r) (runStores core (b.v 2) (r * (b.v 2).stride) (quantRun core x quant src b f r).2)
      (({ x with stats := st } : Core).noteStats (b.v 2).format (((quantRun core x quant src b f r).1.map (fun p => p.1)).zip (quantRun core x quant src b f r).2.1)) [] := by
  have e : quantRow core quant src b f s r = ((s.setCore core (({ x with stats := st } : Core).noteStats (b.v 2).format (((quantRun core x quant src b f r).1.map (fun p => p.1)).zip (quantRun core x quant src b f r).2.1))).event 0x008 core (excOf (quantRun core x quant src b f r).2.1)).writeRun core (b.v 2) (r * (b.v 2).stride) (quantRun core x quant src b f r).2 := by
    unfold quantRow
    rw [hs]
    rfl
  rw [e]
  generalize (({ x with stats := st } : Core).noteStats (b.v 2).format (((quantRun core x quant src b f r).1.map (fun p => p.1)).zip (quantRun core x quant src b f r).2.1)) = y
  generalize (quantRun core x quant src b f r).2 = z
  have h0 : Body core s (s.setCore core y) [] y [] := ⟨rfl, by simp, fun d hd => by simp [hd], rfl, fun _ _ _ => rfl⟩
  have h1 := (h0.event 8 core (excOf z.1)).trans ((Stored.writeRun _ core (b.v 2) (r * (b.v 2).stride) z).body core)
  simpa using h1

theorem quant_fold (core : Nat) (quant : Bool) (src : State) (b : Bound) (f : Flight) (x : Core) :
    ∀ (l : List Nat) (s : State) (st : Tbl W32), s.core core = { x with stats := st } →
     Body core s (l.foldl (quantRow core quant src b f) s) (l.flatMap (fun r => runStores core (b.v 2) (r * (b.v 2).stride) (quantRun core x quant src b f r).2))
      (l.foldl (fun y r => let q := quantRun core x quant src b f r
        y.noteStats (b.v 2).format ((q.1.map (fun p => p.1)).zip q.2.1)) ({ x with stats := st } : Core)) []
  | [], s, st, h => ⟨rfl, h, fun _ _ => rfl, rfl, fun _ _ _ => rfl⟩
  | r :: l, s, st, h => by
    have h1 := quantRow_body core quant src b f x st s r h
    rw [List.foldl_cons, List.foldl_cons, List.flatMap_cons]
    have h2 := noteStats_eq (b.v 2).format (((quantRun core x quant src b f r).1.map (fun p => p.1)).zip (quantRun core x quant src b f r).2.1) ({ x with stats := st } : Core)
    have h3 := quant_fold core quant src b f x l (quantRow core quant src b f s r) _ (h1.2.1.trans h2)
    dsimp only
    rw [h2]
    exact h1.trans h3

theorem fold_engines (core : Nat) (quant : Bool) (src : State) (b : Bound) (f : Flight) (x : Core) :
    ∀ (l : List Nat) (y : Core), ((l.foldl (fun y r => let q := quantRun core x quant src b f r
        y.noteStats (b.v 2).format ((q.1.map (fun p => p.1)).zip q.2.1)) y)).engines = y.engines
  | [], y => rfl
  | r :: l, y => by
    rw [List.foldl_cons, fold_engines core quant src b f x l]
    dsimp only
    rw [noteStats_eq]

theorem quant_body (core : Nat) (quant : Bool) (s src : State) (b : Bound) (f : Flight) :
    Body core s (quantBody core quant s src b f) ((List.range b.cmd.rows).flatMap (fun r => runStores core (b.v 2) (r * (b.v 2).stride) (quantRun core (s.core core) quant src b f r).2))
      ((List.range b.cmd.rows).foldl (fun y r => let q := quantRun core (s.core core) quant src b f r
        y.noteStats (b.v 2).format ((q.1.map (fun p => p.1)).zip q.2.1)) (s.core core)) [] := by
  have h := quant_fold core quant src b f (s.core core) (List.range b.cmd.rows) s (s.core core).stats rfl
  unfold quantBody
  dsimp only
  generalize hT : List.foldl (quantRow core quant src b f) s (List.range b.cmd.rows) = T at h
  by_cases h1 : (!quant && (b.v 2).format.intRange.isSome) = true
  · rw [if_pos h1]; exact h.event ..
  · rw [if_neg h1]; exact h

end Sys2Proof.Machine
end

