-- ==== Sys2Proof/Tests/Slice0.lean ====
section
/-! SUPPORT. Small tests of the model from the spec's own examples, and a witness for the premises of every statement. -/

namespace Sys2Proof.Tests

set_option Elab.async false

open Sys2Proof.Machine

/-! ### Small states -/

/-- A command of these words; the others are 0. -/
def cmd (w0 w3 w4 w5 : W32) : Cmd := ⟨w0, 0, 0, w3, w4, w5, 0, 0⟩

/-- A command that executes since cycle 0, with these views and descriptor. -/
def flight (c : Cmd) (views : List View) (sdesc : List W32) : Flight :=
  { cmd := c, pos := 0, rt := false, issue := 0, dur := 4, feedEnd := 0, ins := [], frees := [], views := views, geo := []
    sdesc := sdesc, seed := 0, bank := 0, accBank := 0, t0 := 0, started := false, done := false, status := 0, bad := false
    pbit := none, rstcmd := false, ramp := 0, stall := 0 }

/-- Engine `e` of core 0 executes this command, in cycle 100 of a cluster whose clock runs. -/
def running (e : Nat) (f : Flight) : State :=
  (State.reset.setCluster 0 { Cluster.reset with cyc := 100, pllLocked := true }).setEngine 0 e
    { Engine.reset with flights := [f] }

/-- The first region of core 0's scratchpad belongs to owner 0. -/
def owned0 (s : State) : State := { s with omap := [(0, 4)] }

/-- Hub SRAM granule 0 belongs to owner 0, for all partitions. -/
def hubGranule0 (s : State) : State := { s with rgns := [(0, 0x99000000), (1, 0xF0)] }

/-- A view of bytes of core 0's scratchpad from offset 0. -/
def bytesView : View := { base := 0, sbase := 0, fmt := 9, cm := false, stride := 64, pitch := 64, bufn := 0 }

/-- A descriptor of one row of 16 bytes from hub SRAM address 0. -/
def row16 : List W32 := [0, 0x8009000F, 1, 0, 0, 0, 0, 16, 0, 0]

/-- A far access is admitted and meets no error, as a test. -/
def farOk (s : State) (r : Requester) (write : Bool) (a n : Nat) : Bool :=
  (accessRuns a n).all (fun c => s.farStatus r write c.1 c.2 == 0 && match s.place c.1 with
    | .dram x => s.lineOf (x / 64 * 64) == 0
    | _ => (s.dirtyWords c.1 c.2).isEmpty)

theorem farGranted_of_farOk {s : State} {r : Requester} {w : Bool} {a n : Nat} (h : farOk s r w a n = true) :
    FarGranted s r w a n := by
  intro c hc
  have h1 := List.all_eq_true.mp h c hc
  rw [Bool.and_eq_true, beq_iff_eq] at h1
  refine ⟨h1.1, ?_⟩
  have h2 := h1.2
  unfold FarSound
  split <;> rename_i heq <;> simp only [heq] at h2
  · rw [beq_iff_eq] at h2
    simp [LineSound, h2, nbit]
  · exact List.isEmpty_iff.mp h2

/-- A state with these values of objects. -/
def withO (l : List (Nat × Nat)) (s : State) : State := l.foldl (fun t e => t.setO e.1 e.2) s

/-- After reset, at this device time in ns. -/
def atNs (n : Nat) : State := { State.reset with clk := ⟨0, 0, n * 2 ^ 32, 0, 0⟩ }

/-- The loop runs at device time `now`, with a frame that started at 0, and lane 0 is up. -/
def looping (now : Nat) (l : Loop) : State :=
  { withO [(0x400006, 2), (laneObj 0 1, 4), (0x400007, 9)] (atNs now) with loop := { l with start := some 0 } }

/-- A code object with one logical core, whose program has no command and places 64 bytes at offset 0 of the scratchpad
(R339 to R344). -/
def image (rt : Bool) : List Byte :=
  let words (l : List Nat) : List Byte := l.flatMap (leBytes 4)
  let body := words ([0x424F435A, 1, 512, if rt then 0x44 else 0x40, 0, 3, 128, 1] ++ List.replicate 24 0) ++
    words [2, 192, 16, 0, 3, 256, 80, 0, 5, 384, 64, 0, 0, 0, 0, 0] ++ words [0, 0, 80, 1] ++ List.replicate 48 0 ++
    words ([0, 0, 0, 0, 0, 0, 0, 1] ++ List.replicate 8 0 ++ [0, 0, 0, 64]) ++ List.replicate 48 0 ++
    List.replicate 64 7 ++ List.replicate 60 0
  body ++ leBytes 4 (crc32c body)

/-- Slot 1 holds that image at DRAM address 0, and context `n` of owner 0 in partition `p`, which has cluster 0, names it and
core 0. -/
def loaded (rt : Bool) (n p : Nat) : State :=
  let s := State.reset.poke 0 (image rt)
  [(slotObj 1 3, 3), (slotObj 1 5, 512), (slotObj 1 8, 1), (partObj p 1, 1), (ctxObj n 2, p), (ctxObj n 3, 1),
    (ctxObj n 4, 1)].foldl (fun t e => t.setO e.1 e.2) s

/-- Window 0 of this device into core 0's scratchpad, for every device and owner. -/
def window0 (s : State) : State := { s with wins := [(0, 0x83FC0000, 31)] }

/-- Peer link 0 is up and leads to device 1. -/
def peer1 (s : State) : State := (s.setO (peerObj 0 1) 2).setO (peerObj 0 2) 1

/-- The control plane serves master `m`, which holds the token and a session of `own`, and which has negotiated. -/
def served (m own : Nat) (s : State) : State :=
  { withO [(0x1F0001, m + 1), (ok (0xB010 + m) 1, own), (homeOf m 0x108304, 1)] s with
    boot := { s.boot with up := true }, power := { s.power with stage := 3 }
    dom := Tbl.set none s.dom (homeOf m 0x108201) (some (List.replicate 32 0xFF)) }

/-- `Reaches` as a test. -/
def reaches (s : State) (m op : Nat) (x : DictMsg) : Bool :=
  s.serves m && (s.busyCheck m op x).2.isNone && s.objectCheck m (keyOf x) == 0 &&
    (objRowOf (keyOf x)).all (fun r => s.rightsCheck m op r x == 0)

/-- `WriteAdmitted` as a test. -/
def writes (s : State) (m k v : Nat) : Bool :=
  reaches s m 2 (valueMessage 5 k v) && s.valueOk k v && s.unlocked k v &&
    (!(objRowOf k).any (fun r => r.acc == .rws) || s.writable k)

/-- `SegmentAdmitted` as a test. -/
def segments (s : State) (m k : Nat) (g : Segment) : Bool :=
  reaches s m 2 (segmentMessage k g) && decide (g.data.length ≤ maxData m) &&
    (g.offset == 0 || Tbl.get 0 s.aborted (m * 256 + g.tid.toNat) == 0)

theorem reaches_of_test {s : State} {m op : Nat} {x : DictMsg} (h : reaches s m op x = true) : Reaches s m op x := by
  simp only [reaches, Bool.and_eq_true, beq_iff_eq, Option.isNone_iff_eq_none] at h
  refine ⟨h.1.1.1, h.1.1.2, h.1.2, fun r hr => ?_⟩
  have h4 := h.2
  rw [hr] at h4
  simpa using h4

theorem writeAdmitted_of_test {s : State} {m k v : Nat} (h : writes s m k v = true) : WriteAdmitted s m 5 k v := by
  simp only [writes, Bool.and_eq_true, Bool.or_eq_true, Bool.not_eq_true'] at h
  refine ⟨reaches_of_test h.1.1.1, h.1.1.2, h.1.2, fun hw => ?_⟩
  rcases h.2 with h2 | h2
  · rw [h2] at hw
    cases hw
  · exact h2

theorem segmentAdmitted_of_test {s : State} {m k : Nat} {g : Segment} (h : segments s m k g = true) :
    SegmentAdmitted s m k g := by
  simp only [segments, Bool.and_eq_true, Bool.or_eq_true, beq_iff_eq, decide_eq_true_eq] at h
  refine ⟨reaches_of_test h.1.1, h.1.2, fun hw => ?_⟩
  rcases h.2 with h2 | h2
  · exact absurd h2 hw
  · exact h2

/-! ### Witnesses: each shows that the premises of a statement, or of each of its clauses, can be met -/

theorem witness_SequencerAndHandleCommandsEnd :
    (∀ opc ∈ [0x00, 0x01, 0x02, 0x03, 0x04, 0x05], let f := flight (cmd (BitVec.ofNat 32 (opc + 0x400)) 0 0 0) [] []
      f.issue + 4 ≤ (running 4 f).coreCycle 0 ∧ (running 4 f).current 0 4 opc = some f) ∧
    (∀ opc ∈ [0x60, 0x61, 0x62], let f := flight (cmd (BitVec.ofNat 32 (opc + 0x200)) 0 0 0) [] []
      f.issue + 4 ≤ (running 2 f).coreCycle 0 ∧ (running 2 f).current 0 (seOf 0) opc = some f) := by decide

theorem witness_MatrixCommandsRunTheirTiles : ∀ opc ∈ [0x10, 0x11, 0x12],
    let f := flight (cmd (BitVec.ofNat 32 opc) 0 0 0) [] []
    (f.cmd.init ≠ 2 ∨ (f.bound ((running 0 f).core 0).width).tileList.length ≤ 1) ∧
      (running 0 f).current 0 0 opc = some f := by decide

theorem witness_ScalesAreLoadedAndSwapped :
    (let f := flight (cmd 0x13 0 0 0) [bytesView] []; (running 0 f).current 0 0 0x13 = some f) ∧
      (let f := flight (cmd 0x14 0 0 0) [] []; (running 0 f).current 0 0 0x14 = some f) := by decide

theorem witness_ScaleUpdateWritesTheRange : let f := flight (cmd 0x138 0 0 0) [] []
    (running 1 f).current 0 1 0x38 = some f := by decide

theorem witness_VectorCommandsStoreTheirRows : ∀ opc ∈ [0x30, 0x32, 0x33, 0x34, 0x35, 0x39, 0x3A, 0x3C, 0x3D],
    let f := flight (cmd (BitVec.ofNat 32 (opc + 0x100)) 0 0 0) [] []
    (running 1 f).current 0 1 opc = some f := by decide

theorem witness_VectorCommandsReduceSampleScatterQuantise : ∀ opc ∈ [0x31, 0x3B, 0x3E, 0x36, 0x37],
    let f := flight (cmd (BitVec.ofNat 32 (opc + 0x100)) 0 0 0) [] []
    (running 1 f).current 0 1 opc = some f := by decide

theorem witness_StreamsMoveTheirRuns :
    (∀ opc ∈ [0x50, 0x51], let f := flight (cmd (BitVec.ofNat 32 (opc + 0x200)) 0 0 0) [bytesView] row16
      let s := hubGranule0 (owned0 (running 2 f))
      let b := f.bound (s.core 0).width
      (bit f.cmd.w3 12 = false ∧ s.localRetry 0 b = false ∧ s.current 0 2 opc = some f ∧ sdFrt b.sdesc = 0 ∧ b.accesses ≠ []) ∧
        ∀ v ∈ b.accesses, FarGranted s (f.requester s 0) (opc == 0x51) v.1 v.2.2 ∧ WordsSound s (spadAddr 0 v.2.1) v.2.2) ∧
    (let f := flight (cmd 0x250 0 0 0) [{ bytesView with fmt := 8 }] [0, 0x8098000F, 0, 0, 0, 0, 0, 0x80008, 1, 0x80000]
      let s := hubGranule0 (owned0 (running 2 f))
      let b := f.bound (s.core 0).width
      let w := b.sdesc
      let res := (frtResidual (sdFrt w) (b.v 0).format).getD 0
      (bit f.cmd.w3 12 = false ∧ s.localRetry 0 b = false ∧ s.current 0 2 0x50 = some f ∧ sdFrt w ≠ 0 ∧ tileRows w ≠ []) ∧
        ∀ ct ∈ tileRows w,
          FarGranted s (f.requester s 0) false (tileRun w (frtTileBytes res) ct).1 (tileRun w (frtTileBytes res) ct).2 ∧
          ∀ y, y < 8 → WordsSound s (spadAddr 0 (frtLocal (b.v 0) ct.1 (8 * ct.2 + y)))
            ((b.v 0).format.rowBytes (sdCount w 0))) := by
  refine ⟨fun opc ho => ?_, by decide, fun ct hc => ⟨farGranted_of_farOk ?_, ?_⟩⟩
  · rcases List.mem_cons.mp ho with rfl | ho
    · exact ⟨by decide, fun v hv => ⟨farGranted_of_farOk (by revert v; decide), by revert v; unfold WordsSound; decide⟩⟩
    · obtain rfl := List.mem_singleton.mp ho
      exact ⟨by decide, fun v hv => ⟨farGranted_of_farOk (by revert v; decide), by revert v; unfold WordsSound; decide⟩⟩
  · revert ct; decide
  · revert ct; unfold WordsSound; decide


/-- A core with a held bank of context 0. -/
def holding (s : State) : State := s.setCore 0 { s.core 0 with held := some ⟨0, false, false, 1, 1, 0, 0, 1, 0⟩ }

/-- A descriptor of eight accumulator values from hub SRAM address 0. -/
def accRow : List W32 := [0, 0x800D000F, 8, 0, 0, 0, 0, 8, 0, 0]

theorem witness_AccumulatorImagesFillsAndCopiesStore :
    (∀ opc ∈ [0x51, 0x50], let f := flight (cmd (BitVec.ofNat 32 (opc + 0x200)) 0x1000 0 0) [bytesView] accRow
      let s := (if opc = 0x51 then holding else id) (hubGranule0 (running 2 f))
      let b := f.bound (s.core 0).width;
      (bit f.cmd.w3 12 = true ∧ s.current 0 2 opc = some f ∧ b.imageRuns ≠ [] ∧
        (opc = 0x51 → ∃ h ∈ (s.core 0).held, b.imageRuns.all (fun m =>
          farOk s (f.requester s 0) true m.1 ((((s.core 0).image h).drop m.2.1).take m.2.2).length) = true)) ∧
        (opc = 0x50 → 64 ≤ (b.imageRuns.flatMap (fun m => s.bytes m.1 m.2.2)).length) ∧
        (opc = 0x50 → ∀ m ∈ b.imageRuns, FarGranted s (f.requester s 0) false m.1 m.2.2)) ∧
    (∀ opc ∈ [0x52, 0x53], let f := flight (cmd (BitVec.ofNat 32 (opc + 0x200)) 0 0 0) [bytesView, bytesView] []
      let s := owned0 (running 2 f)
      let b := f.bound (s.core 0).width;
      s.localRetry 0 b = false ∧ s.current 0 2 opc = some f ∧
        ∀ i, i < f.cmd.granules → s.dirtyWords ((b.v 0).addr 0 ((b.v 0).base + 64 * i)) 64 = [] ∧
          s.dirtyWords ((b.v 1).addr 0 ((b.v 1).base + 64 * i)) 64 = []) := by
  refine ⟨fun opc ho => ?_, by decide⟩
  rcases List.mem_cons.mp ho with rfl | ho
  · exact ⟨by decide, fun h => absurd h (by decide), fun h => absurd h (by decide)⟩
  · obtain rfl := List.mem_singleton.mp ho
    exact ⟨by decide, fun _ => by decide +kernel, fun _ m hm => farGranted_of_farOk (by revert m; decide)⟩

theorem witness_WindowWritesLandWhereAdmitted :
    let f := flight (cmd 0x254 0 0 0) [bytesView] []
    let g := flight (cmd 0x254 0x1000 0 0) [bytesView] [];
    (let s := window0 (owned0 (running 2 f));
      s.current 0 2 0x54 = some f ∧ s.localRetry 0 (f.bound 32) = false ∧ s.dirtyWords (spadAddr 0 0) (64 * f.cmd.granules) = [] ∧
      fld f.cmd.w3 12 2 = s.devNum ∧ s.windowAnswer 0 0 0 0 (64 * f.cmd.granules) = 0) ∧
    (let s := owned0 (running 2 f);
      s.localRetry 0 (f.bound 32) = false ∧ s.windowAnswer 0 0 0 0 (64 * f.cmd.granules) = 1) ∧
    (let s := peer1 (owned0 (running 2 g));
      s.current 0 2 0x54 = some g ∧ s.localRetry 0 (g.bound 32) = false ∧ fld g.cmd.w3 12 2 ≠ s.devNum ∧
        (s.linkTo (fld g.cmd.w3 12 2)).isSome = true) ∧
    (let l : List Byte := List.replicate 64 0; l.length ≠ 0 ∧ l.length % 64 = 0 ∧ l.length ≤ 512) := by decide +kernel

/-- A publication of context 0 into context 5 has been composed, and its view's first entry lies on core 0. -/
def published : State :=
  { (State.reset.setO (adaptObj 0 0xE) 1).setAdapt 0 { AdaptSt.reset with phase := 1, target := 5 } with
    maps := [(5, some ⟨0, 0, false, [⟨0, 0, [], [], [], [], [], 0, 0, 0⟩], []⟩)]
    dom := [(adaptObj 0 0xC, some (List.replicate 32 0))] }

theorem witness_FullQueuesRefuseAppends :
    let s := State.reset.setEngine 0 4 { Engine.reset with queue := List.replicate 64 ⟨0, cmd 0x400 0 0 0, 0⟩ }
    64 ≤ (s.engine 0 (engCode .seq)).queue.length ∧ s.stopped 0 = false ∧
      (scaleWriter (cmd 0x400 0 0 0) && s.publishedCore 0 0) = false := by decide +kernel

theorem witness_QueueAppendsStandAtTheTail :
    (scaleWriter (cmd 0x14 0 0 0) && published.publishedCore 0 0) = true ∧
      (scaleWriter (cmd 0x14 0 0 0) && State.reset.publishedCore 0 0) = false ∧
      (let c : Cmd := ⟨0x405, 1, 0x1F1F1F1F, 0, 0, 0, 0, 0⟩
        let s := { State.reset.setCore 0 { Core.reset with ctxEn := 1, segs := [(0, ⟨[(0, 300000)], none, 0⟩)] } with
          ctxTab := [(0, 0x10)] }
        let r := (Tbl.get SegRec.reset (s.core 0).segs (s.workingCopy c).ctx).add (s.workingCopy c);
        (scaleWriter c && s.publishedCore 0 c.ctx) = false ∧ s.stopped 0 = false ∧ (s.engine 0 4).queue.length < 64 ∧
          s.appendOk 0 .seq (s.workingCopy c) = true ∧ (s.appendTurn 0 4 (s.workingCopy c)).isSome = true ∧ bit (s.core 0).ctxClass (s.workingCopy c).ctx = false ∧ r.whole = true ∧
          s.o (ctxObj (s.workingCopy c).ctx 7) * s.clusterMhz 0 < r.cycles * 1000) := by decide +kernel

theorem witness_IssuedCommandsLatchTheirOperands :
    let c : Cmd := ⟨0x400, 1, 0x1F1F1F1F, 0, 0, 0, 0, 0⟩
    let q : QEntry := ⟨0, c, 0⟩
    let s := (State.reset.setCluster 0 { Cluster.reset with cyc := 100, pllLocked := true }).setCore 0
      ({ Core.reset with framePeriod := 31250, tickAt := some 0 }.setEngine 4 { Engine.reset with queue := [q] })
    let x := s.core 0;
    x.ofClass 4 false = [q] ∧ c.eng = 4 ∧ (x.engine 4).rstPending = none ∧ EnginesQuiet s 0 ∧ s.clockRuns 0 = true ∧
      s.popTurn 0 c = true ∧ s.pushTurn 0 c = true ∧
      x.outOfUse = 0 ∧ x.mayIssue 4 c 100 = true ∧ q.since < 100 ∧ x.purges c = false ∧
      (s.noteStart 0 4 false c []).timeOk 0 4 false c [] = true ∧ s.gateOk 0 c = true ∧ x.engineFree 4 c 100 = true := by
  unfold EnginesQuiet
  decide +kernel

theorem witness_CommandsRetireStopOrMiss :
    let f := flight { cmd 0x400 0 0 0 with w1 := 4 } [] [];
    (let g := { f with issue := 96, done := true }
      let s := running 4 g;
      EnginesQuiet s 0 ∧ (s.engine 0 4).flights = [g] ∧ g.due (s.coreCycle 0) = true ∧ f.due (s.coreCycle 0) = false ∧
        (g.inTime (s.coreCycle 0) && s.pushTurn 0 g.cmd) = true ∧ f.inTime (s.coreCycle 0) = false) ∧
    (let g := { flight { cmd 0x250 0 0 0 with w1 := 4 } [] [] with status := 7, issue := 96 };
      ((running 2 g).engine 0 (seOf 0)).flights = [g] ∧ g.status ≠ 0 ∧ (running 2 g).awaits 0 (seOf 0) g = false ∧
        (g.inTime 100 && (running 2 g).pushTurn 0 g.cmd) = true) ∧
    (takeFirst (fun g : Flight => decide (g.issue + watchOf g.cmd ≤ 100) && !(g.due 100 && g.inTime 100))
      ((running 4 f).engine 0 4).flights = some (f, [])) ∧
    (let s := (running 4 f).setCore 0 { (running 4 f).core 0 with tickAt := some 0 }
      let y := { s.engine 0 4 with slots := [(0, 0x00010001)] };
      (y.usedSlots (s.core 0).frameActive)[y.slotIdx]? = some (4, 4) ∧ 0 + 4 + 4 ≤ s.coreCycle 0 ∧ y.slotMiss = false) := by
  unfold EnginesQuiet
  decide +kernel

theorem witness_ResetCommandsAreTakenOrRefused :
    (∀ d, (State.reset.engine 0 (seOf 0)).rstPending = some d → d.eng = seOf 0) ∧
    (let c := { cmd 0x260 0 0 0 with w1 := 64, w2 := 0x1F1F1F1F }
      let s := (State.reset.setCluster 0 { Cluster.reset with pllLocked := true }).setCore 0 { Core.reset with ctxRst := 1 }
      let v := s.rstSubmit 0 2 c
      let v1 := v.setEngine 0 2 { v.engine 0 2 with rstPending := none };
      c.opc = 0x60 ∧ c.eng = seOf 0 ∧ bit (s.core 0).ctxRst 0 = true ∧
        ((s.engine 0 2).rstPending.isSome || (s.engine 0 2).flights.any (fun f => f.rstcmd)) = false ∧
        (s.cluster 0).pllLocked = true ∧ s.stopped 0 = false ∧ (s.engine 0 2).flights.length < 4 ∧
        (s.core 0).openSlot 2 (s.coreCycle 0) = none ∧ (s.core 0).holdFits (s.coreCycle 0) 0 = true ∧
        (Issue.mk v1 0 ((v.core 0).bind c []) [] []).status = 0) ∧
    (cmd 0x200 0 0 0).opc ≠ 0x60 := by
  refine ⟨fun d h => ?_, by decide +kernel, by decide⟩
  cases h

theorem witness_HandlesReachTheirTargets :
    let tr : Transit := ⟨0, 1, 0, 2, 3, 0⟩;
    (let s := { State.reset with forwards := [tr] };
      takeFirst (fun t : Transit => t.srcUnit == 0 && t.srcQ == 1 && t.dev == s.devNum) s.forwards = some (tr, []) ∧
        ¬(tr.unit < 6 ∧ s.stopped tr.unit = true) ∧ (s.hq tr.unit tr.q).isForward = false) ∧
    (let s := { State.reset with credits := [tr] };
      takeFirst (fun t : Transit => t.unit == 2 && t.q == 3 && t.dev == s.devNum) s.credits = some (tr, []) ∧
        ¬(2 < 6 ∧ s.stopped 2 = true)) ∧
    (hqWordOk 0 8 = true ∧ (State.reset.setHq 0 1 { State.reset.hq 0 1 with w0 := 8 }).endsFit 0 1 = true) ∧
    hqWordOk 0 0xFFFFFFFF = false := by decide +kernel

theorem witness_RegistersSwapAndReadAsWritten :
    (let s := looping 20 Loop.reset;
      s.loop.start = some 0 ∧ 0 + 20 ≤ s.now ∧ (s.core 0).tickFor ≠ 0 + 1 ∧ State.reset.tickDue 0 = none) ∧
      Core.reset.inactiveOk = true ∧
      ({ Core.reset with engines := [(0, { Engine.reset with slots := [(16, 0x00010001)] })] } : Core).inactiveOk = false ∧
      (({ Core.reset with fenced := true } : Core).fenced && meCfgOk 0 0x20) = true ∧
      (({ Core.reset with fenced := true } : Core).fenced && meCfgOk 0 0xC0) = false ∧
      regWordOk (.framePeriod 0) 15625 = true ∧ regWordOk (.framePeriod 0) 15624 = false ∧
      regWordOk (.view 0 63 1) 0xBFFFFFFF = true ∧ regWordOk (.view 0 63 1) 0x40000000 = false := by decide +kernel

theorem witness_TilesAndOwnerMapsAreHandedOut :
    (let w1 : W32 := 0x80000001; bit w1 31 = true ∧ 0 < fld w1 0 24 ∧ ¬(bit w1 31 = true ∧ 1 < fld w1 0 24)) ∧
    (let s := window0 (owned0 (running 2 (flight (cmd 0x254 0 0 0) [bytesView] [])))
      let lost (v : W32) : Prop := bit (s.omapWord 0 0) 2 = true ∧ (bit v 2 = false ∨ fld v 0 2 ≠ fld (s.omapWord 0 0) 0 2);
      lost 0 ∧ ¬lost 4 ∧ (windowRegions (s.win 0 0)).contains (0, 0) = true ∧ bit (s.win 0 0) 31 = true ∧
        s.windowClosing 0 = false ∧ (windowRegions (s.win 0 0)).contains (0, 63) = false) ∧
    fld (0x3F : W32) 6 26 = 0 ∧ fld (0x40 : W32) 6 26 ≠ 0 ∧
    (let s : State := { State.reset with omap := [(29 * 64 + 63, 0x25)] };
      bit (s.omapWord 29 63) 5 = true ∧ bit (s.omapWord 29 62) 5 = false) := by decide +kernel

theorem witness_RegionEntriesChangeInOrder :
    (let s := hubGranule0 State.reset;
      s.rgnOk 1 0x99001001 0xF0 = true ∧ rgnRemoves (s.rgn 1 0) (s.rgn 1 1) 0x99001001 0xF0 = false ∧
      s.rgnOk 0 0x91000000 0xF0 = true ∧ rgnRemoves (s.rgn 0 0) (s.rgn 0 1) 0x91000000 0xF0 = true ∧
      s.rgnOk 1 0x99000000 0xF0 = false) ∧
    (let s : State := { atNs 0 with rgnNext := [(0, some (0, 0, 3))], clk := ⟨5, 0, 0, 0, 0⟩ };
      Tbl.get none s.rgnNext 0 = some (0, 0, 3) ∧ 3 < s.clk.hub ∧ State.reset.clk.hub ≤ 3 ∧ Tbl.get none s.rgnNext 1 = none) ∧
    (let s : State := { State.reset with rgns := [(0, 0x99000000), (1, 0x2F0)] };
      s.coverOf false 0 = some 0 ∧ bit (s.rgn 0 1) 9 = true ∧
        Tbl.get 0 s.holders (holderKey false 0) ≠ fld (s.rgn 0 0) 25 2 + 1) := by decide +kernel

theorem witness_DramLinesAreReadAndWritten :
    let s : State := { State.reset with rgns := [(0, 0x98000000), (1, 0xF0)] };
    let bad : State := { s with line := [(0, 1)] };
    (∀ w, s.dramRefusal 0 (some 0) 0 w = none ∧ bad.dramRefusal 0 (some 0) 0 w = none ∧
      (s.dramRefusal 1 (some 0) 0 w).isSome = true) ∧
    s.lineOf 0 = 0 ∧ (nbit (bad.lineOf 0) 0 || nbit (bad.lineOf 0) 4) = true ∧
    (∀ d ∈ [List.replicate 64 (0 : Byte)], d.length = 64) ∧ (∀ e ∈ [[(0 : Byte)]], e.length ≠ 0 ∧ 63 + e.length ≤ 64) := by
  decide +kernel

theorem witness_RefreshesAndCalibrationsKeepTheirTimes :
    let s : State := { State.reset with clk := ⟨0, 0, 256000000 * 2 ^ 32, 0, 0⟩, tempAt := 0 };
    (s.chan 0).seq < 32 ∧ (s.chan 0).selfRefresh = false ∧ (s.chan 0).refDue ≤ s.now ∧ s.channels.contains 0 = true ∧
      s.quiet = false ∧ (s.chan 0).zqAt + 256000000 ≤ s.now ∧ s.atomTime = true ∧ (s.chan 0).lastRead + 1000000 ≤ s.now ∧
      s.tempAt ≤ s.now := by decide +kernel

theorem witness_DramFailuresAreContained :
    let r : CeRow := ⟨0, 0, 0, [0], true⟩;
    let s : State := { State.reset with ceRows := [r] };
    let u := s.setO (ok 0x6010 7) 0;
    s.channels.contains 0 = true ∧ s.ceRows.find? (fun r => r.ch == 0 && r.bank == 0 && r.row == 0) = some r ∧
      s.rowDue r = true ∧ s.atomTime = true ∧ s.yields 2 = false ∧
      (withO [(laneObj 0 8, 2), (laneObj 1 1, 4)] ({ looping 60000000000 Loop.reset with
        lanes := [(0, { Lane.reset with warmed := true, dueAt := 1 })] } : State)).yields 2 = true ∧
      s.sparesLeft 0 0 ≠ 0 ∧ u.rowDue r = true ∧ u.sparesLeft 0 0 = 0 ∧
      s.o 0x608002 ≠ 0 ∧ (s.chan 0).selfRefresh = false ∧ (s.chan 0).patrolPos + 1 < 2 ^ 24 ∧ s.patrolLate = false ∧
      (let v : State := { s with clk := ⟨0, 0, 86400000000000 * 2 ^ 32, 0, 0⟩ };
        (v.channels.any (fun c => decide ((v.chan c).patrolStart + v.o 0x608001 * 3600000000000 ≤ v.now))) = true) := by
  decide +kernel

set_option maxRecDepth 100000 in
theorem test_image_checks : imageError 0 (image false) = 0 := by decide +kernel

set_option maxRecDepth 100000 in
theorem witness_SramWordsAreScrubbedAndRewritten :
    (let s : State := { State.reset with clk := ⟨0, 0, 1000000000 * 2 ^ 32, 0, 0⟩ };
      0 < bankCount 0 ∧ bit s.scrubCfg 14 = true ∧ Tbl.get 0 s.scrubPos 0 < bankGranules 0 ∧ Tbl.get 0 s.scrubStart 0 ≤ s.now ∧
      s.retained 0 = false ∧ (∃ b, b < bankCount 0 ∧ b ≠ 0 ∧ Tbl.get 0 s.scrubPos b ≠ bankGranules 0)) ∧
    (let s : State := { State.reset with scrubPos := [(480, bankGranules 30 - 1)] };
      30 * 16 = 480 ∧ bankCount 30 = 1 ∧ Tbl.get 0 s.scrubPos 480 + 1 = bankGranules 30 ∧
      ∀ b, b < bankCount 30 → b ≠ 0 → Tbl.get 0 s.scrubPos (480 + b) = bankGranules 30) ∧
    (let s : State := { State.reset with clk := ⟨0, 0, 1000000000 * 2 ^ 32, 0, 0⟩ };
      Tbl.get 0 s.scrubStart 30 + s.scrubPeriod ≤ s.now ∧ s.retained 30 = false ∧ s.scrubLate.contains 30 = false) ∧
    (let p : MapProg := ⟨0, 0, [], [], [], [], [], 1, 0, 0⟩;
      let s : State := { loaded false 0 1 with maps := [(0, some ⟨1, 0, false, [p], []⟩)], ecc := [(0x90000000, 3)] };
      Tbl.get 0 s.ecc (memBase 0 / 16 + 0) = 3 ∧ 0 * 16 < memSize 0 ∧
        s.placedAt ((memBase 0 / 16 + 0) * 16 / 64 * 64) = some (0, p, List.replicate 64 7) ∧
        s.inPublication 0 p ((memBase 0 / 16 + 0) * 16 / 64 * 64) = false) := by decide +kernel

theorem witness_TicksLockAndSteerTheLoop :
    (let s := withO [(laneObj 0 1, 4), (0x400006, 1)] State.reset;
      let t : State := { s with loop := { s.loop with modelsReady := true } }
      (s.laneUp 0 && s.injects 0 0 == 0 && s.heldRx.isNone && s.mainLink == 0) = true ∧
        t.o 0x400006 = 1 ∧ t.loop.modelsReady = true ∧ t.loop.resumeFrom = none) ∧
    (let s : State := { withO [(laneObj 0 1, 4), (0x400006, 4)] State.reset with loop := { Loop.reset with lastSent := some 4 } };
      s.o 0x400006 = 4 ∧ s.laneUp 0 = true ∧ ∀ l, s.loop.lastSent = some l → (5 : W32).toNat ≠ l ∧ serialGe 32 5 l = true) ∧
    (let s := looping 10 Loop.reset;
      s.loopRuns = true ∧ s.loop.start = some 0 ∧ within tSyw s.now 0 = true ∧ s.loop.firstFrame = false ∧
        s.frame = 9 ∧ s.loop.accepted = false ∧ s.loop.settled = false) := by
  refine ⟨by decide, ⟨by decide, by decide, fun l h => ?_⟩, by decide⟩
  cases h
  decide +kernel

theorem witness_FramesStartAtThePrediction :
    (∀ stop : Bool, let s := looping 2000000 { Loop.reset with settled := true, stopping := stop };
      s.loopRuns = true ∧ s.prediction = some s.period ∧ s.period ≤ s.now ∧ s.loop.settled = true) ∧
    (∀ stop : Bool, let s := looping 2000000 { Loop.reset with stopping := stop };
      s.loopRuns = true ∧ s.loop.settled = false ∧ 0 + tSyw ≤ s.now ∧
        s.o 0x400005 + 1 > s.loop.missed + 1 ∧
        (withO [(0x400005, 0)] s).o 0x400005 + 1 ≤ (withO [(0x400005, 0)] s).loop.missed + 1) ∧
    (let s := looping 0 { Loop.reset with switchNow := true, switchDue := true };
      s.loop.switchNow = true ∧ s.loop.switchDue = true) := by decide +kernel

/-- Stream 0 of group 0 takes samples of 8 bytes, which the loop expects. -/
def sampled (now : Nat) (l : Loop) : State :=
  withO [(streamObj 0 1, 1), (streamObj 0 2, 0), (streamObj 0 6, 8), (streamObj 0 8, 0), (groupObj 0 9, 1)] (looping now l)

theorem witness_SamplesAreStagedAndClosed :
    (∀ tag ∈ [9, 12], let d := leBytes 2 tag ++ leBytes 2 0 ++ leBytes 4 8 ++ List.replicate 8 1;
      let s := sampled 10 Loop.reset;
      s.laneUp 0 = true ∧ s.injects 0 0 = 0 ∧ s.heldRx = none ∧ 8 ≤ d.length ∧ d.length ≤ 8192 ∧ s.takesSamples 0 = true ∧
        sampleRecords 1024 d = [(0, tag, List.replicate 8 1)] ∧ s.o (streamObj 0 1) = 1 ∧ s.o (streamObj 0 8) = 0 ∧
        (List.replicate 8 (1 : Byte)).length = s.o (streamObj 0 6) ∧ s.closeFrame = some 9 ∧ s.isDue 0 9 = true ∧
        s.loop.superseded.contains 0 = false) ∧
    (let s := sampled 2000000 Loop.reset;
      s.loopRuns = true ∧ s.loop.closed = false ∧ 0 + s.ingressClose ≤ s.now ∧
        s.groupsInUse.filter (fun g => s.o (groupObj g 9) != 0) = [0] ∧ s.ready hubUnit (4 * 0 + 1) = 0 ∧
        ({ s with hqs := [(hubUnit * 32 + 1, { (s.hq hubUnit 1) with items := [⟨0, 0, false⟩] })] } : State).ready hubUnit 1 ≠ 0) := by
  decide +kernel

theorem witness_ResultsLeaveAtTheDeadline :
    (let s := looping 1000 { Loop.reset with closed := true };
      let t : State := s.setHq hubUnit 2 { (s.hq hubUnit 2) with items := [⟨0x9000, 0, false⟩] }
      ((t.hq hubUnit (4 * 0 + 2)).items.head?).map (fun i => i.h) = some 0x9000) ∧
    (let s := withO [(groupObj 0 4, 2)] (looping (State.reset.o 0x400004 + 1) { Loop.reset with closed := true });
      s.usesHandle 0 0x9000 = true ∧ s.usesHandle 0 0x8000 = false ∧ WordsSound s (hubAddr (s.o (groupObj 0 3))) (32 * 2)) ∧
    (let s := sampled 2000000 { Loop.reset with settled := true };
      s.loopRuns = true ∧ s.loop.sent = false ∧ 0 + s.deadline ≤ s.now ∧ s.loop.settled = true ∧ s.inject = none ∧
        s.heldTx = none ∧ s.mainLink < 2 ∧ s.laneUp s.mainLink = true ∧ s.resultStreams ≠ []) ∧
    (let s := withO [(streamObj 0 8, 1), (alignObj 0 1, 1), (alignObj 0 3, 0)] (sampled 2000000 Loop.reset);
      s.alignFrame = some (9, 0) ∧ 0 + s.ingressClose - 400 ≤ s.now ∧ s.loop.evaluated.contains 0 = false ∧
        s.o (streamObj 0 1) ≠ 0 ∧ s.o (streamObj 0 8) ≠ 0 ∧ s.isDue 0 9 = true ∧ s.channelsOf 0 = [0] ∧
        s.channelValue 0 0 (0 + s.ingressClose - 400) = none ∧
        ((s.setSource 0 ⟨[], [⟨0, 0x3F800000, 0⟩]⟩).channelValue 0 0 (0 + s.ingressClose - 400)).isSome = true) := by
  unfold WordsSound
  decide +kernel

/-- Sensor lane 0 is up, the loop runs, and source 0 takes FP32 samples with identifier 5 from it. -/
def sensing : State :=
  withO [(laneObj 4 1, 4), (0x400001, 1), (srcObj 0 1, 1), (srcObj 0 2, 0), (srcObj 0 3, 5), (srcObj 0 4, 0), (srcObj 0 7, 1)]
    (looping 1000 Loop.reset)

/-- A sample packet of one value with this identifier, at time 300. -/
def packet (id : Nat) : List Byte := leBytes 4 (0x10000 + id) ++ leBytes 4 0 ++ leBytes 8 300 ++ leBytes 8 0x3F800000

/-- Camera 0 receives 4 × 3 pixels of 8 bits, of which line 0 has come. -/
def filming : State :=
  { withO [(camObj 0 1, 1), (camObj 0 2, 0), (camObj 0 3, 2), (camObj 0 4, 0), (camObj 0 6, 0x30004)] sensing with
    cameras := [(0, ⟨some ⟨0, 7, 0, 0, [[1, 2, 3, 4]]⟩, [], 0, 0⟩)] }

/-- Line `l` of frame `f` of camera 2. -/
def linePacket (f l : Nat) : List Byte :=
  leBytes 4 (0x10000 * l + 2) ++ leBytes 4 f ++ leBytes 4 4 ++ leBytes 4 0 ++ List.replicate 8 9

theorem witness_SensorPacketsReachTheirSources :
    (let s := sensing;
      s.laneUp 4 = true ∧ s.injects 4 0 = 0 ∧ s.heldRx = none ∧ 24 ≤ (packet 5).length ∧ (packet 5).length ≤ 8192 ∧
      s.sourceFor 0 (nfld (wordAt (packet 6) 0) 0 8) = none ∧ s.sourceFor 0 (nfld (wordAt (packet 5) 0) 0 8) = some 0 ∧
      nfld (wordAt (packet 5) 0) 8 4 = s.o (srcObj 0 4) ∧ s.o 0x400001 ≠ 0 ∧
      s.packetSamples 0 (packet 5) = [(300, 0x3F800000)] ∧ s.o (srcObj 0 0xD) < 300 ∧ s.o (srcObj 0 7) ≤ 1) ∧
    (let s := filming
      let cam (h : LineHdr) := (List.range 4).find? (fun k =>
        s.o (camObj k 1) == 1 && s.o (camObj k 2) == 0 && s.o (camObj k 3) == h.cam);
      (s.camera 0).cur = some ⟨0, 7, 0, 0, [[1, 2, 3, 4]]⟩ ∧
      ∀ x ∈ [(7, 1, true), (7, 0, false), (8, 1, true)], let d := linePacket x.1 x.2.1
        let h := lineHdr d;
        24 ≤ d.length ∧ d.length ≤ 8192 ∧ cam h = some 0 ∧ h.fs = false ∧ h.fe = false ∧ h.frame = x.1 ∧
          s.lineOk 0 h d 1 = x.2.2) ∧
    (let s := looping 1000 { Loop.reset with timeOwed := [4] };
      (withO [(laneObj 4 1, 4)] s).laneUp 4 = true ∧ s.loopRuns = true ∧ s.loop.timeOwed.contains 4 = true ∧
        (withO [(laneObj 4 1, 4)] State.reset).loopRuns = false ∧ (State.reset.lane 4).timeAt ≤ State.reset.now) := by
  decide +kernel

/-- A frame sent at time 0 with sequence number `n`. -/
def frame0 (n : Nat) : Frame := ⟨0, 0, 0, [], 0, n, 0⟩

theorem witness_ReliableChannelsDeliverInOrder :
    (let s := withO [(laneObj 0 1, 4)] (atNs 60000);
      s.laneUp 0 = true ∧ s.injects 0 0 = 0 ∧ s.heldRx = none ∧ (s.rel 0 1).waiting = [] ∧ (s.rel 0 1).rx = 0 ∧
        (8 ≤ (List.replicate 8 (0 : Byte)).length)) ∧
    (∀ e ∈ [(0, 0), (15, 0)], let s : State := { withO [(laneObj 0 1, 4), (laneObj 6 1, 4)] (atNs 60000) with
        rels := [(0, ⟨1, 0, [frame0 0], [], e.1⟩), (12, ⟨1, 0, [frame0 0], [], e.1⟩)] };
      s.laneUp 0 = true ∧ (s.rel 0 0).unacked = [frame0 0] ∧ (frame0 0).sentAt + 50000 ≤ s.now ∧ (s.rel 0 0).waiting = [] ∧
        s.laneUp 6 = true ∧ (s.rel 6 0).unacked = [frame0 0] ∧ (s.rel 6 0).waiting = [] ∧ (s.rel 6 1).waiting = [] ∧
        (s.rel 0 0).tries = e.1) := by decide +kernel

/-- Lane 6 of the link with device 1 is up, with a window and a queue, after reset. -/
def peerUp : State := withO [(laneObj 6 1, 4)] (window0 (owned0 (peer1 State.reset)))

theorem witness_PeerFramesReachTheirTargets :
    (let s := peerUp;
      s.laneUp 6 = true ∧ s.injects 6 0 = 0 ∧ s.heldRx = none ∧ s.fromObserver 6 = false ∧ s.waitsFor 3 0 = false ∧
        s.waitsFor 4 0 = false ∧ (s.rel 6 0).rx = 0 ∧ (s.rel 6 1).rx = 0 ∧ (s.hq 0 0).isForward = false ∧
        s.packetAnswer 0 1 0 0 64 = 0 ∧ s.packetAnswer 1 1 0 0 64 ≠ 0) ∧
    (let s : State := { peerUp with writes := [⟨0, 2, writeTag 0 2 0, 1, 0, 0, false, 0, [⟨0, 0, true, [], false, 1⟩], false⟩] };
      s.writes.find? (fun x => x.tag == writeTag 0 (2 + 0) 0) = some ⟨0, 2, writeTag 0 2 0, 1, 0, 0, false, 0,
        [⟨0, 0, true, [], false, 1⟩], false⟩) ∧
    (let s : State := { atNs 10000000 with peers := [(0, ⟨0, some 1, 0⟩)] };
      (s.peer 0).fenceSent.isSome = true ∧ (s.peer 0).fenceAt + 10000000 ≤ s.now) ∧
    (let s := peer1 State.reset;
      s.o (peerObj 0 1) ≠ 0 ∧ s.laneUp (6 + 2 * 0) = false ∧ s.laneUp (7 + 2 * 0) = false) := by decide +kernel

theorem witness_LanesMoveThroughTheirStates :
    (let s (n t : Nat) := withO [(laneObj 0 1, n)] (atNs t);
      (s 1 0).laneState 0 = 1 ∧ (s 2 20000000).laneState 0 = 2 ∧ ((s 2 20000000).lane 0).since + 20000000 ≤ (s 2 20000000).now ∧
      (∀ n ∈ [3, 4, 6], (s n 0).laneState 0 = n ∧ ((s n 0).lane 0).gapUntil ≤ (s n 0).now) ∧
      (s 5 0).laneState 0 = 5 ∧ (s 5 0).now < ((s 5 0).lane 0).since + 50000000 ∧
      ((s 5 50000000).lane 0).since + 50000000 ≤ (s 5 50000000).now ∧ (s 4 0).lit 0 = true ∧
      (s 4 0).laneUp 0 = true ∧ (withO [(0x700007, 0)] (s 4 0)).hasSpare 0 = false ∧
      (withO [(0x700007, 0)] (s 4 0)).lit 0 = true) ∧
    (let s : State := { withO [(laneObj 0 1, 3)] State.reset with lanes := [(0, { Lane.reset with idDone := true })] };
      s.laneState 0 = 3 ∧ (s.lane 0).idDone = true) ∧
    pSeat ≤ (BitVec.ofInt 16 (-1400)).toInt ∧ (BitVec.ofInt 16 (-1801)).toInt < pLos := by decide +kernel

/-- An identity record of a drive with device number `id`, and with this REFUSE. -/
def record (id refuse : Nat) : List Byte :=
  let b := leBytes 4 0x15A ++ leBytes 4 (refuse * 2 ^ 24 + State.reset.o 0x108301) ++ leBytes 8 id ++ List.replicate 12 0
  b ++ leBytes 4 (crc32c b)

set_option maxRecDepth 100000 in
theorem test_refusal_of_a_record (id : Nat) (h : idDevice (record id 0) ≠ Config.serialNumber % 2 ^ 64) (hi : id = 7 ∨ id = 8) :
    let s := withO [(laneObj 0 1, 3)] State.reset;
    identValid (record id 0) = true ∧ idRefuse (record id 0) = 0 ∧
      (s.setD (laneObj 0 0x10) (record id 0)).refusal 0 (record id 0) = 0 := by
  refine ⟨by rcases hi with rfl | rfl <;> decide +kernel, by rcases hi with rfl | rfl <;> decide +kernel, ?_⟩
  simp only [State.refusal]
  rw [if_neg h]
  rcases hi with rfl | rfl <;> decide +kernel

/-- Whatever the device's serial number, one of two records is no loop back of this device. -/
theorem test_some_record_passes : ∃ id, (id = 7 ∨ id = 8) ∧ idDevice (record id 0) ≠ Config.serialNumber % 2 ^ 64 := by
  have h7 : idDevice (record 7 0) = 7 := by decide +kernel
  have h8 : idDevice (record 8 0) = 8 := by decide +kernel
  by_cases h : Config.serialNumber % 2 ^ 64 = 7
  · exact ⟨8, Or.inr rfl, by rw [h8, h]; decide⟩
  · exact ⟨7, Or.inl rfl, by rw [h7]; exact fun e => h e.symm⟩

set_option maxRecDepth 100000 in
theorem witness_IdentityPhasesPassOrRefuse :
    (∀ g ∈ [0, 1], let s : State := { withO [(laneObj 0 1, 3)] State.reset with lanes := [(0, { Lane.reset with good := g })] };
      (record 7 0).length = 32 ∧ (record 7 3).length = 32 ∧ s.laneState 0 = 3 ∧ (s.lane 0).idDone = false ∧
        (s.lane 0).backoff = 0 ∧ identValid (record 7 0) = true ∧ identValid (record 7 3) = true ∧ idRefuse (record 7 3) = 3 ∧
        idRefuse (record 7 0) = 0 ∧ identValid (List.replicate 32 0) = false ∧
        (s.lane 0).identAt ≤ s.now) ∧
    (withO [(laneObj 0 1, 6)] State.reset).laneState 0 = 6 ∧
    (∀ e ∈ [[], List.replicate 15 9], let s : State := { withO [(laneObj 6 1, 3)] (atNs 120000000) with
        lanes := [(6, { Lane.reset with idDone := true, echoes := e })] };
      s.laneState 6 = 3 ∧ (s.lane 6).idDone = true ∧ s.injects 6 0 = 0 ∧ s.heldRx = none ∧
        (s.lane 6).since + 120000000 ≤ s.now) ∧
    (let s : State := { withO [(laneObj 6 1, 3)] (atNs 5) with lanes := [(6, { Lane.reset with backoff := 5 })] };
      s.laneState 6 = 3 ∧ (s.lane 6).backoff ≠ 0 ∧ (s.lane 6).backoff ≤ s.now) := by decide +kernel

theorem witness_LasersAreWatchedAndSwapped :
    (let s := withO [(laneObj 0 1, 4)] State.reset;
      s.laneUp 0 = true ∧ s.o (laneObj 0 8) ≠ 2 ∧ s.o (laneObj 0 0xB) = 0 ∧ s.lit 0 = true ∧ s.hasSpare 0 = true) ∧
    (let s : State := { withO [(laneObj 0 1, 4), (laneObj 0 6, 100), (0x700002, 1)] State.reset with
        lanes := [(0, { Lane.reset with biases := List.replicate 59 125 })] };
      ((125 :: (s.lane 0).biases).take 60).length = 60 ∧ 5 * 100 * 60 ≤ 4 * ((125 :: (s.lane 0).biases).take 60).sum ∧
        s.hasSpare 0 = true ∧ s.o 0x700002 = 1 ∧ s.o (laneObj 0 8) = 0 ∧ (withO [(0x700007, 0)] s).hasSpare 0 = false) ∧
    (let s : State := { withO [(laneObj 0 1, 4), (laneObj 1 1, 4), (laneObj 0 8, 2)] (atNs 60000000000) with
        lanes := [(0, { Lane.reset with warmAt := 1, warmed := true, dueAt := 1 })] };
      s.o (laneObj 0 8) = 2 ∧ (s.lane 0).warmAt ≠ 0 ∧ (s.lane 0).warmAt + 100000000 ≤ s.now + 1 ∧ (s.lane 0).warmed = true ∧
        s.linkQuiet 0 = true ∧ s.swapWaits 0 = false ∧ s.yields 1 = false ∧ (s.lane 0).dueAt + 60000000000 ≤ s.now + 1 ∧ s.freePortion = true) := by
  decide +kernel

theorem witness_LinksRunOnTheLanesTheyHave :
    (let s := withO [(laneObj 6 1, 4)] (atNs 1000000000);
      s.o (peerObj 0 1) = 0 ∧ s.laneUp 6 ≠ s.laneUp 7 ∧ (s.peer 0).soloSince + 1000000000 ≤ s.now) ∧
    (let s := withO [(laneObj 7 1, 4), (peerObj 0 1, 1)] State.reset;
      s.o (peerObj 0 1) = 1 ∧ s.laneUp 7 = true ∧ s.laneUp 6 = false) ∧
    (let s := withO [(laneObj 6 1, 4), (laneObj 7 1, 4), (peerObj 0 1, 2)] (atNs 1000000000);
      s.laneUp 6 = true ∧ s.laneUp 7 = true ∧ (s.lane 7).goodSince + 1000000000 ≤ s.now ∧ s.freePortion = true ∧
        s.injects 6 0 = 0 ∧ s.heldRx = none ∧ s.fromObserver 6 = false) ∧
    (let s := withO [(laneObj 0 1, 4)] (looping 0 { Loop.reset with notReadyOwed := [0] });
      s.loop.notReadyOwed.contains 0 = true ∧ s.laneUp 0 = true ∧ Tbl.get 0 s.notReadyAt 0 = 0) ∧
    (let s : State := { withO [(0x900003, 1), (0x730002, 1), (laneObj 6 1, 4), (peerObj 0 1, 1), (peerObj 0 2, 4)] State.reset
        with obs := { State.reset.obs with ring := [⟨0, 0, 0, 0, false, none, 0, 0, 0⟩] } };
      s.obs.ring ≠ [] ∧ s.o 0x900003 = 1 ∧ s.o 0x730002 = 1 ∧ s.mgmtHeld = [] ∧ s.linkTo 4 = some 0 ∧
        (s.rel (s.peerLane 0 (2 ^ 23) false) 1).waiting = []) := by decide +kernel

theorem witness_RequestsAreCheckedAndAnswered :
    let rd (k : Nat) : DictMsg := messageFor 5 k 3 false 0 0 []
    let s : State := { served 0 0 (atNs 1000000000) with transfers := [(5, some ⟨true, 0x901001, 2048, [], 0⟩)] };
    s.serves 0 = true ∧ (s.transfer 0 5).map (fun y => decide (y.last + 1000000000 ≤ s.now)) = some true ∧
      (∀ op ∈ [1, 2, 3], (s.busyCheck 0 op (rd 0x1F0002)).2 = none) ∧ s.objectCheck 0 0x1F0002 = 0 ∧
      s.objectCheck 0 0x1F00FE ≠ 0 ∧
      (∀ b ∈ [true, false], reaches (if b then s else s.setO (ok 0xB010 1) 0xFF) 0 2 (valueMessage 5 0x400002 1000000) = b) ∧
      reaches s 0 1 (valueMessage 5 0x400002 0) = true ∧
      (let x := valueMessage 5 0x400002 1000000;
        x.offset = 0 ∧ ((objRowOf 0x400002).any (fun r => headerOk 0 2 r x && r.ty != .domain && r.ty != .bool)) = true ∧
          (s.putFixed 0 0x400002 (leNat x.data) Env.clear).2 ≠ 7) ∧
      (rd 0x1F0002).data = [] := by decide +kernel

/-- A DISCOVERY frame to the broadcast address is accepted, whatever the device's own address. -/
theorem test_mgmt_accepts_broadcast : mgmtAccepts ⟨0xFFFFFFFFFFFF, 9, 0x88B5, 0x201, 0, [], true⟩ = true := by
  simp [mgmtAccepts, mgmtKind, mgmtLen, fld]

theorem witness_FramesCarryRequests :
    (let s := withO [(laneObj 0 1, 4)] (served 0 0 State.reset)
      let d := leBytes 4 0x301 ++ leBytes 12 0x1F00;
      s.laneUp 0 = true ∧ s.injects 0 0 = 0 ∧ s.heldRx = none ∧ 16 ≤ d.length ∧ d.length ≤ 256 ∧ masterOf 0 = 0 ∧
        s.serves 0 = true ∧ (s.rel 0 0).rx = 0 ∧ messageOp d = 1) ∧
    (let s := withO [(laneObj 0 1, 4)] (served 0 0 State.reset)
      let d := leBytes 4 0x2000401 ++ leBytes 4 0x4000 ++ leBytes 8 0
      let x := messageOf d
      let u := (s.relReceive 0 0 0).1;
      keyOf x = 0x400002 ∧ messageOp d = 1 ∧ (u.busyCheck 0 1 x).2 = none ∧ u.objectCheck 0 (keyOf x) = 0 ∧ x.offset = 0 ∧
        ((objRowOf (keyOf x)).any (fun w => u.rightsCheck 0 1 w x == 0 && headerOk 0 1 w x && w.ty != .domain)) = true) ∧
    (let s := withO [(0x730002, 1)] (served 1 3 State.reset)
      let f : MgmtFrame := ⟨BitVec.ofNat 48 macAddress, 9, 0x88B5, 1, 16, List.replicate 16 0, true⟩;
      f.fcsOk = true ∧ mgmtKind f = 0 ∧ 16 ≤ mgmtLen f ∧
        (s.mgmtStore f.src.toNat).1.resps.find? (fun r => r.1 == mgmtSeq f) = none) ∧
    (let f : MgmtFrame := ⟨0xFFFFFFFFFFFF, 9, 0x88B5, 0x201, 0, [], true⟩
      let s := withO [(0x730002, 1)] (served 1 3 State.reset);
      s.o 0x730002 ≠ 0 ∧ s.power.stage ≠ 0 ∧ ({ f with fcsOk := false } : MgmtFrame).fcsOk = false ∧
        mgmtAccepts { f with etherType := 0 } = false ∧ s.serves 1 = true ∧
        ({ s with fw := { s.fw with pmcDown := true } } : State).serves 1 = false ∧ s.mgmtHeld.length < 16 ∧
        (s.mgmtStore 9).1.resps.find? (fun r => r.1 == 2 * 2 ^ 16 + (0 : BitVec 16).toNat) = none ∧
        (({ s with mgmtSources := [⟨9, [(2 * 2 ^ 16, [1])], 0⟩] } : State).mgmtStore f.src.toNat).1.resps.find?
          (fun r => r.1 == mgmtKind f * 2 ^ 16 + mgmtSeq f) = some (2 * 2 ^ 16, [1])) ∧
    Reaches (served 0 0 State.reset) 0 1 (messageFor 5 (ok (0xB010 + 0) 2) 0xC false 0 0 []) :=
  ⟨by decide +kernel, by decide +kernel, by decide +kernel, by decide +kernel, reaches_of_test (by decide +kernel)⟩

/-- A dictionary frame to the device's own address is accepted, whatever that is. -/
theorem test_mgmt_accepts_own_address :
    mgmtAccepts ⟨BitVec.ofNat 48 macAddress, 9, 0x88B5, 1, 16, List.replicate 16 0, true⟩ = true := by
  have h : (BitVec.ofNat 48 macAddress).toNat = macAddress := by
    simp only [BitVec.toNat_ofNat]
    exact Nat.mod_eq_of_lt (by unfold macAddress; omega)
  simp [mgmtAccepts, mgmtKind, mgmtLen, fld, h]

/-- Master 0 has a challenge, and owner 3 a key in the first row. -/
def challenged : State :=
  let s := served 0 0 State.reset
  { s with masters := [(0, { Master.reset with nonceLive := true })]
           fuses := { s.fuses with keys := [(12, some (List.replicate 32 1, zeroBits 256 (leNat (List.replicate 32 1))))] } }

/-- The proof of R494 for owner 3 of that challenge. -/
def proof0 : List Byte := [191, 229, 6, 127, 12, 61, 81, 96, 163, 196, 153, 210, 182, 40, 208, 78]

set_option maxRecDepth 1000000 in
theorem test_proof_of_a_session : challenged.sessionProof 0 3 (List.replicate 32 1) = proof0 := by decide +kernel

set_option maxRecDepth 1000000 in
theorem witness_TokensAndSessionsChangeHands :
    (WriteAdmitted (served 0 0 State.reset) 0 5 0x1F0002 1 ∧ (served 0 0 State.reset).o 0x1F0001 = 0 + 1 ∧
      WriteAdmitted (withO [(0x1F0001, 0)] (served 0 0 State.reset)) 0 5 0x1F0002 1 ∧
      WriteAdmitted (withO [(0x1F0001, 2)] (served 0 0 State.reset)) 0 5 0x1F0002 1 ∧
      WriteAdmitted (served 0 0 State.reset) 0 5 0x1F0002 0) ∧
    (let s := withO [(0x1F0001, 1)] (served 1 0 State.reset); WriteAdmitted s 1 5 0x1F0003 1 ∧ s.o 0x1F0001 ≠ 2) ∧
    (let s : State := { atNs 1000000000 with masters := [(0, { Master.reset with lostAt := 1 })] };
      (s.master 0).lostAt ≠ 0 ∧ (s.master 0).lostAt + 1000000000 ≤ s.now + 1) ∧
    (let s := challenged
      let key := List.replicate 32 (1 : Byte)
      let g : Segment := ⟨5, true, 0, 17, leBytes 1 3 ++ proof0⟩;
      WholeAdmitted s 0 (ok (0xB010 + 0) 3) g ∧ g.data.length = 17 ∧ (s.master 0).nonceLive = true ∧ natAt g.data 0 1 = 3 ∧
        s.fuses.key 3 = some key ∧ g.data.drop 1 = s.sessionProof 0 3 key) ∧
    WriteAdmitted (served 0 3 State.reset) 0 5 (ok (0xB010 + 0) 4) 1 ∧
    WriteAdmitted (served 0 3 State.reset) 0 5 0x108303 (1 : BitVec 16).toNat := by
  refine ⟨⟨writeAdmitted_of_test (by decide +kernel), by decide +kernel, writeAdmitted_of_test (by decide +kernel),
    writeAdmitted_of_test (by decide +kernel), writeAdmitted_of_test (by decide +kernel)⟩,
    ⟨writeAdmitted_of_test (by decide +kernel), by decide +kernel⟩, by decide +kernel,
    ⟨⟨segmentAdmitted_of_test (by decide +kernel), by decide +kernel, rfl, by decide +kernel, by decide +kernel⟩,
      by decide +kernel, by decide +kernel, by decide +kernel, by decide +kernel, test_proof_of_a_session.symm⟩,
    writeAdmitted_of_test (by decide +kernel), writeAdmitted_of_test (by decide +kernel)⟩

set_option maxRecDepth 1000000 in
theorem witness_ServiceWritesTakeEffect :
    (WriteAdmitted (served 0 0 State.reset) 0 5 0x1F3002 1 ∧ (served 0 0 State.reset).o 0x400001 ≠ 1) ∧
    WriteAdmitted (served 0 3 State.reset) 0 5 0x800104 1 ∧
    (let y : Transfer := ⟨true, 0x901001, 2048, List.replicate 1848 0, 0⟩
      let s : State := { served 0 3 State.reset with transfers := [(5, some y)] }
      let g : Segment := ⟨5, true, 1848, 2048, List.replicate 200 0⟩;
      SegmentAdmitted s 0 0x901001 g ∧ g.offset ≠ 0 ∧ s.transfer 0 5 = some y ∧ g.offset.toNat = y.data.length ∧
        y.data.length + g.data.length = 2048 ∧ counterEntryOk (wordAt (y.data ++ g.data) (4 * 511)) = true) ∧
    WriteAdmitted (served 0 3 State.reset) 0 5 0x900001 1 ∧ WriteAdmitted (served 1 3 State.reset) 1 5 0xC00005 1 ∧
    WriteAdmitted (served 1 3 State.reset) 1 5 0xC00005 0 ∧ WriteAdmitted (served 1 3 State.reset) 1 5 0x801101 1 ∧
    (let s := withO [(0x80000A, 2)] (served 1 0 State.reset); WriteAdmitted s 1 5 0x80000B 1 ∧ s.o 0x80000A ≠ 0) ∧
    (let s := withO [(0x710001, 1), (laneObj 1 1, 4)] (served 0 0 State.reset);
      WriteAdmitted s 0 5 0x710004 1 ∧ s.o 0x710001 ≠ 0 ∧ s.laneUp (1 - s.mainLink) = true) := by
  refine ⟨⟨writeAdmitted_of_test (by decide +kernel), by decide +kernel⟩, writeAdmitted_of_test (by decide +kernel),
    ⟨segmentAdmitted_of_test (by decide +kernel), by decide, by decide +kernel, by decide +kernel, by decide +kernel,
      by decide +kernel⟩,
    writeAdmitted_of_test (by decide +kernel), writeAdmitted_of_test (by decide +kernel),
    writeAdmitted_of_test (by decide +kernel), writeAdmitted_of_test (by decide +kernel),
    ⟨writeAdmitted_of_test (by decide +kernel), by decide +kernel⟩,
    writeAdmitted_of_test (by decide +kernel), by decide +kernel, by decide +kernel⟩

theorem witness_LoopAndLanesAreSwitched :
    (let s := served 0 0 State.reset;
      WriteAdmitted s 0 5 0x400001 1 ∧ s.o 0x400001 = 0 ∧ s.o 0x1F2002 ≠ 3 ∧ s.o 0x1F2002 ≠ 4 ∧ s.power.entering = 0 ∧
        s.o 0x400006 = 0 ∧ s.loopConfigOk = true ∧ (withO [(0x400004, 999999)] s).loopConfigOk = false ∧
        (∃ u, s.openBuffers = some u ∧ (u.groupsInUse.foldl State.groupQueuesSet u).groupPairsOk = true ∧
          ((u.groupsInUse.foldl State.groupQueuesSet u).setO 0x400001 1).admitted.2 = true)) ∧
    (let s := withO [(0x400001, 1), (0x400006, 2)] (served 0 0 State.reset);
      WriteAdmitted s 0 5 0x400001 0 ∧ s.o 0x400001 = 1 ∧ s.loopRuns = true) ∧
    (∀ v ∈ [4, 6], WriteAdmitted (withO [(laneObj 0 1, v)] (served 0 0 State.reset)) 0 5 (laneObj 0 4) 1) ∧
    (∀ v ∈ [0, 1], WriteAdmitted (served 0 0 State.reset) 0 5 (laneObj 1 3) v) ∧ Env.clear.flashFails = false ∧
    WriteAdmitted (served 0 0 State.reset) 0 5 0x700008 (3 : BitVec 8).toNat := by
  refine ⟨⟨writeAdmitted_of_test (by decide +kernel), by decide +kernel, by decide +kernel, by decide +kernel,
      by decide +kernel, by decide +kernel, by decide +kernel, by decide +kernel,
      ⟨(served 0 0 State.reset).openBuffers.getD State.reset, by decide +kernel, by decide +kernel, by decide +kernel⟩⟩,
    ⟨writeAdmitted_of_test (by decide +kernel), by decide +kernel, by decide +kernel⟩,
    fun v hv => writeAdmitted_of_test (by revert v; decide +kernel),
    fun v hv => writeAdmitted_of_test (by revert v; decide +kernel), by decide,
    writeAdmitted_of_test (by decide +kernel)⟩

/-- A code object of one dimension with the buckets 4 and 8. -/
def dimImage : List Byte :=
  let words (l : List Nat) : List Byte := l.flatMap (leBytes 4)
  let body := words ([0x424F435A, 1, 512, 0x4040, 0, 4, 128, 1] ++ List.replicate 24 0) ++
    words [1, 448, 36, 0, 2, 192, 32, 0, 3, 256, 80, 0, 5, 384, 64, 0] ++ words [0, 0, 80, 1, 0x100, 0, 80, 1] ++
    List.replicate 32 0 ++ words ([0, 0, 0, 0, 0, 0, 0, 1] ++ List.replicate 8 0 ++ [0, 0, 0, 64]) ++ List.replicate 48 0 ++
    List.replicate 64 7 ++ words [2, 4, 8, 0, 0, 0, 0, 0, 0] ++ List.replicate 24 0
  body ++ leBytes 4 (crc32c body)

/-- `StartPasses` as a test. -/
def startOk (s0 : State) (n : Nat) : Bool :=
  let s := s0.enterTable n false
  let own := s.o (ctxObj n 1)
  let img := s.imageOf (s.o (ctxObj n 4))
  let cores := s.configCores n
  let trial := s.tryConfig n (s.o (ctxObj n 4)) img cores (s.widthCodes cores)
  decide (countBelow 64 (fun i => i != n && s.ctxActive i && s.o (ctxObj i 1) == own) < s.o (ok (0x3100 + own) 1)) &&
    s.oBit (ok (0x3100 + own) 2) (s.o (ctxObj n 2)) && (s.badCore n).isNone && s.objectOk n &&
    match s.startTuples n img with
    | some (a :: l) =>
      (a :: l).all (fun b => (trial b).exists_ && (trial b).mapped.any (fun z => (s.check5 n img cores z.1).isNone)) &&
        !s.channelClash n cores && (trial a).mapped.any (fun y => !y.1.rt || y.2.admitted.2)
    | _ => false

theorem startPasses_of_test {s : State} {n : Nat} (h : startOk s n = true) : ∃ x y, StartPasses s n x y := by
  simp only [startOk, Bool.and_eq_true, decide_eq_true_eq, Option.isNone_iff_eq_none] at h
  obtain ⟨⟨⟨⟨h1, h2⟩, h3⟩, h4⟩, h5⟩ := h
  split at h5
  next a l hs =>
    simp only [Bool.and_eq_true, List.all_eq_true, Bool.not_eq_true', Option.any_eq_true] at h5
    obtain ⟨⟨h6, h7⟩, y, hy, h8⟩ := h5
    refine ⟨_, y, h1, h2, h3, h4, a, l, hs, rfl, hy, fun b hb => ?_, h7, fun hr => ?_⟩
    · obtain ⟨h9, z, hz, h10⟩ := h6 b hb
      exact ⟨h9, z, hz, Option.isNone_iff_eq_none.mp h10⟩
    · rw [hr] at h8
      simpa using h8
  next => cases h5

set_option maxRecDepth 1000000 in
theorem witness_ContextsStartStopAndYield :
    (∀ e ∈ [(false, 0, 1), (true, 0, 0)], let s := served 0 0 (loaded e.1 e.2.1 e.2.2);
      WriteAdmitted s 0 5 (ctxObj 0 0xA) 1 ∧ s.o 0x1F2002 = 0 ∧ s.power.entering = 0 ∧ s.o (ctxObj 0 0xB) = 0 ∧
        s.startClusters 0 = [] ∧ ∃ x y, StartPasses s 0 x y) ∧
    (let s := served 0 0 (loaded false 0 1)
      let own (t : State) := decide (countBelow 64 (fun i => i != 0 && t.ctxActive i && t.o (ctxObj i 1) == 0) < t.o (ok 0x3100 1));
      own s = true ∧ own (withO [(ok 0x3100 1, 0)] s) = false ∧ s.oBit (ok 0x3100 2) 1 = true ∧
        (withO [(ok 0x3100 2, 0)] s).oBit (ok 0x3100 2) 1 = false ∧
        s.badCore 0 = none ∧ (withO [(ctxObj 0 3, 0x10)] s).badCore 0 = some 4 ∧
        s.objectOk 0 = true ∧ (withO [(ctxObj 0 4, 2)] s).badCore 0 = none ∧ (withO [(ctxObj 0 4, 2)] s).objectOk 0 = false ∧
        (let g := ((served 0 0 (loaded true 0 0)).poke 0 dimImage).poke 12 [0x44]
          let d : State := { g with dom := Tbl.set none g.dom (ctxObj 0 0x10) (some [9, 0, 0, 0]) };
          d.badCore 0 = none ∧ d.objectOk 0 = true ∧ d.startTuples 0 (d.imageOf (d.o (ctxObj 0 4))) = none) ∧
        ({ s with clusters := [(0, { Cluster.reset with p2 := true })] } : State).startClusters 0 ≠ []) ∧
    (∀ v ∈ [2, 3], WriteAdmitted (served 0 0 State.reset) 0 5 (ctxObj 0 0xA) v) ∧
    (let s := withO [(ctxObj 0 0xB, 2), (ctxObj 0 2, 1)] (served 0 0 State.reset);
      s.power.waiting = [] ∧ s.anyPreempting = false ∧ (s.setO (ctxObj 1 0xB) 3).anyPreempting = true ∧
        (∀ k, k < 64 → s.pubState k ≠ 1 ∧ s.pubState k ≠ 2) ∧
        s.busyCtx 0 = false ∧ (s.setEngine 0 4 { Engine.reset with flights := [flight (cmd 0x400 0 0 0) [] []] }).busyCtx 0 = true ∧
        s.o (ctxObj 0 0xB) = 2 ∧ s.o (ctxObj 0 2) ≠ 0) ∧
    PowerQuiet (withO [(ctxObj 0 0xB, 2), (ctxObj 0 2, 1), (ctxObj 1 0xB, 3)] (served 0 0 State.reset)) := by
  refine ⟨fun e he => ?_, by decide +kernel, fun v hv => writeAdmitted_of_test (by revert v; decide +kernel), by decide +kernel,
    by unfold PowerQuiet; decide +kernel⟩
  rcases List.mem_cons.mp he with rfl | he
  · exact ⟨writeAdmitted_of_test (by decide +kernel), by decide +kernel, by decide +kernel, by decide +kernel,
      by decide +kernel, startPasses_of_test (by decide +kernel)⟩
  · obtain rfl := List.mem_singleton.mp he
    exact ⟨writeAdmitted_of_test (by decide +kernel), by decide +kernel, by decide +kernel, by decide +kernel,
      by decide +kernel, startPasses_of_test (by decide +kernel)⟩

/-- Context 0 is in state `st`, its save record is at DRAM address 0 of its region, and the scratchpad regions `live` of core 0
are live. -/
def saving (st live : Nat) : State :=
  let s := owned0 (withO [(ctxObj 0 0xB, st), (ctxObj 0 2, 1), (ctxObj 0 3, 1), (partObj 1 1, 1)] (served 0 0 State.reset))
  ({ s with rgns := [(0, 0x98001000), (1, 0xF0)] }.setCore 0 { s.core 0 with marks := [(0, ⟨0, live, none, 0⟩)] }).poke 4 [1]

/-- Core 0 of that context has its save command executing, and the regions of `l` are not stored yet. -/
def savingOn (l : List Nat) : State :=
  let s := saving 3 3
  let f := { flight (saveCmd 0 0 l.isEmpty) [] [] with done := true, dur := 0, cmd := { saveCmd 0 0 true with w1 := 256 } }
  (s.setCore 0 { s.core 0 with saving := some (0, 0 :: l) }).setEngine 0 2 { Engine.reset with flights := [f] }

set_option maxRecDepth 1000000 in
theorem witness_ContextsAreSavedAndResumed :
    (∀ e ∈ [(0, []), (1, [0])], let s := saving 3 e.1
      let a := (s.saveRecord 0 0).1
      let y := s.engine 0 2;
      s.power.waiting = [] ∧ PowerQuiet s ∧ s.stoppingCtx = [] ∧ (s.publishing = true → s.publishedCore 0 64 = false) ∧
        s.o (ctxObj 0 0xB) = 3 ∧ (s.configCores 0).contains 0 = true ∧ nbit (Tbl.get 0 s.saved 0) 0 = false ∧
        s.atCheapPoint 0 0 = true ∧ (s.core 0).saving = none ∧ FarGranted s (s.saveRecord 0 0).2 true a 128 ∧
        a + 128 ≤ 0x200000000 ∧ liveRegions (Tbl.get MarkRec.reset (s.core 0).marks 0).live = e.2 ∧
        y.queue.length < 64 ∧ y.group = none ∧
        (s.configCores 0).all (nbit (nput 0 0 1 1)) = true ∧
        ((withO [(ctxObj 0 3, 3)] s).configCores 0).all (nbit (nput 0 0 1 1)) = false) ∧
    (∀ l ∈ [[], [1]], let s := savingOn l
      let y := s.engine 0 2;
      s.power.waiting = [] ∧ PowerQuiet s ∧ s.stoppingCtx = [] ∧ (s.core 0).saving = some (0, 0 :: l) ∧
        s.o (ctxObj 0 0xB) = 3 ∧ y.queue.length < 64 ∧ y.group = none ∧
        ∃ f, y.flights = [f] ∧ f.cmd.ctx = 0 ∧ (s.setEngine 0 2 { y with flights := [] }).holdsCmds 0 0 = false ∧
          f.due (s.coreCycle 0) = true ∧ f.inTime (s.coreCycle 0) = true ∧ s.pushTurn 0 f.cmd = true ∧ f.pbit = none) ∧
    (let s : State := { saving 4 1 with saved := [(64, 33)] }
      let a := (s.saveRecord 0 0).1
      let h := s.bytes a 128;
      (s.power.waiting = [] ∧ PowerQuiet s ∧ s.stoppingCtx = []) ∧
      WriteAdmitted s 0 5 (ctxObj 0 0xA) 4 ∧ s.o 0x1F2002 = 0 ∧ s.o (ctxObj 0 0xB) = 4 ∧
        s.startClusters 0 = [] ∧ s.leaseWaits 0 = false ∧ s.configCores 0 = [0] ∧
        Tbl.get 0 s.saved (64 + 32 * 0 + 0) = (s.core 0).width + 1 ∧ a % 4096 = 0 ∧ a + 0x201000 ≤ 0x200000000 ∧
        liveRegions (wordAt h 4 + wordAt h 8 * 2 ^ 32) = [0] ∧
        FarGranted s (s.saveRecord 0 0).2 false a (128 + 1 * 0x8000) ∧
        s.omapPermits 0 (0 * 0x8000) 0x8000 (s.saveRecord 0 0).2.own = .granted) := by
  refine ⟨fun e he => ?_, fun l hl => ?_, ?_⟩
  · have h : ∀ e ∈ [(0, ([] : List Nat)), (1, [0])], farOk (saving 3 e.1) ((saving 3 e.1).saveRecord 0 0).2 true
      ((saving 3 e.1).saveRecord 0 0).1 128 = true := by decide +kernel
    have k := farGranted_of_farOk (h e he)
    refine ⟨?_, ?_, ?_, ?_, ?_, ?_, ?_, ?_, ?_, k, ?_⟩ <;> clear h k <;> revert e <;> (try unfold PowerQuiet) <;> decide +kernel
  · have h : ∀ l ∈ [[], [1]], (savingOn l).power.waiting = [] ∧ PowerQuiet (savingOn l) ∧ (savingOn l).stoppingCtx = [] ∧
      (savingOn l).o (ctxObj 0 0xB) = 3 := by unfold PowerQuiet; decide +kernel
    rcases List.mem_cons.mp hl with rfl | hl
    · exact ⟨(h _ (by simp)).1, (h _ (by simp)).2.1, (h _ (by simp)).2.2.1, by decide +kernel, (h _ (by simp)).2.2.2,
        by decide +kernel, by decide +kernel, _, rfl, by decide +kernel⟩
    · obtain rfl := List.mem_singleton.mp hl
      exact ⟨(h _ (by simp)).1, (h _ (by simp)).2.1, (h _ (by simp)).2.2.1, by decide +kernel, (h _ (by simp)).2.2.2,
        by decide +kernel, by decide +kernel, _, rfl, by decide +kernel⟩
  · exact ⟨by unfold PowerQuiet; decide +kernel, writeAdmitted_of_test (by decide +kernel), by decide +kernel, by decide +kernel,
      by decide +kernel, by decide +kernel, by decide +kernel, by decide +kernel, by decide +kernel, by decide +kernel,
      by decide +kernel, farGranted_of_farOk (by decide +kernel), by decide +kernel⟩

/-- Context 0 runs that code object for its first bucket, and a record with SEQ 1 and value `v` is in place. -/
def invoked (v : Nat) : State :=
  let s := (served 0 0 (loaded false 0 1)).poke 0 dimImage
  let s1 := (withO [(ctxObj 0 0xB, 2), (ctxObj 0 0x14, 0x100)] s).poke (hubAddr 0x100) (leBytes 4 1 ++ leBytes 12 0 ++ leBytes 4 v)
  let y := s1.tryConfig 0 1 dimImage [0] (s1.widthCodes [0]) 0
  { s1 with maps := [(0, y.mapped.map (fun m => m.1))] }

set_option maxRecDepth 1000000 in
theorem witness_InvocationsRunTheirVariant :
    (∀ e ∈ [(4, none, true), (5, none, false), (9, some 0, true)], let s := invoked e.1
      let r := s.bytes (hubAddr (s.o (ctxObj 0 0x14))) 64;
      (s.mapOf 0).any (fun x =>
        let img := s.imageOf x.slot
        let b := bucketsOf img ((List.range 8).map (fun (i : Nat) => wordAt r (16 + 4 * i)))
        let cores := x.progs.map (fun (p : MapProg) => p.core)
        let y := s.tryConfig 0 x.slot img cores (s.widthCodes cores) (tupleOf img b.1)
        s.o (ctxObj 0 0xB) == 2 && !x.rt && s.pubState 0 != 1 && Tbl.get 0 s.invocations 0 == 0 && wordAt r 0 != wordAt r 4 && (s.dirtyWords (hubAddr (s.o (ctxObj 0 0x14))) 64).isEmpty &&
          imgNdim img != 0 && b.2 == e.2.1 && y.mapped.isSome && (y.key == x.key) == e.2.2) = true) ∧
    (let s : State := { State.reset with invocations := [(0, 2)] }; Tbl.get 0 s.invocations 0 = 1 + 1 ∧ s.busyCtx 0 = false) := by
  decide +kernel

/-- Slot 1 holds an image of owner 0 in state `st`. -/
def slotted (st : Nat) : State := withO [(slotObj 1 3, st)] (served 0 0 (loaded false 0 1))

set_option maxRecDepth 1000000 in
theorem witness_CodeObjectsAreLoadedAndPinned :
    (let g : Segment := ⟨5, false, 0, 512, (image false).take 64⟩
      let s := served 0 0 State.reset;
      SegmentAdmitted s 0 (slotObj 1 2) g ∧ s.writable (slotObj 1 2) = true ∧ s.o (slotObj 1 8) = 0 ∧ s.o (slotObj 1 3) ≠ 4 ∧
        g.offset.toNat + g.data.length ≤ g.total.toNat ∧ s.transfer 0 5 = none) ∧
    (let g : Segment := ⟨5, true, 448, 512, (image false).drop 448⟩
      let y : Transfer := ⟨true, slotObj 1 2, 512, (image false).take 448, 0⟩
      let s : State := { served 0 0 State.reset with transfers := [(5, some y)] };
      SegmentAdmitted s 0 (slotObj 1 2) g ∧ g.offset.toNat + g.data.length = g.total.toNat ∧ s.transfer 0 5 = some y ∧
        y.data.length = 448) ∧
    (let s : State := { slotted 2 with loading := [(1, image false)] }
      let bad : State := { slotted 2 with loading := [(1, [])] };
      s.o (slotObj 1 3) = 2 ∧ s.loadError 1 (Tbl.get [] s.loading 1) = 0 ∧ (s.roomFor (imagePages 512)).isSome = true ∧
        bad.loadError 1 (Tbl.get [] bad.loading 1) ≠ 0) ∧
    (∀ v ∈ [true, false], WriteAdmitted (slotted 3) 0 5 (slotObj 1 7) (b01 v)) ∧
    (let s := withO [(slotObj 1 8, 0)] (slotted 3);
      s.pinnedBytes + s.o (slotObj 1 5) ≤ 40 * 2 ^ 20 ∧
        40 * 2 ^ 20 < (withO [(slotObj 1 5, 40 * 2 ^ 20 + 1)] s).pinnedBytes + (withO [(slotObj 1 5, 40 * 2 ^ 20 + 1)] s).o (slotObj 1 5)) ∧
    (slotted 4).o (slotObj 1 3) = 4 ∧ WriteAdmitted (slotted 3) 0 5 (slotObj 1 9) 1 ∧
    (slotted 3).writable (slotObj 1 9) = true := by
  refine ⟨⟨segmentAdmitted_of_test (by decide +kernel), by decide +kernel, by decide +kernel, by decide +kernel,
      by decide +kernel, by decide +kernel⟩,
    ⟨segmentAdmitted_of_test (by decide +kernel), by decide +kernel, by decide +kernel, by decide +kernel⟩,
    by decide +kernel, fun v hv => writeAdmitted_of_test (by revert v; decide +kernel), by decide +kernel, by decide +kernel,
    writeAdmitted_of_test (by decide +kernel), by decide +kernel⟩

set_option maxRecDepth 1000000 in
theorem witness_PinnedImagesComeBackFromFlash :
    (let s : State := { served 0 0 State.reset with reloads := [1], pins := [(1, some [1, 2, 3])] };
      s.reloads.contains 1 = true ∧ s.boot.up = true ∧ s.power.channelLost = false ∧ s.power.restart = [] ∧ s.steps = [] ∧
        s.boot.loopHeld = false ∧ Tbl.get none s.pins 1 = some [1, 2, 3] ∧ (s.roomFor (imagePages 3)).isSome = true ∧
        s.imageEntry 1 = none ∧ sha256 [1, 2, 3] ≠ s.d (slotObj 1 6) ∧
        (let u : State := { s with dom := Tbl.set none s.dom (slotObj 1 6) (some (sha256 [1, 2, 3])) };
          sha256 [1, 2, 3] = u.d (slotObj 1 6)) ∧
        (let u : State := { withO [(slotObj 1 5, 3)] s with rgns := [(0, 0xC8000000)] };
          u.imageEntry 1 = some 0 ∧ Tbl.get none u.rgnNext 0 = none ∧
            Tbl.get none ({ u with rgnNext := [(0, some (0, 0, 0))] } : State).rgnNext 0 ≠ none)) ∧
    (let s : State := { loaded false 0 1 with pins := [(1, some (image false))], line := [(0, 1)], rgns := [(0, 0xC8000000)] };
      s.coverOf true (0 * 64 / 0x200000) = some 0 ∧ s.slotOfEntry 0 = some 1 ∧ Tbl.get none s.pins 1 = some (image false) ∧
        nbit (s.lineOf (0 * 64)) 0 = true) := by decide +kernel

/-- A submission of one INT8 byte without a label. -/
def sample1 : List Byte := leBytes 4 1 ++ leBytes 4 0x90000 ++ List.replicate 16 0 ++ leBytes 4 0x3F800000 ++ List.replicate 36 0 ++ [5]

/-- Context 0 adapts, with rows of 192 bytes, two in a half, and its dimension record at 0x1000. -/
def adapting : State :=
  withO [(adaptObj 0 1, 1), (adaptObj 0 4, 0), (adaptObj 0 5, 192), (adaptObj 0 6, 2), (ctxObj 0 0xB, 2), (ctxObj 0 0x14, 0x1000)]
    (served 0 0 State.reset)

set_option maxRecDepth 1000000 in
theorem witness_SubmissionsFillBatches :
    (let g : Segment := ⟨5, true, 0, 65, sample1⟩
      let s := adapting;
      WholeAdmitted s 0 (adaptObj 0 7) g ∧ subOk g.data (s.o (adaptObj 0 5)) = true ∧ s.o (ctxObj 0 0xB) = 2 ∧
        s.adapts? 0 = true ∧ s.halfFree 0 (s.adapt 0).batch = true ∧ (s.adapt 0).rows + 1 < s.o (adaptObj 0 6) ∧
        subOk [] (s.o (adaptObj 0 5)) = false ∧
        (s.setAdapt 0 { AdaptSt.reset with lastSeq := [(0, 1)] }).halfFree 0 0 = false) ∧
    (let s : State := { adapting with submissions := [⟨0, 0, 0, 0, sample1⟩] }; s.submissions = [⟨0, 0, 0, 0, sample1⟩] ∧ s.submissions.tail = []) ∧
    (let s := adapting.setAdapt 0 { AdaptSt.reset with batch := 1, closing := [(0, 1)] };
      (s.adapt 0).closing = [(0, 1)] ∧ s.submissions.any (fun y => y.ctx == 0 && y.batch == 0) = false) ∧
    WriteAdmitted adapting 0 5 (adaptObj 0 8) 1 ∧ (adapting.adapt 0).closing = [] ∧
    adapting.submissions.any (fun y => y.ctx == 0 && y.batch == (adapting.adapt 0).batch) = false := by
  refine ⟨⟨⟨segmentAdmitted_of_test (by decide +kernel), by decide +kernel, by decide +kernel, by decide +kernel,
      by decide +kernel⟩, by decide +kernel, by decide +kernel, by decide +kernel, by decide +kernel, by decide +kernel,
      by decide +kernel, by decide +kernel⟩,
    by decide +kernel, by decide +kernel, writeAdmitted_of_test (by decide +kernel), by decide +kernel, by decide +kernel⟩

/-- Context 1 adapts and publishes one record of 64 bytes, of this kind, into context 0, which runs and names it. -/
def publishing (kind : Nat) : State :=
  let s := withO [(ctxObj 0 0xB, 2), (ctxObj 0 0x15, 1), (adaptObj 1 0xB, 0), (adaptObj 1 1, 1)] (served 0 0 (loaded true 0 0))
  let y := s.tryConfig 0 1 (image true) [0] (s.widthCodes [0]) 0
  { s with maps := [(0, y.mapped.map (fun m => m.1))]
           dom := Tbl.set none s.dom (adaptObj 1 0xC) (some (leBytes 4 (kind * 32) ++ leBytes 12 0)) }

/-- That publication is being composed. -/
def composing (kind : Nat) : State :=
  ((publishing kind).setO (adaptObj 1 0xE) 1).setAdapt 1 { (publishing kind).adapt 1 with phase := 0, target := 0, frame := 0 }

set_option maxRecDepth 1000000 in
theorem witness_PublicationsTakeOneFrame :
    (let s := publishing 0
      let u := composing 0;
      WriteAdmitted s 0 5 (adaptObj 1 0xD) 1 ∧ s.o (adaptObj 1 0xB) = 0 ∧ s.o (ctxObj 0 0x15) = 1 ∧ s.pubState 1 = 0 ∧
        s.adapts? 1 = true ∧ s.o (ctxObj 0 0xB) = 2 ∧ s.o (ctxObj 0 2) = 0 ∧ Tbl.get 0 s.invocations 1 = 0 ∧
        (u.composed 1 false).any (fun p => u.admitCode (u.rtMaps ++ [p.1]) u.admitGroups p.2 == 1 &&
          !(u.loadPublication p.1 (p.1.progs.map (fun (q : MapProg) => q.core))).gapsBroken
            (p.1.progs.map (fun (q : MapProg) => q.core))) = true ∧
        (withO [(ctxObj 0 0x15, 2)] s).o (ctxObj 0 0x15) ≠ 1 ∧ (withO [(ctxObj 0 0xB, 0)] s).o (ctxObj 0 0xB) ≠ 2) ∧
    WriteAdmitted (publishing 0) 0 5 (ctxObj 0 0x15) (3 : BitVec 8).toNat ∧ Env.clear.flashFails = false ∧
    (let s := (composing 0).setAdapt 1 { (composing 0).adapt 1 with phase := 1 };
      (s.adapt 1).phase = 1 ∧ s.pubState 1 = 1 ∧ ((s.compose 1).adapt 1).phase = 1 ∧
        ((s.compose 1).composed 1 false).any (fun p => p.1.progs.all (fun q =>
          ((s.engine q.core 0).queue.all (fun x => !scaleWriter x.cmd || x.cmd.ctx == (s.adapt 1).target)) &&
            (List.range 64).all (fun k => s.o (ctxObj k 0xB) != 3 || !(s.configCores k).contains q.core))) = true) ∧
    (∀ e ∈ [(0, false), (1, true)], let s := (composing e.1).setAdapt 1 { (composing e.1).adapt 1 with phase := 2, frame := 9 };
      (withO [(0x400007, 9)] s).frame = ((withO [(0x400007, 9)] s).adapt 1).frame ∧
        ((mapEntries (s.d (adaptObj 1 0xC))).any (fun y => y.kind == 1) && (s.composed 1 true).isSome) = e.2) ∧
    (let s := (withO [(adaptObj 1 0xE, 2)] (composing 0)).setAdapt 1 { (composing 0).adapt 1 with phase := 4 };
      (s.adapt 1).phase = 4 ∧ s.pubState 1 = 2 ∧ s.publicationRuns 1 = false) := by
  refine ⟨⟨writeAdmitted_of_test (by decide +kernel), by decide +kernel, by decide +kernel, by decide +kernel,
      by decide +kernel, by decide +kernel, by decide +kernel, by decide +kernel, by decide +kernel, by decide +kernel,
      by decide +kernel⟩,
    writeAdmitted_of_test (by decide +kernel), by decide, by decide +kernel, by decide +kernel, by decide +kernel⟩

/-- Camera 0 takes mono frames of 4 × 4 pixels into buffers of 192 bytes from hub SRAM offset 0. -/
def cammed : State :=
  hubGranule0 (withO [(camObj 0 4, 2), (camObj 0 6, 0x40004), (camObj 0 7, 30), (camObj 0 0x11, 0x0004000400000000),
    (camObj 0 0x12, 0x40004), (camObj 0 0x13, 8), (camObj 0 0x14, 0x3F800000), (camObj 0 0x17, hubAddr 0), (camObj 0 0x18, 2),
    (camObj 0 0x19, 192), (camObj 0 0x1A, 0x800), (camObj 0 0x1B, 64)] (served 0 0 State.reset))

/-- The tokenizer is on, with a ring of 64 tokens at hub SRAM offset 0 and its control block at 0x800. -/
def tokening : State :=
  hubGranule0 (withO [(tokObj 1, 1), (tokObj 4, 0), (tokObj 5, 64), (tokObj 6, 0x800), (tokObj 7, 64), (tokObj 0xA, 0)]
    (served 0 0 State.reset))

/-- `HubGranted` as a test. -/
def hubOk (s : State) (own a n : Nat) : Bool :=
  (accessRuns a n).all (fun c => match s.place c.1 with
    | .hubSram off => decide (s.permits false (off / 0x1000) own none true = .granted)
    | _ => false)

theorem hubGranted_of_test {s : State} {own a n : Nat} (h : hubOk s own a n = true) : HubGranted s own a n := by
  intro c hc
  have h1 := List.all_eq_true.mp h c hc
  split at h1
  next heq =>
    rw [heq]
    simpa using h1
  next => cases h1

set_option maxRecDepth 1000000 in
theorem witness_CamerasAndTextsDeliver :
    ((∀ v ∈ [true, false], WriteAdmitted cammed 0 5 (camObj 0 1) (b01 v)) ∧ cammed.cameraOk 0 = true ∧
      (withO [(camObj 0 0x19, 64)] cammed).cameraOk 0 = false ∧ cammed.o (camObj 0 1) = 0 ∧
      (withO [(camObj 0 1, 1)] cammed).o (camObj 0 1) ≠ 0 ∧ WriteAdmitted (withO [(camObj 0 1, 1)] cammed) 0 5 (camObj 0 1) 0) ∧
    (let f : CamFrame := ⟨0, 7, 0, 0, List.replicate 4 [1, 2, 3, 4]⟩
      let s : State := { cammed with cameras := [(0, { Camera.reset with ready := [f] })] }
      let base := s.o (camObj 0 0x17) + f.seq % s.o (camObj 0 0x18) * s.o (camObj 0 0x19);
      (s.camera 0).ready = [f] ∧ s.power.channelLost = false ∧ s.o (camObj 0 0x1B) = 64 ∧
        (∀ g ∈ (s.planes 0 f.lines).1.zipIdx, HubGranted s (s.o (camObj 0 0x16)) (base + 64 + g.2 * s.pstride 0) (s.planeBytes 0 g.1).length) ∧
        HubGranted s (s.o (camObj 0 0x16)) base 64 ∧ HubGranted s (s.o (camObj 0 0x16)) (hubAddr (s.o (camObj 0 0x1A))) 16 ∧
        (let u := withO [(camObj 0 0x1B, 0), (ctxObj 0 0x14, 0x900)] s;
          u.o (camObj 0 0x1B) < 64 ∧ HubGranted u (u.o (camObj 0 0x16)) (hubAddr (u.o (ctxObj 0 0x14))) 24)) ∧
    (let s := cammed;
      HubGranted s (s.o (camObj 0 0x16)) (hubAddr (s.o (camObj 0 0x1A))) 64 ∧
        (withO [(camObj 0 0x1A, 0x1000)] s).permits false (0x1000 / 0x1000) 0 none true = .refused) ∧
    (let g : Segment := ⟨5, true, 0, 3, [2, 65, 66]⟩
      let s := tokening;
      WholeAdmitted s 0 (tokObj 2) g ∧ vocabOk g.data = true ∧ vocabOk [1, 65] = false ∧ Env.clear.flashFails = false ∧
        Env.clear.trieFits = true ∧ WholeAdmitted s 0 (tokObj 8) g ∧ s.o (tokObj 1) = 1 ∧
        (withO [(tokObj 1, 0)] s).o (tokObj 1) = 0 ∧ s.tokenizer.jobs = [] ∧ s.unreleased + 3 + 32 ≤ s.o (tokObj 5) ∧
        ¬(s.unreleased + 3 + 32 ≤ (withO [(tokObj 5, 32)] s).o (tokObj 5)) ∧ WriteAdmitted s 0 5 (tokObj 9) 1) ∧
    (let s : State := { tokening with tokenizer := { tokening.tokenizer with jobs := [([65, 66, 10], true)] } }
      let y := (s.tokenizer.feed (s.o (tokObj 3)) [65, 66, 10]).close
      let r := tokenize s.vocab true y.held.length y.held
      let at_ (i : Nat) : Nat := hubAddr (s.o (tokObj 4)) + 2 * ((s.o (tokObj 0xD) + i) % s.o (tokObj 5));
      r.1.length = 3 ∧ s.o (tokObj 0xD) + r.1.length ≤ objMax (tokObj 0xD) ∧
        (∀ i, i < r.1.length → HubGranted s (s.o (tokObj 0xA)) (at_ i) 2) ∧ s.o (tokObj 4) % 2 = 0 ∧
        s.o (tokObj 4) + 2 * s.o (tokObj 5) ≤ 0x800000 ∧ HubGranted s (s.o (tokObj 0xA)) (s.tokAddr 0) 4 ∧
        s.o (tokObj 6) % 64 = 0 ∧ s.o (tokObj 7) = 64 ∧
        (let u := withO [(tokObj 7, 0), (ctxObj 0 0x14, 0x900)] s;
          u.o (tokObj 7) < 64 ∧ HubGranted u (u.o (tokObj 0xA)) (hubAddr (u.o (ctxObj (u.o (tokObj 7)) 0x14))) 24 ∧
            u.permits false (u.o (tokObj 6) / 0x1000) (u.o (tokObj 0xA)) none false = .granted ∧ u.dirtyWords (u.tokAddr 1) 4 = [])) := by
  refine ⟨⟨fun v hv => writeAdmitted_of_test (by revert v; decide +kernel), by decide +kernel, by decide +kernel,
      by decide +kernel, by decide +kernel, writeAdmitted_of_test (by decide +kernel)⟩,
    ⟨by decide +kernel, by decide +kernel, by decide +kernel, fun g hg => hubGranted_of_test (by revert g; decide +kernel),
      hubGranted_of_test (by decide +kernel), hubGranted_of_test (by decide +kernel), by decide +kernel,
      hubGranted_of_test (by decide +kernel)⟩,
    ⟨hubGranted_of_test (by decide +kernel), by decide +kernel⟩,
    ⟨⟨segmentAdmitted_of_test (by decide +kernel), by decide, by decide, by decide, by decide +kernel⟩, by decide +kernel,
      by decide +kernel, by decide, by decide,
      ⟨segmentAdmitted_of_test (by decide +kernel), by decide, by decide, by decide, by decide +kernel⟩, by decide +kernel,
      by decide +kernel, by decide +kernel, by decide +kernel, by decide +kernel, writeAdmitted_of_test (by decide +kernel)⟩,
    by decide +kernel, by decide +kernel,
    fun i hi => hubGranted_of_test (by revert i; decide +kernel), by decide +kernel, by decide +kernel,
    hubGranted_of_test (by decide +kernel), by decide +kernel, by decide +kernel, by decide +kernel,
    hubGranted_of_test (by decide +kernel), by decide +kernel, by decide +kernel⟩

theorem witness_WindowsAndRegionsOpenAndClose :
    (let s : State := { withO [(ok 0x6200 1, 0x1F00000000)] (served 0 0 State.reset) with omap := [(0, 4), (1, 4)] }
      let c := configWords (s.o (ok 0x6200 1));
      WriteAdmitted s 0 5 (ok 0x6200 2) 1 ∧ bit (s.win 0 0) 31 = false ∧ s.windowClosing 0 = false ∧
        s.windowOpenStatus 0 (put32 c.1 31 1 0) c.2 = 0 ∧
        ({ s with omap := [] } : State).windowOpenStatus 0 (put32 c.1 31 1 0) c.2 ≠ 0) ∧
    (let s := window0 (owned0 (served 0 0 State.reset));
      WriteAdmitted s 0 5 (ok 0x6200 2) 0 ∧ bit (s.win 0 0) 31 = true ∧ s.windowAdmitted 0 = 0 ∧
        (s.setEngine 0 2 { Engine.reset with flights := [flight (cmd 0x254 0 0 0) [] []] }).windowAdmitted 0 ≠ 0) ∧
    (let s := withO [(ok 0x6100 1, 0x000000F019000000), (ok 0x3100 4, 64)] (served 0 0 State.reset)
      let c := configWords (s.o (ok 0x6100 1))
      let w0 := put32 (put32 c.1 31 1 1) 30 1 0
      let w1 := put32 c.2 8 2 0;
      WriteAdmitted s 0 5 (ok 0x6100 2) 1 ∧ s.o (ok 0x6100 4) ≠ 1 ∧ fld w0 25 2 = s.session 0 ∧ s.rgnOk 0 w0 w1 = true ∧
        rgnRemoves (s.rgn 0 0) (s.rgn 0 1) w0 w1 = false ∧
        s.coveredMib 0 + (if rgnDram w0 then 2 * (fld w0 12 12 + 1) else 0) ≤ s.o (ok (0x3100 + 0) 4) ∧
        (hubGranule0 s).rgnOk 0 w0 0 = true ∧ rgnRemoves ((hubGranule0 s).rgn 0 0) ((hubGranule0 s).rgn 0 1) w0 0 = true ∧
        WriteAdmitted s 0 5 (ok 0x6100 2) 0) ∧
    (let s : State := { State.reset with power := { Power.reset with channelLost := true } }
      let u : State := { s with power := { s.power with rebuilding := true } };
      s.power.channelLost = true ∧ s.power.rebuilding = false ∧ u.power.rebuilding = true ∧ u.rebuildWaits = false ∧
        (withO [(slotObj 1 3, 3)] s).pinnedSlotsNow.contains 1 = false ∧ (withO [(slotObj 1 3, 3)] s).o (slotObj 1 3) ≠ 5) := by
  refine ⟨⟨writeAdmitted_of_test (by decide +kernel), by decide +kernel, by decide +kernel, by decide +kernel, by decide +kernel⟩,
    ⟨writeAdmitted_of_test (by decide +kernel), by decide +kernel, by decide +kernel, by decide +kernel⟩,
    ⟨writeAdmitted_of_test (by decide +kernel), by decide +kernel, by decide +kernel, by decide +kernel, by decide +kernel,
      by decide +kernel, by decide +kernel, by decide +kernel, writeAdmitted_of_test (by decide +kernel)⟩, by decide +kernel⟩

/-- A self-test run of core 0 is the last one due before boot goes on. -/
def testing : State :=
  { State.reset with power := { Power.reset with stage := 2, testing := [0] } }

theorem witness_SelfTestsFindDefectsForRepair :
    (let s := testing;
      s.runMay 0 = true ∧ s.power.waiting = [] ∧ s.power.testing.contains 0 = true ∧ s.repairs.any (fun r => r.core == 0) = false ∧ s.power.restart = [] ∧ s.steps = [] ∧
        s.boot.loopHeld = false ∧ s.power.entering = 0 ∧ s.o 0x1F2001 = s.o 0x1F2002 ∧ s.power.testing = [0] ∧
        s.power.stage = 2 ∧ (s.core 0).bypassed.length < 2 ∧ (s.core 0).retired = false) ∧
    (let s := State.reset
      let u := s.setCore 0 { s.core 0 with atomRepeat := some 3 };
      s.atomMay 0 = true ∧ (s.core 0).columns.contains 3 = true ∧ (s.core 0).atomRepeat = none ∧
        u.atomMay 0 = true ∧ (u.core 0).atomRepeat = some 3 ∧ (u.core 0).columns.contains 3 = true ∧
        (u.core 0).bypassed.length < 2) ∧
    (∀ placed : Bool, let r : Repair := ⟨0, some 3, placed⟩
      let s : State := { withO [(partObj 0 1, 1)] State.reset with repairs := [r], boot := { Boot.reset with up := true } };
      s.repairsOf 0 = [r] ∧ s.o (partObj 0 3) < 2 ∧ s.boot.up = true ∧ s.freePortion = true ∧ s.atBoundary = true ∧
        (s.repairsOf 0).any (fun r => !r.placed) = !placed ∧ s.publishing = false) := by decide +kernel

theorem witness_RequestsBecomeResetSteps :
    (let r : ResetReq := ⟨1, 0, 0, none, true⟩
      let s : State := { State.reset with reqs := [r] };
      s.reqs = [r] ∧ s.fw.pmcDown = false ∧ (s.escalated r).1.code < 5 ∧ s.power.entering = 0 ∧ s.o 0x1F2002 = 0 ∧
        s.power.marked = [] ∧ s.power.waiting = [] ∧
        ¬(s.o 0x80000A = 1 ∨ s.absorbed r = true ∨ s.absorbed (s.escalated r).1 = true)) ∧
    (let r : ResetReq := ⟨5, 0, 0, none, true⟩
      let s : State := { State.reset with reqs := [r] };
      s.reqs = [r] ∧ s.fw.pmcDown = false ∧ 5 ≤ (s.escalated r).1.code ∧
        ¬(s.o 0x80000A = 1 ∨ s.absorbed r = true ∨ s.absorbed (s.escalated r).1 = true)) ∧
    (let x : ResetStep := ⟨⟨1, 0, 0, none, true⟩, 0, false, false, false⟩
      let s : State := { atNs 5000 with steps := [x] };
      s.steps.find? (fun x => (decide (x.begun + s.stepMax x < s.now) && true) || (!x.complete && decide (x.begun + 2500 < s.now)))
          = some x ∧ s.steps.getLast? = some x) ∧
    (let s : State := { atNs 3600000000000 with power := { Power.reset with cycles := [0, 0, 0], cycleHeld := true } };
      s.power.cycles[2]? = some 0 ∧ (0 : Int) + 3600000000000 ≤ (s.now : Int) ∧ s.power.cycleHeld = true) := by decide +kernel

/-- A step of this code on this target whose fence is complete. -/
def ready (code target : Nat) : State :=
  { withO [(ctxObj 0 0xB, 5), (ctxObj 0 3, 1), (partObj 1 1, 1)] State.reset with
    steps := [⟨⟨code, target, 0, none, true⟩, 0, true, true, false⟩] }

theorem witness_ResetsLeaveTheirDomainEmpty :
    (∀ e ∈ [(1, 0), (2, 4), (3, 1), (4, 0)], ((ready e.1 e.2).readyStep e.1).isSome = true) ∧
    (let s := ready 1 0; s.o (ctxObj 0 0xB) = 5 ∧ s.stoppingCtx.contains 0 = false ∧
      ({ s with stoppingCtx := [0] } : State).stoppingCtx.contains 0 = true) ∧
    (let s := ((ready 2 4).setCore 0 { (ready 2 4).core 0 with ctxRst := 1 }).setEngine 0 4
        { Engine.reset with flights := [flight (cmd 0x400 0 0 0) [] []] };
      (4 : Nat) = 0 * 8 + 4 ∧ bit (s.core 0).ctxRst 0 = true ∧ s.o (ctxObj 0 0xB) = 5 ∧ (s.resetCtxs 2 4).contains 0 = true) ∧
    ((ready 2 0).readyStep 2).isSome = true ∧
    (let s : State := { State.reset with loop := { Loop.reset with returning := [(0, some 2), (8, some 2)] } };
      s.atBoundary = true ∧ (looping 1000 Loop.reset).atBoundary = false ∧ (0, some 2) ∈ s.loop.returning ∧ (8, some 2) ∈ s.loop.returning) ∧
    (let s : State := { State.reset with boot := { Boot.reset with up := true }, power := { Power.reset with stage := 3 } };
      s.boot.up = true ∧ (s.cluster 0).p2 = false ∧ s.o 0x1F2002 = 0 ∧ s.power.stage ≠ 0 ∧ s.fw.pmcDown = false ∧
        (withO [(0x1F2002, 4)] s).o 0x1F2002 = 4 ∧ s.reqs = [] ∧ s.mgmtHeld = [] ∧ ({ s with fw := { s.fw with pmcDown := true } } : State).fw.pmcDown = true) := by
  decide +kernel

/-- A valid firmware image of this version and sequence number, with five parts of 64 bytes. -/
def fwImg (ver seq : Nat) : List Byte :=
  let words (l : List Nat) : List Byte := l.flatMap (leBytes 4)
  let data : List Byte := List.replicate 320 9
  let h := words ([0x46575A56, 1 + ver * 2 ^ 16, seq, 320, crc32c data, 0, 0xFFFF0000, 0, 0, 64, 64, 64, 128, 64, 192, 64, 256, 64] ++
    List.replicate 13 0)
  h ++ leBytes 4 (crc32c h) ++ data

/-- The setpoints are met by some readings, whatever they are. -/
theorem test_setpoints_can_be_met (k : Nat) (hk : k = 0x201002 ∨ k = 0x201102) :
    ∃ mv : BitVec 16, mv.toNat ≤ State.reset.o k + 15 ∧ State.reset.o k ≤ mv.toNat + 15 := by
  have h : ∃ x, State.reset.o k = 650 + x % 151 := by
    rcases hk with rfl | rfl
    · exact ⟨Config.setpoint 0, rfl⟩
    · exact ⟨Config.setpoint 1, rfl⟩
  obtain ⟨x, hx⟩ := h
  refine ⟨BitVec.ofNat 16 (State.reset.o k), ?_⟩
  rw [BitVec.toNat_ofNat, hx]
  omega

set_option maxRecDepth 1000000 in
theorem witness_PowerOnBootsFromFlash :
    (let s : State := { State.reset with
        fw := { Firmware.reset with images := [(0, fwImg 3 5)] }
        fuses := { Fuses.reset with testEntry := true }
        flash := { Flash.reset with kept := [(0x400002, some 40000)] } };
      s.fuses.state ≠ 0 ∧ s.fuses.state ≠ 5 ∧ fwValid (s.fwImage 0) = true ∧ fwValid (s.fwImage 1) = false ∧
        (0x400002, some 40000) ∈ s.flash.kept ∧ isKept 0x400002 = true ∧ (∀ e ∈ s.flash.extra, e.1 ≠ 0x400002) ∧
        s.flash.unsaved = none ∧ (∀ e ∈ s.flash.kept ++ s.flash.extra, e.1 ≠ laneObj 0 8) ∧
        (withO [(laneObj 0 8, 2)] s).o (laneObj 0 8) = 2 ∧
        State.reset.fuses.state = 0) ∧
    (let s : State := { State.reset with power := { Power.reset with stage := 1 } };
      s.power.stage = 1 ∧ s.boot.maint = false ∧ s.power.hubHeld = false ∧ s.boot.up = false ∧ s.boot.resetOpen = false ∧ s.o (ok 0x2010 0 + 3) ≤ 620 ∧
        620 ≤ s.o (ok 0x2010 0 + 4) ∧ ¬(s.o (ok 0x2012 3) ≤ 1)) ∧
    (let s : State := { State.reset with power := { Power.reset with hubHeld := true } }; s.power.hubHeld = true) ∧
    (let s := atNs 3600000000000; s.flash.sumAt + 3600000000000 ≤ s.now) := by decide +kernel

/-- The second slot holds a newer valid image, beside the one that was booted. -/
def updating : State :=
  let s := withO [(0xA01001, 0), (0xA01003, 3), (0xA01005, 3), (ok 0xA000 1, 1), (ok 0xA000 2, 5), (ok 0xA000 3, 3),
    (ok 0xA001 1, 1), (ok 0xA001 2, 6), (ok 0xA001 3, 4)] (served 0 3 State.reset)
  { s with fw := { s.fw with images := [(0, fwImg 3 5), (1, fwImg 4 6)] } }

/-- A provisioning record for slot 1 of owner 3 under the key of slot 0. -/
def provRecord : List Byte :=
  let h := leBytes 1 3 ++ leBytes 1 1 ++ leBytes 2 0 ++ List.replicate 32 7
  h ++ (hmac (List.replicate 32 1) (ascii "ZV WMAC" ++ h)).take 16 ++ List.replicate 12 0

/-- Owner 3 has a key in its first slot. -/
def keyed : State :=
  let s := withO [(ok 0xB023 1, 1), (0xB00001, 2)] (served 0 3 State.reset)
  { s with fuses := { s.fuses with keys := [(12, some (List.replicate 32 1, zeroBits 256 (leNat (List.replicate 32 1))))] } }

set_option maxRecDepth 1000000 in
theorem witness_FirmwareAndFusesChange :
    (let s := updating
      let y : Transfer := ⟨true, ok (0xA000 + 1) 5, 448, (fwImg 4 6).take 248, 0⟩
      let u : State := { s with transfers := [(5, some y)] }
      let g : Segment := ⟨5, true, 248, 448, (fwImg 4 6).drop 248⟩
      let h : Segment := ⟨5, false, 0, 448, (fwImg 4 6).take 100⟩;
      SegmentAdmitted u 0 (ok (0xA000 + 1) 5) g ∧ SegmentAdmitted s 0 (ok (0xA000 + 1) 5) h ∧ s.o 0xA01001 ≠ 1 ∧
        g.total.toNat ≤ 8 * 2 ^ 20 ∧ g.offset.toNat + g.data.length = g.total.toNat ∧ s.transfer 0 5 = none ∧
        u.transfer 0 5 = some y ∧ y.data.length = 248 ∧ fwValid (fwImg 4 6) = true) ∧
    (WriteAdmitted updating 0 5 (ok (0xA000 + 0) 6) 1 ∧ WriteAdmitted updating 0 5 (ok (0xA000 + 1) 6) 1 ∧
      updating.o 0xA01001 = 0) ∧
    (WriteAdmitted updating 0 5 0xA01007 1 ∧ WriteAdmitted updating 0 5 0xA01007 2 ∧ updating.mayActivate 1 = true ∧
      updating.mayActivate 2 = true ∧ (served 0 3 State.reset).mayActivate 1 = false ∧
      WriteAdmitted (served 0 3 State.reset) 0 5 0xA01007 1) ∧
    (let s := withO [(0xA01008, 1)] updating
      let img := s.fwImage (s.otherSlot.getD 0)
      let u : State := { s with fw := { s.fw with startedAt := 1 }, clk := (atNs 1000000).clk };
      s.o 0xA01008 = 1 ∧ s.fw.startedAt = 0 ∧ nfld (fwWord img 5) 0 16 ≤ s.o 0xA01003 ∧
        nfld (fwWord img 5) 16 16 ≤ s.o 0xA01004 ∧ u.fw.startedAt ≠ 0 ∧ u.loopRuns = false ∧ u.fw.armedAt + 1000000 ≤ u.now) ∧
    (let s : State := { withO [(0xA01008, 2)] updating with clk := (atNs 4000000).clk }
      let u : State := { s with fw := { s.fw with revert := 1 } };
      s.o 0xA01008 = 2 ∧ s.fw.revert = 0 ∧ 4 ≤ s.handoffFrames ∧ s.handoffFrames ≤ 16 ∧ u.revertCause ≠ 0) ∧
    (let s := updating;
      s.otherSlot.isSome = true ∧ s.boot.maint = false ∧ s.slotValid 1 = true ∧ s.excluded 1 = false ∧
        s.o 0xA01003 ≤ s.o (ok (0xA000 + 1) 3)) ∧
    (let s : State := { served 0 3 State.reset with fuses := { Fuses.reset with testEntry := true } };
      WriteAdmitted s 0 5 0xB00003 (2 : BitVec 8).toNat ∧ lcAllowed s.fuses.state 2 = true ∧ s.o 0xB00004 ≠ 1 ∧
        s.o 0x400001 ≠ 1 ∧ s.o 0xA01008 ≠ 1 ∧ s.o 0xA01008 ≠ 2 ∧ s.fuses.nextRow < 15 ∧ Env.clear.fuseFails = 0 ∧
        lcAllowed s.fuses.state 4 = false) := by
  refine ⟨⟨segmentAdmitted_of_test (by decide +kernel), segmentAdmitted_of_test (by decide +kernel), by decide +kernel⟩,
    ⟨writeAdmitted_of_test (by decide +kernel), writeAdmitted_of_test (by decide +kernel), by decide +kernel⟩,
    ⟨writeAdmitted_of_test (by decide +kernel), writeAdmitted_of_test (by decide +kernel), by decide +kernel,
      by decide +kernel, by decide +kernel, writeAdmitted_of_test (by decide +kernel)⟩,
    by decide +kernel, by decide +kernel, by decide +kernel,
    ⟨writeAdmitted_of_test (by decide +kernel), by decide +kernel, by decide +kernel, by decide +kernel, by decide +kernel,
      by decide +kernel, by decide +kernel, by decide +kernel, by decide +kernel⟩⟩

set_option maxRecDepth 1000000 in
theorem witness_FirmwareAndFusesChange_provision :
    let s := keyed
    let g : Segment := ⟨5, true, 0, 64, provRecord⟩;
    WholeAdmitted s 0 (ok (0xB020 + 3) 3) g ∧ s.o (ok (0xB020 + 3) 1) = 1 ∧ s.fuses.key 3 = some (List.replicate 32 1) ∧
      provisionFields g.data 3 1 = true ∧ provisionMac g.data (List.replicate 32 1) = true ∧
      provisionFields g.data 3 0 = false ∧ s.o 0xA01008 ≠ 1 ∧ s.o 0xA01008 ≠ 2 ∧ provisionState (s.o 0xB00001) 3 1 = true := by
  refine ⟨⟨segmentAdmitted_of_test (by decide +kernel), by decide, rfl, by decide +kernel, by decide +kernel⟩,
    by decide +kernel, by decide +kernel, by decide +kernel, by decide +kernel, by decide +kernel, by decide +kernel,
    by decide +kernel, by decide +kernel⟩

/-- A control plane whose device power state is `c`. -/
def inState (c : Nat) : State := withO [(0x1F2001, c), (0x1F2002, c)] (served 1 0 State.reset)

set_option maxRecDepth 1000000 in
theorem witness_PowerStatesFollowTheTarget :
    (∀ c ∈ [0, 3, 4], WriteAdmitted (inState c) 1 5 0x1F2001 0 ∧ (inState c).power.entering = 0 ∧ (inState c).power.marked = [] ∧
      (inState c).power.tripped = false ∧ (inState c).o 0x1F2002 = c ∧ (inState c).power.waiting = []) ∧
    (let s := inState 0;
      WriteAdmitted s 1 5 0x1F2001 3 ∧ WriteAdmitted s 1 5 0x1F2001 4 ∧ s.boot.up = true ∧ s.o 0x400001 ≠ 1 ∧ s.activating = false ∧
        s.runningBe = [] ∧ s.anyPreempting = false ∧ (withO [(ctxObj 0 0xB, 2), (ctxObj 0 2, 1)] s).runningBe ≠ [] ∧
        (withO [(0xA01008, 1)] s).activating = true) ∧
    (WriteAdmitted (inState 4) 1 5 0x1F2005 1 ∧ (inState 4).inP4 = true ∧
      (let s : State := { withO [(ok 0x2000 1, 95)] (inState 4) with power := { (inState 4).power with tripped := true } };
        s.power.tripped = true ∧ 95 ≤ s.temp 1) ∧
      WriteAdmitted (inState 0) 1 5 0x1F2005 1 ∧ (inState 0).inP4 = false ∧ (inState 0).power.timerAt ≠ (inState 0).clk.acc + 1 ∧
      (withO [(0x1F2006, 5)] (inState 4)).o 0x1F2006 ≠ 0 ∧ (withO [(0x1F2006, 5)] (inState 4)).o 0x1F2001 ≠ 0) ∧
    (let s : State := { withO [(partObj 1 1, 1)] (inState 0) with
        clk := (atNs 10000000).clk, power := { (inState 0).power with idleFrom := [(1, 1)] } };
      s.boot.up = true ∧ s.o 0x1F2002 = 0 ∧ s.partIdle 1 = true ∧ Tbl.get 0 s.power.idleFrom 1 ≠ 0 ∧
        Tbl.get 0 s.power.idleFrom 1 + s.o 0x1F2008 * 1000000 ≤ s.now + 1 ∧ s.clustersOf 1 = [0] ∧ s.inFlightTo 0 = false ∧
        (∀ c ∈ s.coresOf 1, (s.core c).idle = true) ∧ s.o (partObj 1 3) < 2) ∧
    (let s : State := { withO [(partObj 1 1, 1)] (inState 0) with
        clusters := [(0, { Cluster.reset with p2 := true })], power := { (inState 0).power with wakes := [0] } };
      (s.cluster 0).p2 = true ∧ s.wakeDue 0 = true ∧ s.wakeDue 1 = false ∧ s.o 0x1F2002 = 0 ∧ (s.partOfCluster 0).isSome = true ∧ Tbl.get 0 s.power.p2Exit (dieOf 0) = 0 ∧
        s.power.waiting = []) := by
  refine ⟨fun c hc => ⟨writeAdmitted_of_test (by revert c; decide +kernel), ?_⟩,
    ⟨writeAdmitted_of_test (by decide +kernel), writeAdmitted_of_test (by decide +kernel), by decide +kernel⟩,
    ⟨writeAdmitted_of_test (by decide +kernel), by decide +kernel, by decide +kernel, writeAdmitted_of_test (by decide +kernel),
      by decide +kernel⟩, by decide +kernel, by decide +kernel⟩
  revert c
  decide +kernel

theorem witness_ClocksAndTemperatureAreWatched :
    (let s : State := { State.reset with power := { Power.reset with stage := 3 } }
      let u := s.setCore 0 { s.core 0 with clockGated := true };
      (s.core 0).idle = true ∧ (s.core 0).clockGated = false ∧ (u.core 0).clockGated = true ∧
        s.oBit 0x202001 0 = false ∧ s.pllUsed 0 = true ∧ s.pllUsed 10 = true ∧ s.oBit 0x202001 10 = false ∧
        (withO [(0x202001, 0x7FF)] s).oBit 0x202001 0 = true ∧ (withO [(0x202001, 0x7FF)] s).oBit 0x202001 10 = true ∧
        PowerQuiet s ∧ s.power.waiting = [] ∧ s.power.cooled = [] ∧ s.runningBe = [] ∧ s.anyPreempting = false ∧ s.oBit 0x200008 0 = false ∧
        s.power.stage ≠ 0) ∧
    (let s := withO [(0x200008, 1), (partObj 1 1, 1)] State.reset
      let u : State := { s with power := { Power.reset with slow := [1] } };
      s.oBit 0x200008 0 = true ∧ u.power.entering = 0 ∧ u.slowDue 1 = false ∧ u.slowDue 2 = false) ∧
    (105 ≤ (105 : BitVec 8).toInt ∧ (99 : BitVec 8).toInt < 100 ∧ 115 ≤ (115 : BitVec 8).toInt) ∧
    (let s : State := { atNs 20000000000 with power := { Power.reset with hotFrom := [(0, 1)] } }; s.hotTen = true) := by
  unfold PowerQuiet
  decide +kernel

/-! ### The spec's own examples -/

/-- R243: the examples of the random sequence. -/
theorem test_rng_examples : rng 0 0 0 = 0xA3B195C4 ∧ rng 0 1 0 = 0xEB14C14D := by decide +kernel

/-- R248: the scale of DROPOUT with PDROP = 0x2000. -/
theorem test_dropout_scale : toBits32 (ratio32 65536 57344) = 0x3F924925 := by decide +kernel

/-- R75: the elements of the BS4 byte 0xB3 under scale byte 0x7C are 0.1875 and −0.1875. -/
theorem test_bs4_elements : toBits32 (Fmt.bs4.value 3 0x7C) = 0x3E400000 ∧ toBits32 (Fmt.bs4.value 0xB 0x7C) = 0xBE400000 := by
  decide +kernel

/-- R84: the product of two split FP32 values. -/
theorem test_split_product :
    let a : Operand := ⟨.fp32, 0x3F800FFF, 0⟩;
    toBits32 (round32 (cellSum (passes .fp32 .fp32) [(a, a)] .zero)) = 0x3F801FFE := by decide +kernel

/-- R100, R110, R119: durations and feed ends of matrix commands. -/
theorem test_matrix_durations :
    let b (opc m k n w fb : Nat) : Bound := ⟨⟨BitVec.ofNat 32 opc, 0, 0, 0, BitVec.ofNat 32 (m + k * 65536),
      BitVec.ofNat 32 (n - 1), 0, 0⟩, [8, fb, 8].map (fun f => { bytesView with fmt := f }), [], [], w⟩;
    (b 0x10 32 128 64 32 8).time 32 = (352, 288) ∧ (b 0x10 32 512 32 32 8).time 0 = (576, 512) ∧
    (b 0x11 1 1024 1024 32 8).time 0 = (4360, 4100) ∧ ((b 0x11 4 1024 1024 32 11).time 0).1 = 5396 ∧
    ((b 0x10 32 256 256 31 8).time 0).1 = 2368 := by decide +kernel

/-- R230: the integer path with M = 0.75 and SHIFT = 4. -/
theorem test_integer_path :
    let x : Core := { Core.reset with scales := [(280, 0x60000000), (281, 4)] };
    ([32, -32, 3000] : List Int).map (fun v => (x.intPath 0 70 .int8 (-128) 127 .near (Num.ofInt v)).code) = [2, 254, 127] := by
  decide +kernel

/-- R223, R224: the modes of a spilled INT16 tile. -/
theorem test_spilled_tile :
    let l : List (Option Nat) := ([-1200, 2900, 1000] : List Int).map (fun v => some (v % 65536).toNat);
    let t := frtEncode .int16 7 l;
    frtHeaderLow t = 0x00067B50 ∧ frtExpand .int16 t 2 = 976 ∧ frtExpand .int16 (frtEncode .int16 3 l) 2 = 848 := by
  decide +kernel

/-- R37: scratchpad byte 0x1_2340 of core C13, and an address that lies in no window. -/
theorem test_address_map : State.reset.place 0x903412340 = .spad 13 0x12340 ∧ State.reset.place 0x903600000 = .absent := by
  decide

/-- R400: the place of DRAM address 0x1_2345_6780. -/
theorem test_dram_map :
    let p := State.reset.dramMap 0x123456780;
    p = (7, 0x2468AC80) ∧ bankOf p.2 = 5 ∧ rowOf p.2 = 0x48D1 ∧ colOf p.2 = 18 := by decide

/-- R378, R379: the example of linear alignment. -/
theorem test_linear_alignment :
    (alignValue 1 100000 [] 7199999945000 [⟨7199999900000, 0x3E800000, 0⟩, ⟨7199999950000, 0x3EC00000, 0⟩]).map toBits32 =
      some 0x3EB9999A := by decide +kernel

/-- R394, R395: the example of the tokenizer. -/
theorem test_tokenizer_example :
    let v : List (List Byte) := [[71, 48, 49], [71, 48], [32, 88], [88, 49], [48, 48, 46], [32, 70]]
    let d : List Byte := [110, 49, 48, 32, 103, 48, 49, 32, 120, 49, 48, 48, 46, 53, 32, 40, 114, 111, 117, 103, 104, 41, 13, 10]
    let x := Tokenizer.feed 0xF State.reset.tokenizer d;
    tokenize v false x.held.length x.held = ([78, 49, 48, 32, 256, 258, 49, 260, 53, 32, 10], []) := by decide +kernel

/-- R541: rows 1 and 2 of the transition to FIELD. -/
theorem test_life_cycle_rows : lcRow 1 3 = 0xA5C1FC03 + 0x11 * 2 ^ 32 ∧ lcRow 2 3 = 0xA5C2FC03 + 0x11 * 2 ^ 32 := by decide

/-- R620: the entry that counts the stream errors of SE1 of core C13. -/
theorem test_counter_entry : counterEntryOk 0x00016C43 = true := by decide

/-- SHA-256 of the empty message, as its standard gives it. -/
theorem test_sha256_empty : sha256 [] = leBytes 32 0x55b852781b9995a44c939b64e441ae2724b96f99c8f4fb9a141cfc9842c4b0e3 := by
  decide +kernel

/-! ### Ill-formed commands, one for each check of `Instr.wf`, which refuses them, and their counterparts -/

theorem test_ill_formed_dram_write : (Instr.dramWrite 0 none 0 0 (List.replicate 63 0)).wf = false ∧
    (Instr.dramWrite 0 none 0 0 (List.replicate 64 0)).wf = true := by decide

theorem test_ill_formed_partial_write : (Instr.dramPartialWrite 0 none 0 []).wf = false ∧
    (Instr.dramPartialWrite 0 none 0 (List.replicate 64 0)).wf = false ∧ (Instr.dramPartialWrite 0 none 63 [0, 0]).wf = false ∧
    (Instr.dramPartialWrite 0 none 63 [0]).wf = true := by decide

theorem test_ill_formed_window_write :
    let w (n : Nat) := (Instr.remoteWindowWrite 0 0 0 0 0 false false (List.replicate n 0)).wf;
    w 0 = false ∧ w 63 = false ∧ w 576 = false ∧ w 512 = true := by decide +kernel

theorem test_ill_formed_ident : (Instr.ident 0 []).wf = false ∧ (Instr.ident 0 (List.replicate 32 0)).wf = true := by decide

theorem test_ill_formed_handoff (b : List Byte) (h : b.length = 262081) : (Instr.handoffLoadDone false 0 0 0 b).wf = false := by
  simp [Instr.wf, h]

/-! ### Words and states -/

/-- No row of the table gives bits, so that no word spells a command. -/
theorem test_no_word_spells_a_command : decodeTableWord 8 1 = none := by decide

/-- From reset, a step of an empty queue counts the hub clock. -/
theorem test_idle_step : ∃ t, step State.reset = .next t ∧ t.clk.hub = 1 := ⟨_, rfl, by decide⟩

theorem witness_StepTakesTheFront : let s : State := { State.reset with pending := [.nop 0] };
    s.pending = Instr.nop 0 :: [] ∧ State.reset.pending = [] ∧ (∃ t, step s = .next t ∧ t.pending = []) ∧
      ∀ k e, (State.reset.engine k e).queue = [] ∧ (State.reset.engine k e).flights = [] ∧ (State.reset.core k).fills = [] :=
  ⟨rfl, rfl, ⟨_, rfl, rfl⟩, fun _ _ => ⟨rfl, rfl, rfl⟩⟩

theorem witness_StepKeepsTheMemoryForm : Memory.wf State.reset.mem = true ∧ ∃ t, step State.reset = .next t :=
  ⟨by decide, _, rfl⟩

theorem witness_BlownRowsStayBlown :
    let s : State := { State.reset with fuses := { Fuses.reset with rows := [(0, lcRow 0 2)] } };
    Tbl.get 0 s.fuses.rows 0 ≠ 0 ∧ ∃ t, step s = .next t := ⟨by decide, _, rfl⟩

theorem witness_WellFormedCommandsComplete : (Instr.nop 0).wf = true ∧ (Instr.ident 0 []).wf = false := by decide

theorem witness_RandomValuesFollowTheSequence : (0 : Nat) < 2 ^ 64 ∧ 2 ^ 16 - 1 < 2 ^ 16 ∧ 2 ^ 48 - 1 < 2 ^ 48 := by decide

end Sys2Proof.Tests
end

/-! SUPPORT. What a refused append leaves, and the statement about appends to a full queue. -/

namespace Sys2Proof.Machine

/-! ### States with the same cores -/

theorem State.core_of_cores {s t : State} (h : t.cores = s.cores) (d : Nat) : t.core d = s.core d := by
  unfold State.core
  rw [h]

theorem State.engine_of_cores {s t : State} (h : t.cores = s.cores) (d i : Nat) : t.engine d i = s.engine d i :=
  congrArg (Core.engine · i) (State.core_of_cores h d)

/-! ### States that differ in what follows other state -/

theorem settledFrom_iff {u t : State} : SettledFrom u t ↔
    ∃ p o a w, t = { u with obs := p, obj := o, attn := a, power := { u.power with idleFrom := w } } := by
  refine ⟨fun h => ⟨_, _, _, _, h⟩, ?_⟩
  rintro ⟨p, o, a, w, rfl⟩
  rfl

/-- Bringing up to date what follows other state changes nothing but that. -/
theorem SettledFrom.settle {u t : State} (h : SettledFrom u t) : SettledFrom u t.settle := by
  obtain ⟨p, o, a, w, ht⟩ := settledFrom_iff.mp h
  obtain ⟨p', o', a', w', hs⟩ := t.settle_frame
  exact settledFrom_iff.mpr ⟨p', o', a', w', by rw [hs, ht]⟩

theorem SettledFrom.settleIf {u t : State} (h : SettledFrom u t) (b : Bool) :
    SettledFrom u (if b then t.settle else t) := by
  split
  · exact h.settle
  · exact h

theorem State.settleIf_cores (t : State) (b : Bool) : (if b then t.settle else t).cores = t.cores := by
  split
  · exact t.settle_cores
  · rfl

/-! ### Refused appends -/

/-- The engine with a refused append to its queue counted: the queue was full (R29), or the command malformed (R128). -/
def Engine.countRefusal (y : Engine) (full : Bool) : Engine :=
  if full then { y with overflow := satAdd 255 y.overflow 1 } else { y with malformed := satAdd 255 y.malformed 1 }

/-- A refused append counts in its engine; the rest of what it does is a record in the log and the trace. -/
theorem State.refuseAppend_frame (s : State) (core : Nat) (e : Eng) (c : Cmd) (full : Bool) : ∃ p o,
    s.refuseAppend core e c full =
      { s.setEngine core (engCode e) ((s.engine core (engCode e)).countRefusal full) with obs := p, obj := o } :=
  ((s.setEngine core (engCode e) ((s.engine core (engCode e)).countRefusal full)).event 0x00D core 1).logEv_frame 0x12 1 core
    { eng := engCode e, own := some c.own, ctx := some c.ctx }

theorem State.refuseAppend_cores (s : State) (core : Nat) (e : Eng) (c : Cmd) (full : Bool) :
    (s.refuseAppend core e c full).cores =
      (s.setEngine core (engCode e) ((s.engine core (engCode e)).countRefusal full)).cores := by
  obtain ⟨p, o, h⟩ := s.refuseAppend_frame core e c full
  rw [h]

theorem State.refuseAppend_settledFrom (s : State) (core : Nat) (e : Eng) (c : Cmd) (full : Bool) :
    SettledFrom { s with cores := (s.refuseAppend core e c full).cores } (s.refuseAppend core e c full) := by
  obtain ⟨p, o, h⟩ := s.refuseAppend_frame core e c full
  rw [h]
  rfl

theorem State.append_of_full (s : State) (core : Nat) (e : Eng) (c : Cmd)
    (h : 64 ≤ (s.engine core (engCode e)).queue.length) : s.append core e c = s.refuseAppend core e c true :=
  if_pos h

/-- QUEUE_APPEND at a full queue is the refusal, where nothing holds the append back (R25, R29, R368). -/
theorem execQueueAppend_of_full (core : Fin 24) (eng : Eng) (c : Cmd) (s : State)
    (hfull : 64 ≤ (s.engine core (engCode eng)).queue.length)
    (hpub : (scaleWriter c && s.publishedCore core c.ctx) = false) (hrun : s.stopped (core / 4) = false) :
    execQueueAppend core eng c s =
      .next (if (s.core core).clockGated then (s.refuseAppend core eng (s.workingCopy c) true).settle
        else s.refuseAppend core eng (s.workingCopy c) true) := by
  have hnot : ¬ (s.engine core (engCode eng)).queue.length < 64 := Nat.not_lt.mpr hfull
  simp [execQueueAppend, hpub, hrun, hnot, s.append_of_full core eng _ hfull]

/-! ### The statement -/

/-- Settles O10: the append to a full queue is the refusal, which counts in the engine of that queue and changes beside it
only what follows other state. -/
theorem fullQueuesRefuseAppends : Obligations.FullQueuesRefuseAppends := by
  intro core eng c s hfull hpub hrun
  have hcores := (State.settleIf_cores _ (s.core core).clockGated).trans
    (s.refuseAppend_cores core eng (s.workingCopy c) true)
  obtain ⟨hothers, hengines, -⟩ :=
    s.setEngine_facts core (engCode eng) ((s.engine core (engCode eng)).countRefusal true)
  refine ⟨_, execQueueAppend_of_full core eng c s hfull hpub hrun, ?_, fun i hi => ?_, fun d hd => ?_, ?_⟩
  · have hcount : satAdd 255 (s.engine core (engCode eng)).overflow 1 = min ((s.engine core (engCode eng)).overflow + 1) 255 :=
      Nat.min_comm _ _
    rw [State.engine_of_cores hcores, hengines, if_pos rfl, ← hcount]
    rfl
  · rw [State.engine_of_cores hcores, hengines, if_neg hi]
  · rw [State.core_of_cores hcores, hothers d hd]
  · rw [State.settleIf_cores]
    exact (s.refuseAppend_settledFrom core eng (s.workingCopy c) true).settleIf _

end Sys2Proof.Machine

/-! SUPPORT. The skip of the congruential sequence is its steps taken one by one, and the statement about random values. -/

namespace Sys2Proof.Machine

/-! ### The congruential sequence -/

/-- One step of the congruential sequence with multiplier `a` and increment `c` (R243). -/
def lcgStep (a c x : Nat) : Nat := (a * x + c) % 2 ^ 64

/-- The state that the given count of steps reaches (R243). -/
def lcgRun (a c : Nat) : Nat → Nat → Nat
  | 0, x => x
  | n + 1, x => lcgRun a c n (lcgStep a c x)

/-- Two steps, one after the other, are one step of the multiplier and the increment that lcg_skip forms from theirs. -/
theorem lcgStep_comp (a c b d x : Nat) :
    lcgStep (a * b % 2 ^ 64) ((c * b + d) % 2 ^ 64) x = lcgStep b d (lcgStep a c x) := by
  have hring : a * b * x + (c * b + d) = b * (a * x + c) + d := by
    rw [Nat.mul_add, Nat.mul_comm a b, Nat.mul_comm c b, Nat.mul_assoc, Nat.add_assoc]
  calc (a * b % 2 ^ 64 * x + (c * b + d) % 2 ^ 64) % 2 ^ 64
      = (a * b * x + (c * b + d)) % 2 ^ 64 := by
        rw [Nat.add_mod_mod, Nat.add_mod, Nat.mod_mul_mod, ← Nat.add_mod]
    _ = (b * (a * x + c) + d) % 2 ^ 64 := by rw [hring]
    _ = (b * ((a * x + c) % 2 ^ 64) + d) % 2 ^ 64 := by
        rw [Nat.add_mod (b * ((a * x + c) % 2 ^ 64)), Nat.mul_mod_mod, ← Nat.add_mod]

/-- The multiplier and the increment that lcg_skip squares take two steps at once. -/
theorem lcgStep_square (a c x : Nat) :
    lcgStep (a * a % 2 ^ 64) ((a + 1) * c % 2 ^ 64) x = lcgStep a c (lcgStep a c x) := by
  have hinc : (a + 1) * c = c * a + c := by rw [Nat.add_mul, Nat.one_mul, Nat.mul_comm]
  rw [hinc, lcgStep_comp]

theorem lcgRun_square (a c k x : Nat) :
    lcgRun (a * a % 2 ^ 64) ((a + 1) * c % 2 ^ 64) k x = lcgRun a c (2 * k) x := by
  induction k generalizing x with
  | zero => rfl
  | succ k ih => rw [lcgRun, lcgStep_square, ih, Nat.mul_succ, lcgRun, lcgRun]

/-- A step with multiplier 1 and increment 0 leaves a state of 64 bits as it is. -/
theorem lcgStep_one_zero {x : Nat} (h : x < 2 ^ 64) : lcgStep 1 0 x = x := by
  rw [lcgStep, Nat.one_mul, Nat.add_zero, Nat.mod_eq_of_lt h]

/-- A fold that takes one step for each entry of a list, whatever the entries are. -/
theorem foldl_lcgStep {α : Type} (a c : Nat) (l : List α) (x : Nat) :
    l.foldl (fun y _ => lcgStep a c y) x = lcgRun a c l.length x := by
  induction l generalizing x with
  | nil => rfl
  | cons _ l ih => rw [List.foldl_cons, ih, List.length_cons, lcgRun]

/-! ### The skip -/

theorem lcgSkipFrom_zero_steps (fuel am ap cm cp s : Nat) :
    lcgSkipFrom fuel am ap cm cp 0 s = lcgStep am ap s := by
  cases fuel with
  | zero => rfl
  | succ fuel => rfl

/-- An iteration of lcg_skip at an even count of steps only squares the step. -/
theorem lcgSkipFrom_even (fuel am ap cm cp k s : Nat) (hk : 0 < k) :
    lcgSkipFrom (fuel + 1) am ap cm cp (2 * k) s =
      lcgSkipFrom fuel am ap (cm * cm % 2 ^ 64) ((cm + 1) * cp % 2 ^ 64) k s := by
  have hsome : ¬ 2 * k = 0 := by omega
  have heven : ¬ 2 * k % 2 = 1 := by omega
  have hhalf : 2 * k / 2 = k := by omega
  rw [lcgSkipFrom, if_neg hsome, if_neg heven, if_neg heven, hhalf]

/-- An iteration of lcg_skip at an odd count of steps takes one of them and squares the step. -/
theorem lcgSkipFrom_odd (fuel am ap cm cp k s : Nat) :
    lcgSkipFrom (fuel + 1) am ap cm cp (2 * k + 1) s =
      lcgSkipFrom fuel (am * cm % 2 ^ 64) ((ap * cm + cp) % 2 ^ 64) (cm * cm % 2 ^ 64) ((cm + 1) * cp % 2 ^ 64) k s := by
  have hsome : ¬ 2 * k + 1 = 0 := by omega
  have hodd : (2 * k + 1) % 2 = 1 := by omega
  have hhalf : (2 * k + 1) / 2 = k := by omega
  rw [lcgSkipFrom, if_neg hsome, if_pos hodd, if_pos hodd, hhalf]

/-- The loop of lcg_skip takes the steps that are left, one by one, from the state its accumulated step reaches. -/
theorem lcgSkipFrom_eq_lcgRun (fuel am ap cm cp n s : Nat) (hn : n < 2 ^ fuel) :
    lcgSkipFrom fuel am ap cm cp n s = lcgRun cm cp n (lcgStep am ap s) := by
  induction fuel generalizing am ap cm cp n with
  | zero =>
    obtain rfl : n = 0 := Nat.lt_one_iff.mp hn
    rfl
  | succ fuel ih =>
    obtain ⟨k, rfl | rfl⟩ : ∃ k, n = 2 * k ∨ n = 2 * k + 1 := ⟨n / 2, by omega⟩
    · rcases Nat.eq_zero_or_pos k with rfl | hk
      · exact lcgSkipFrom_zero_steps ..
      · rw [lcgSkipFrom_even _ _ _ _ _ _ _ hk, ih _ _ _ _ k (by omega), lcgRun_square]
    · rw [lcgSkipFrom_odd, ih _ _ _ _ k (by omega), lcgRun_square, lcgStep_comp, lcgRun]

theorem lcgSkip_eq_lcgRun {s n : Nat} (c : Nat) (hs : s < 2 ^ 64) (hn : n ≤ 2 ^ 48) :
    lcgSkip s n c = lcgRun lcgMul c n s := by
  have hfuel : n < 2 ^ 49 := by omega
  rw [lcgSkip, lcgSkipFrom_eq_lcgRun _ _ _ _ _ _ _ hfuel, lcgStep_one_zero hs]

/-! ### The statement -/

/-- The output permutation, with its right shifts as R243 writes them. -/
theorem rngOut_eq_shiftRight (x : Nat) :
    rngOut x =
      ((x ^^^ (x >>> 29)) * 0xA3B195C47D2EF061 % 2 ^ 64 ^^^
        ((x ^^^ (x >>> 29)) * 0xA3B195C47D2EF061 % 2 ^ 64) >>> 32) >>> 32 := by
  simp only [rngOut, Nat.shiftRight_eq_div_pow]

/-- Settles O60: the skip of `i + 1` steps takes them one by one, which the statement writes as a fold over a range. -/
theorem randomValuesFollowTheSequence : Obligations.RandomValuesFollowTheSequence := by
  intro seed u i hseed _ hi next x y
  have hnext : next = lcgStep lcgMul (2 * u + 1) := by
    funext z
    simp only [next, lcgStep, lcgMul, Nat.mul_comm z]
  have hx : x = lcgSkip seed (i + 1) (2 * u + 1) := by
    calc x = (List.range (i + 1)).foldl (fun y _ => lcgStep lcgMul (2 * u + 1) y) seed := by simp only [x, hnext]
      _ = lcgRun lcgMul (2 * u + 1) (i + 1) seed := by rw [foldl_lcgStep, List.length_range]
      _ = lcgSkip seed (i + 1) (2 * u + 1) := (lcgSkip_eq_lcgRun _ hseed hi).symm
  rw [rng, ← hx, rngOut_eq_shiftRight]

end Sys2Proof.Machine
